-- ==== Sys2Proof/Word.lean ====
section
/-! DEFINITION. The machine's words: a register word, a 64-bit memory word, a byte, and the shape of a sparse table. -/
namespace Sys2Proof

/-- A configuration register word (R33). -/
abbrev Word := BitVec 32
/-- A little-endian 64-bit word of a ring entry, an instruction unit or a record. -/
abbrev DWord := BitVec 64
/-- One byte. -/
abbrev Byte := BitVec 8
/-- A 128-byte line as it crosses a far port, byte b at bits [8b + 7 : 8b] (R424). -/
abbrev Line := BitVec 1024
/-- A 256-byte scratch line (R195). -/
abbrev SLine := BitVec 2048
/-- A sparse table: pairs of a key and a value, keys strictly rising. -/
abbrev Tab (α : Type) := List (Nat × α)

end Sys2Proof
end

