-- ==== Sys2Proof/Syntax.lean ====
section
/-! DEFINITION. The commands of the block: one constructor of `Instr` per row of spec/opcode_table.json, in the table's
order. A command is an event of the block or an access to it; its operands are what comes from outside (an address, data
returned by memory, a completion code) or name the unit the event happens at. -/
namespace Sys2Proof

/-- What the host's interconnect sets beside an access (R31, R422): privilege, partition tag, requester, byte strobes. -/
structure Attr where
  priv : Bool
  part : BitVec 4
  req  : BitVec 12
  strb : BitVec 4
  deriving DecidableEq, Repr

/-- One access of the configuration port (R422). -/
structure Access where
  addr  : BitVec 24
  write : Bool
  data  : Word
  attr  : Attr
  deriving DecidableEq, Repr

/-- How a memory access was answered: the completion code of R427, the poison bits of its words (R424, R429), and the
words that the corrector found beyond correction (R198, R426). -/
structure Ret where
  code   : BitVec 2
  poison : BitVec 4
  beyond : BitVec 4
  deriving DecidableEq, Repr

/-- An error that a unit signals to the referee and that no other command of the table brings about: a spine error, a
tally-state error, an error of the referee's own storage, a sensor or medium report (R346, R352). -/
structure ExtEvent where
  kind   : Nat
  unit   : Nat
  addr   : DWord
  detail : DWord
  deriving DecidableEq, Repr

/-- One entry of a range table as it stands in memory, words E0 to E3 (R258). -/
structure TabEntry where
  e0 : DWord
  e1 : DWord
  e2 : DWord
  e3 : DWord
  deriving DecidableEq, Repr

/-- A link packet: header words H0 and H1, the mask unit and the payload line (R288). -/
structure Packet where
  h0   : DWord
  h1   : DWord
  mask : BitVec 128
  data : Line
  deriving DecidableEq, Repr

/-- One object of the vault's metadata area, as MOUNT reads it (R324, R339). -/
structure MetaObj where
  obj    : Nat
  st     : Nat
  packed : Bool
  parts  : BitVec 16
  gen    : Nat
  len    : Nat
  blocks : Nat
  segs   : List Nat
  /-- headers of a PACKED object, poison list, program time of each segment, frontier and lines written behind it -/
  headers  : List DWord
  poison   : List Nat
  birth    : List Nat
  frontier : Nat
  written  : Tab Nat
  deriving DecidableEq, Repr

/-- The newest metadata copy that checks (R339): objects, bad-block tables (channel, block, spare), erase counts (channel,
block, count) and positions out of use. -/
structure MetaCopy where
  objs    : List MetaObj
  bad     : List (Nat × Nat × Nat)
  erases  : List (Nat × Nat × Nat)
  retired : List Nat
  deriving DecidableEq, Repr

/-- Where a counter sits (R392): a station, the hub, a link port, the vault controller. -/
inductive CntLoc
  | station (n : Nat)
  | hub
  | port (p : Nat)
  | vault
  deriving DecidableEq, Repr

/-- A log record that Torvyo or the power controller appends: type, severity, source and payload words 2 and 3 (R381). -/
structure LogBody where
  typ : Nat
  sev : Nat
  src : Nat
  w2  : DWord
  w3  : DWord
  deriving DecidableEq, Repr

/-- The commands. `n` is a station, `c` a channel of it, `k` a strand of it, `a` the attributes of an access. -/
inductive Instr
  -- mover programs: the sequencer of station n retires one instruction (R79)
  | nop (n : Nat)
  | halt (n : Nat)
  | jump (n : Nat)
  | loop (n : Nat)
  | endl (n : Nat)
  | move (n : Nat)
  | moveb (n : Nat)
  | fill (n : Nat)
  | copy (n : Nat)
  | setx (n : Nat)
  | wait (n : Nat)
  | signal (n : Nat)
  | fence (n : Nat)
  | tload (n : Nat)
  | stat (n : Nat)
  | advise (n : Nat)
  -- channels
  | doorbellWrite (n c : Nat) (t : Word) (a : Attr)
  | channelEnable (n c : Nat) (w : Word) (a : Attr)
  | channelDisable (n c : Nat) (w : Word) (a : Attr)
  | resume (n c : Nat) (w : Word) (a : Attr)
  | entryReadReturn (n c : Nat) (idx : Word) (w0 w1 w2 w3 : DWord) (err : Bool)
  | entryDispatch (n c : Nat)
  | instructionLineReturn (n k : Nat) (line : Nat) (data : Line) (ret : Ret)
  | entryComplete (n k : Nat)
  | statusWriteLanded (n c : Nat) (idx : Word)
  | interruptSend
  | interruptCauseClear (addr : BitVec 24) (w : Word) (a : Attr)
  -- start stage of a data operation
  | descriptorArrive (n k : Nat) (d side : Line) (ret : Ret)
  | hazardGrant (n k : Nat)
  | guardSatisfied (n k : Nat)
  | guardTimeout (n k : Nat)
  | codecBind (n k : Nat)
  | resourceGrant (n k : Nat)
  -- bursts
  | readBurstIssue (n : Nat)
  | writeBurstIssue (n corrected : Nat) (beyond : BitVec 2)
  | readReturn (n tag : Nat) (data : Line) (ret : Ret)
  | writeCompletion (n : Option Nat) (tag : Nat) (code : BitVec 2)
  | landTimeout (n tag : Nat)
  | invalidationSend
  | invalidationAck (id : BitVec 8)
  | invalidationTimeout (id : BitVec 8)
  -- codec and shaper
  | blockDecode (n k : Nat)
  | blockEncode (n k : Nat)
  | tloadMarkLoading (n k : Nat)
  | tloadTableBuilt (n k : Nat)
  | statRecord (n k : Nat)
  -- near port
  | frameSync (n : Nat) (onTime : Bool)
  | nearSlot (n corrected : Nat) (beyond : BitVec 4)
  | lineStaged (n : Nat)
  | nearReadData (n : Nat) (data : SLine) (ret : Ret) (corrected : Nat) (rerr : Bool)
  | nearWriteAck (n : Nat) (werr : Bool)
  | nearAckMissing (n : Nat)
  -- tallies
  | signalFire (n k : Nat)
  | tallyAddition (t : Nat)
  | landingBarrier (n : Nat)
  | barrierReport (n : Nat)
  | acquireComplete (n k : Nat)
  | waitTimeout (n k : Nat)
  | talAdd (t : Nat) (w : Word) (a : Attr)
  | talVal (t : Nat) (v : DWord) (a : Attr)
  | tallyPoison (t : Nat)
  -- range translation
  | walkRequest (p : Nat) (va : Nat)
  | walkDone (p : Nat) (va : Nat) (group : List TabEntry) (err : Bool)
  | batchClose (p : Nat)
  | batchLanded (p : Nat) (err : Bool)
  | faultResolve (p : Nat) (c : Word) (a : Attr)
  | retryWalk (p : Nat) (idx : Nat) (group : List TabEntry) (err : Bool)
  | commit (p : Nat) (w : Word) (a : Attr)
  | revokingCommit (p : Nat) (w : Word) (a : Attr)
  | commitStart (p : Nat) (table : List TabEntry) (err : Bool)
  | commitSwitch (p : Nat)
  | commitDrained (p : Nat)
  | xlatDisable (p : Nat) (w : Word) (a : Attr)
  | padvPost (p : Nat) (w : Word) (a : Attr)
  | forecastLanded (p : Nat) (err : Bool)
  -- links
  | portEnable (p : Nat) (a : Attr)
  | portDisable (p : Nat) (a : Attr)
  | portDrained (p : Nat)
  | linkUp (p : Nat)
  | linkDown (p : Nat)
  | trainTimeout (p : Nat)
  | hello (p : Nat) (h0 : DWord)
  | flitReceive (p : Nat) (raw : SLine) (marked lone : Bool)
  | replayTimeout (p : Nat)
  | packetForward (p : Nat) (bad : BitVec 10)
  | wr (p : Nat) (bad : BitVec 10)
  | rd (p : Nat) (bad : BitVec 10)
  | wack (p : Nat) (bad : BitVec 10)
  | rdata (p : Nat) (bad : BitVec 10)
  | rdTimeout (n tag : Nat)
  | stop (p : Nat)
  | gup (p : Nat) (h0 h1 : DWord)
  | gdown (p : Nat) (h0 h1 : DWord)
  | gopEnable (i : Nat) (w : Word) (a : Attr)
  | gopArrive (i : Nat)
  | broadcastReadDone (i : Nat) (v : DWord) (err : Bool)
  | gopResetSettled (i : Nat)
  | gopTimeout (i : Nat)
  -- vault
  | create (obj : Nat) (a : Attr)
  | close (obj : Nat) (headers : List DWord) (a : Attr)
  | closeComplete
  | delete (obj : Nat) (a : Attr)
  | deleteDrained
  | format (geometryOk : Bool) (bad : List (Nat × Nat)) (a : Attr)
  | mount (geometryOk : Bool) (copy : Option MetaCopy)
  | codewordDecoded (n k : Nat) (cw : Nat) (ok : Bool) (data : List Line)
  | rallyStep (n k : Nat) (cw : Nat) (ok : Bool) (data : List Line)
  | vaultReadTimeout (n tag : Nat)
  | vaultWriteLine (n tag : Nat)
  | pageProgrammed (obj page : Nat)
  | vaultPadTimeout (obj : Nat)
  | programFail (obj page : Nat) (ch : Nat)
  | eraseFail (ch blk : Nat)
  | scrubRead (obj seg cw : Nat) (highRate uncorrectable : Bool)
  | refresh (obj seg : Nat)
  | wearLevel
  | logQueueCommand (op : BitVec 2) (area : Bool) (offset len sram : Nat) (data : List Byte) (fault : Bool)
  -- referee
  | sourceEvent (src : Nat) (ext : Option ExtEvent)
  | recordQueue
  | escalationWindowEnd (src : Nat)
  | fenceComplete (src : Nat) (us : Nat)
  | fenceTimeout (src : Nat)
  | haltReport (n : Option Nat)
  | safeTimeout
  | fcStatusClear (w : DWord) (a : Attr)
  | fcPop (w : Word) (a : Attr)
  | fcRecLatch (a : Attr)
  | driverDb (a : Attr)
  -- pages
  | softReset (page : BitVec 24) (a : Attr)
  | softResetBegin (n : Nat)
  | softResetDone (page : BitVec 24)
  | fenceSet (page : BitVec 24) (a : Attr)
  | fenceClear (page : BitVec 24) (a : Attr)
  | lock (page : BitVec 24) (a : Attr)
  | pageErrClear (page : BitVec 24) (w : Word) (a : Attr)
  | registerWrite (addr : BitVec 24) (w : Word) (a : Attr)
  | wideReadLatch (addr : BitVec 24) (a : Attr)
  | wideWriteShadow (addr : BitVec 24) (w : Word) (a : Attr)
  | hazInfoLatch (n : Nat) (a : Attr)
  | configAccessThaw (acc : Access)
  | registerCodeError (addr : BitVec 24) (corrected : Bool)
  -- power
  | stationWake (n : Nat) (a : Attr)
  | lullEntry (n : Nat)
  | offEntry (n : Nat)
  | transitionDone (n : Nat)
  | thaw (n : Nat)
  | thawDone (n : Nat)
  | hubPowerDown
  | hubPowerUp
  | opPointChange (g : Nat)
  | railGood (g : Nat)
  | railTimeout (g : Nat)
  | thermalSample (idx : Nat) (q : BitVec 12)
  | droopTrip (n : Nat)
  | clockMonitorTrip (clk : Nat)
  | aoRefclkLoss
  | capRaise (g : Nat)
  -- mailbox
  | ping
  | getInfo
  | powerRead
  | logRead (fault : Bool)
  | logMark
  | setBudget
  | updateBegin
  | updateData
  | updateCommit
  | resetMgmt
  | logFlush
  | getStats
  | timeSync
  | ready (reason : BitVec 3)
  | alert (seq : Nat)
  | recovery (reason : BitVec 2)
  | mailboxTake
  | m2hAck (a : Attr)
  | watchdogExpiry
  | mgmtRestart
  | mgmtMemoryError (uncorrectable : Bool)
  | logAppend (torvyo : Bool) (body : LogBody)
  | logCopy
  | budgetEvaluate
  -- counters
  | counterFreeze (a : Attr)
  | counterRelease (a : Attr)
  | windowBoundary (loc : CntLoc) (i : Nat)
  -- resets and start-up
  | powerOnReset (key : BitVec 384)
  | fullReset
  | aoReady
  | hubReady
  | vgoodFall (g : Nat)
  | vaultChannelFailed (ch : Nat)
  | blockErased (ch blk : Nat)
  | hubPowerUpDone
  | mgmtAccessFault
  | watchdogRestart
  | wrapperInstructionLoad (code : BitVec 8)
  deriving DecidableEq, Repr

end Sys2Proof
end

