-- ==== Sys2Proof/Config.lean ====
section
/-! DEFINITION. The values that the spec leaves open: constants with no body, so that nothing can be proved of the value
they give. Each is applied to operands and to a plain counter of the state. -/
namespace Sys2Proof

/-- A free number, one per draw, for values that no rule fixes (log 6). -/
opaque Config.freeNat : Nat → Nat

/-- A free choice among n, for a position of an operation's data: seed, position, n (R117, R145; logs 7 and 8). -/
opaque Config.freeChoice : Nat → Nat → Nat → Nat

/-- A free 32-bit word for a seed and a position (R378; log 9). -/
opaque Config.freeWord : Nat → Nat → BitVec 32

/-- Free medium contents, where a register write stands for a command whose row brings what the medium reads
(log 10). -/
opaque Config.freePairs : Nat → List (Nat × Nat)
opaque Config.freeWords : Nat → List (BitVec 64)

/-- The ROM's version (R378) and the idle power below which a budget is out of range (R379): the spec gives no value
(log 115). -/
opaque Config.romVersion : BitVec 32
opaque Config.idlePower : Nat

end Sys2Proof
end

