-- ==== Sys2Proof/Machine/Bits.lean ====
section
/-! DEFINITION. Bit fields, sign extension, byte order, saturating counts, and the operations of sparse tables. -/
namespace Sys2Proof.Machine

/-- Bits [msb:lsb] of a number (R8). -/
def bits (x msb lsb : Nat) : Nat := (x >>> lsb) % 2 ^ (msb + 1 - lsb)

/-- Bit i of a number. -/
def bit (x i : Nat) : Bool := x.testBit i

/-- 1 for true. -/
def b2n (b : Bool) : Nat := if b then 1 else 0

/-- The number whose bit i is set for each i in the list. -/
def maskOf (l : List Nat) : Nat := l.foldl (fun m i => m ||| 2 ^ i) 0

/-- The number with ones at [msb:lsb]. -/
def span (msb lsb : Nat) : Nat := (2 ^ (msb + 1 - lsb) - 1) <<< lsb

/-- The bits of `x` outside the mask `m` (below 2^64). -/
def clearBits (x m : Nat) : Nat := x ^^^ (x &&& m)

/-- Replace the bits of mask `m` in `x` by those of `y`. -/
def mergeBits (x y m : Nat) : Nat := clearBits x m ||| (y &&& m)

/-- The signed reading of a `w`-bit number. -/
def sgn (w x : Nat) : Int := if x < 2 ^ (w - 1) then (x : Int) else (x : Int) - (2 ^ w : Nat)

/-- An integer modulo 2^w. -/
def wrapInt (w : Nat) (x : Int) : Nat := (x % ((2 ^ w : Nat) : Int)).toNat

/-- The least multiple count: ⌈a / b⌉. -/
def ceilDiv (a b : Nat) : Nat := (a + b - 1) / b

/-- ⌈x⌉ to a multiple of m. -/
def roundUp (x m : Nat) : Nat := ceilDiv x m * m

/-- Addition that stops at `top`. -/
def satAdd (top x d : Nat) : Nat := min top (x + d)

/-- Number of set bits below bit w. -/
def popCount : Nat → Nat → Nat
  | 0, _ => 0
  | w + 1, x => x % 2 + popCount w (x / 2)

/-- Byte b of a line. -/
def byteAt (x b : Nat) : Nat := (x >>> (8 * b)) % 256

/-- The 64-bit word k of a block of bytes held little-endian (R75, R108). -/
def wordAt (x k : Nat) : Nat := (x >>> (64 * k)) % 2 ^ 64

/-- The indices of the set bits of a mask below w, ascending. -/
def setBits (w x : Nat) : List Nat := (List.range w).filter (fun i => x.testBit i)

/-! Sparse tables: keys strictly rising. -/

/-- The value at key k. -/
def tget {α : Type} : Tab α → Nat → Option α
  | [], _ => none
  | (i, v) :: t, k => if i = k then some v else tget t k

/-- The value at key k, or the default. -/
def tgetD {α : Type} (t : Tab α) (k : Nat) (d : α) : α := (tget t k).getD d

/-- Store v at key k. -/
def tput {α : Type} : Tab α → Nat → α → Tab α
  | [], k, v => [(k, v)]
  | (i, w) :: t, k, v =>
    if k < i then (k, v) :: (i, w) :: t
    else if k = i then (k, v) :: t
    else (i, w) :: tput t k v

/-- Remove key k. -/
def tdel {α : Type} : Tab α → Nat → Tab α
  | [], _ => []
  | (i, w) :: t, k => if i = k then t else (i, w) :: tdel t k

/-- Change the value at key k. -/
def tmod {α : Type} (t : Tab α) (k : Nat) (d : α) (f : α → α) : Tab α := tput t k (f (tgetD t k d))

/-- The first n keys from `from` that the table does not hold. -/
def tfree {α : Type} (t : Tab α) (lo n : Nat) : Option Nat :=
  ((List.range n).map (· + lo)).find? (fun i => (tget t i).isNone)

/-- Keys strictly rising from `lo` (the canonical form of a table). -/
def trising {α : Type} : Nat → Tab α → Bool
  | _, [] => true
  | lo, (i, _) :: t => lo ≤ i && trising (i + 1) t

end Sys2Proof.Machine
end

