-- ==== Sys2Proof/Machine/Regs.lean ====
section
/-! DEFINITION. The register map: every register of the spec's register tables, as masks of its fields by update class
(R9, R38), its reset word, and whether it is a half of a 64-bit pair (R34). One list per table of the spec. -/
namespace Sys2Proof.Machine

/-- A register: its offset in its block, the masks of its LIVE, STAGED and FROZEN writable fields and of its read-only
fields, its reset word, whether it is wholly read-only (R33), and its place in a 64-bit pair: 0 none, 1 low, 2 high. -/
structure RegRow where
  off    : Nat
  live   : Nat
  staged : Nat
  frozen : Nat
  ro     : Nat
  reset  : Nat
  roAll  : Bool
  pair   : Nat
  deriving DecidableEq, Repr

/-- R28. -/
def rows_hdr : List RegRow := [
  ⟨0x000, 0x0, 0x0, 0x0, 0xffffffff, 0x0, true, 0⟩,
  ⟨0x004, 0x0, 0x0, 0x0, 0xffffffff, 0x0, true, 0⟩,
  ⟨0x008, 0xf, 0x0, 0x0, 0x0, 0x0, false, 0⟩,
  ⟨0x00c, 0x0, 0x0, 0x0, 0xffff003f, 0x0, true, 0⟩,
  ⟨0x010, 0x103ff, 0x0, 0x0, 0x0, 0x0, false, 0⟩,
  ⟨0x014, 0x1ff, 0x0, 0x0, 0x0, 0x0, false, 0⟩,
  ⟨0x018, 0x0, 0x0, 0x0, 0xffffffff, 0x0, true, 0⟩,
  ⟨0x01c, 0x0, 0x0, 0x0, 0xffffffff, 0x0, true, 0⟩,
  ⟨0x020, 0x0, 0x0, 0x0, 0xffffff, 0x0, true, 0⟩]

/-- R42, R244. -/
def rows_hub : List RegRow := [
  ⟨0x040, 0x0, 0x0, 0x0, 0x1ffff, 0x0, true, 0⟩,
  ⟨0x080, 0x1f, 0x0, 0x0, 0x0, 0x0, false, 0⟩,
  ⟨0x084, 0xffff, 0x0, 0x0, 0x0, 0x64, false, 0⟩,
  ⟨0x088, 0xffffffff, 0x0, 0x0, 0x0, 0x0, false, 0⟩,
  ⟨0x08c, 0xffffffff, 0x0, 0x0, 0x0, 0x0, false, 0⟩,
  ⟨0x090, 0xffffff80, 0x0, 0x0, 0x0, 0x0, false, 1⟩,
  ⟨0x094, 0xffffffff, 0x0, 0x0, 0x0, 0x0, false, 2⟩,
  ⟨0x098, 0xffffff80, 0x0, 0x0, 0x0, 0x0, false, 1⟩,
  ⟨0x09c, 0xffffffff, 0x0, 0x0, 0x0, 0x0, false, 2⟩,
  ⟨0x0a0, 0xffffff80, 0x0, 0x0, 0x0, 0x0, false, 1⟩,
  ⟨0x0a4, 0xffffffff, 0x0, 0x0, 0x0, 0x0, false, 2⟩,
  ⟨0x0a8, 0xffffff80, 0x0, 0x0, 0x0, 0x0, false, 1⟩,
  ⟨0x0ac, 0xffffffff, 0x0, 0x0, 0x0, 0x0, false, 2⟩,
  ⟨0x0b0, 0xffffff80, 0x0, 0x0, 0x0, 0x0, false, 1⟩,
  ⟨0x0b4, 0xffffffff, 0x0, 0x0, 0x0, 0x0, false, 2⟩,
  ⟨0x0b8, 0xffffff80, 0x0, 0x0, 0x0, 0x0, false, 1⟩,
  ⟨0x0bc, 0xffffffff, 0x0, 0x0, 0x0, 0x0, false, 2⟩,
  ⟨0x0c0, 0xffffff80, 0x0, 0x0, 0x0, 0x0, false, 1⟩,
  ⟨0x0c4, 0xffffffff, 0x0, 0x0, 0x0, 0x0, false, 2⟩,
  ⟨0x0c8, 0xffffff80, 0x0, 0x0, 0x0, 0x0, false, 1⟩,
  ⟨0x0cc, 0xffffffff, 0x0, 0x0, 0x0, 0x0, false, 2⟩]

/-- R71. -/
def rows_dbell : List RegRow := [
  ⟨0x040, 0xffffffff, 0x0, 0x0, 0x0, 0x0, false, 0⟩,
  ⟨0x044, 0x0, 0x0, 0x0, 0xffffffff, 0x0, true, 0⟩,
  ⟨0x048, 0x0, 0x0, 0x0, 0xffffffff, 0x0, true, 0⟩,
  ⟨0x04c, 0x0, 0x0, 0x0, 0xff0f, 0x0, true, 0⟩,
  ⟨0x050, 0xf, 0x0, 0x0, 0x0, 0x0, false, 0⟩,
  ⟨0x054, 0x0, 0x0, 0x0, 0xffffffff, 0x0, true, 0⟩]

/-- R72. -/
def rows_chan : List RegRow := [
  ⟨0x040, 0xffff, 0x0, 0x0, 0x0, 0x1000, false, 0⟩,
  ⟨0x044, 0x0, 0x0, 0x0, 0x1ff, 0x0, true, 0⟩,
  ⟨0x048, 0xffffffff, 0x0, 0x0, 0x0, 0x0, false, 0⟩]

/-- R72. -/
def rows_chanC : List RegRow := [
  ⟨0x000, 0x3b, 0x0, 0xf04, 0x0, 0x0, false, 0⟩,
  ⟨0x004, 0x0, 0x0, 0x1ff01ff, 0x0, 0x80000, false, 0⟩,
  ⟨0x008, 0x7ff00ff, 0x0, 0x0, 0x0, 0x400000, false, 0⟩,
  ⟨0x00c, 0x0, 0x0, 0x1f, 0x0, 0x4, false, 0⟩,
  ⟨0x010, 0x0, 0x0, 0xffffffff, 0x0, 0x0, false, 1⟩,
  ⟨0x014, 0x0, 0x0, 0xffffffff, 0x0, 0x0, false, 2⟩,
  ⟨0x018, 0xf, 0x0, 0x0, 0x0, 0x0, false, 0⟩,
  ⟨0x01c, 0x0, 0x0, 0x0, 0x7ff, 0x0, true, 0⟩,
  ⟨0x020, 0x0, 0x0, 0x0, 0x1ffff0f, 0x0, true, 0⟩,
  ⟨0x024, 0x0, 0x0, 0x0, 0xffffffff, 0x0, true, 0⟩,
  ⟨0x028, 0x0, 0x0, 0x0, 0xffffffff, 0x0, true, 0⟩,
  ⟨0x02c, 0x0, 0x0, 0x0, 0xffffffff, 0x0, true, 0⟩,
  ⟨0x030, 0x0, 0x0, 0x0, 0xffffffff, 0x0, true, 0⟩]

/-- R73. -/
def rows_strdJ : List RegRow := [
  ⟨0x000, 0x0, 0x0, 0x0, 0xff07ff, 0x0, true, 0⟩,
  ⟨0x004, 0x0, 0x0, 0x0, 0xffffffff, 0x0, true, 0⟩,
  ⟨0x008, 0x0, 0x0, 0x0, 0xffffffff, 0x0, true, 1⟩,
  ⟨0x00c, 0x0, 0x0, 0x0, 0xffffffff, 0x0, true, 2⟩]

/-- R74. -/
def rows_stn : List RegRow := [
  ⟨0x040, 0x1, 0x0, 0x0, 0x0, 0x0, false, 0⟩,
  ⟨0x044, 0x0, 0x0, 0x0, 0x7ff3f07, 0x0, true, 0⟩,
  ⟨0x048, 0x0, 0x0, 0x0, 0xff, 0x0, true, 0⟩,
  ⟨0x04c, 0xffffffff, 0x0, 0x0, 0x0, 0x0, false, 0⟩,
  ⟨0x050, 0xffffffff, 0x0, 0x0, 0x0, 0x0, false, 0⟩,
  ⟨0x054, 0xffffffff, 0x0, 0x0, 0x0, 0x0, false, 0⟩]

/-- R167. -/
def rows_shp : List RegRow := [
  ⟨0x040, 0xffff, 0x0, 0x0, 0x0, 0x0, false, 0⟩,
  ⟨0x044, 0x0, 0x0, 0x0, 0x7f, 0x0, true, 0⟩,
  ⟨0x048, 0x1f3f, 0x0, 0x0, 0x0, 0x0, false, 0⟩,
  ⟨0x04c, 0x0, 0x0, 0xffffffff, 0x0, 0x0, false, 0⟩,
  ⟨0x050, 0xffffffff, 0x0, 0x0, 0x0, 0x0, false, 0⟩]

/-- R194. -/
def rows_codec : List RegRow := [
  ⟨0x040, 0x0, 0x0, 0x0, 0x3ff7ffff, 0x0, true, 0⟩,
  ⟨0x044, 0x0, 0x0, 0x0, 0x3ff7ffff, 0x0, true, 0⟩,
  ⟨0x048, 0x0, 0x0, 0x0, 0x3ff7ffff, 0x0, true, 0⟩,
  ⟨0x04c, 0x0, 0x0, 0x0, 0x3ff7ffff, 0x0, true, 0⟩,
  ⟨0x050, 0x0, 0x0, 0x0, 0xfff, 0x0, true, 0⟩,
  ⟨0x054, 0xffffffff, 0x0, 0x0, 0x0, 0x0, false, 0⟩]

/-- R215. -/
def rows_near : List RegRow := [
  ⟨0x040, 0x0, 0x0, 0x3fffffff, 0x0, 0x0, false, 0⟩,
  ⟨0x044, 0x0, 0x0, 0x0, 0xffffffff, 0x0, true, 0⟩,
  ⟨0x048, 0x0, 0x0, 0x0, 0xf0f, 0x0, true, 0⟩,
  ⟨0x04c, 0x0, 0x0, 0x3ff, 0x0, 0x40, false, 0⟩,
  ⟨0x050, 0xffff, 0x0, 0x0, 0x0, 0x0, false, 0⟩,
  ⟨0x054, 0x3, 0x0, 0x0, 0x0, 0x0, false, 0⟩,
  ⟨0x058, 0xffffffff, 0x0, 0x0, 0x0, 0x0, false, 0⟩,
  ⟨0x05c, 0xffffffff, 0x0, 0x0, 0x0, 0x0, false, 0⟩,
  ⟨0x060, 0xffffffff, 0x0, 0x0, 0x0, 0x0, false, 0⟩]

/-- R215. -/
def rows_nearRes : List RegRow := [
  ⟨0x000, 0x0, 0xffffff00, 0x0, 0x0, 0x0, false, 0⟩,
  ⟨0x004, 0x0, 0xffffff00, 0x0, 0x0, 0x0, false, 0⟩,
  ⟨0x008, 0x0, 0xffffffff, 0x0, 0x0, 0x0, false, 0⟩,
  ⟨0x00c, 0x0, 0x0, 0x0, 0x0, 0x0, false, 0⟩]

/-- R215. -/
def rows_nearSent : List RegRow := [
  ⟨0x000, 0x0, 0xffffff00, 0x0, 0x0, 0x0, false, 0⟩,
  ⟨0x004, 0x0, 0xffffff00, 0x0, 0x0, 0x0, false, 0⟩,
  ⟨0x008, 0x0, 0x7fff7fff, 0x0, 0x0, 0x0, false, 0⟩,
  ⟨0x00c, 0x0, 0x0, 0x0, 0x0, 0x0, false, 0⟩]

/-- R243. -/
def rows_ord : List RegRow := [
  ⟨0x040, 0xffff, 0x0, 0x0, 0x0, 0x3e8, false, 0⟩,
  ⟨0x044, 0x0, 0x0, 0x0, 0x1ff7f, 0x0, true, 0⟩,
  ⟨0x048, 0x0, 0x0, 0x0, 0xffffffff, 0x0, true, 0⟩,
  ⟨0x04c, 0xffffffff, 0x0, 0x0, 0x0, 0x0, false, 0⟩,
  ⟨0x050, 0xffffffff, 0x0, 0x0, 0x0, 0x0, false, 0⟩,
  ⟨0x054, 0xffffffff, 0x0, 0x0, 0x0, 0x0, false, 0⟩,
  ⟨0x058, 0x1ff, 0x0, 0x0, 0x0, 0x0, false, 0⟩,
  ⟨0x05c, 0x0, 0x0, 0x0, 0x1ffff, 0x0, true, 0⟩,
  ⟨0x060, 0x0, 0x0, 0x0, 0xffffffff, 0x0, true, 1⟩,
  ⟨0x064, 0x0, 0x0, 0x0, 0xffffffff, 0x0, true, 2⟩,
  ⟨0x068, 0x0, 0x0, 0x0, 0xffffffff, 0x0, true, 1⟩,
  ⟨0x06c, 0x0, 0x0, 0x0, 0xffffffff, 0x0, true, 2⟩]

/-- R257. -/
def rows_tal : List RegRow := [
  ⟨0x040, 0x1, 0x0, 0x0, 0x0, 0x0, false, 0⟩,
  ⟨0x044, 0xffffffff, 0x0, 0x0, 0x0, 0x0, false, 0⟩,
  ⟨0x048, 0xffffffff, 0x0, 0x0, 0x0, 0x0, false, 0⟩,
  ⟨0x04c, 0xff, 0x0, 0x0, 0x0, 0x0, false, 0⟩,
  ⟨0x050, 0x0, 0x0, 0x0, 0x3ffff, 0x0, true, 0⟩,
  ⟨0x054, 0x0, 0x0, 0x0, 0x0, 0x0, true, 0⟩,
  ⟨0x058, 0x0, 0x0, 0x0, 0xffffffff, 0x0, true, 1⟩,
  ⟨0x05c, 0x0, 0x0, 0x0, 0xffff, 0x0, true, 2⟩]

/-- R257. -/
def rows_talAdd : List RegRow := [
  ⟨0x000, 0xffffffff, 0x0, 0x0, 0x0, 0x0, false, 0⟩]

/-- R257. -/
def rows_talVal : List RegRow := [
  ⟨0x000, 0x0, 0x0, 0xffffffff, 0x0, 0x0, false, 1⟩,
  ⟨0x004, 0x0, 0x0, 0xffff, 0x0, 0x0, false, 2⟩]

/-- R279. -/
def rows_xlat : List RegRow := [
  ⟨0x040, 0x0, 0x0, 0x0, 0x1ff1f, 0x0, true, 0⟩,
  ⟨0x044, 0x1f, 0x0, 0x0, 0x0, 0x10, false, 0⟩,
  ⟨0x048, 0xffffffff, 0x0, 0x0, 0x0, 0x0, false, 0⟩,
  ⟨0x04c, 0xffffffff, 0x0, 0x0, 0x0, 0x0, false, 0⟩]

/-- R279. -/
def rows_xlatP : List RegRow := [
  ⟨0x000, 0x7, 0x0, 0x0, 0x0, 0x0, false, 0⟩,
  ⟨0x004, 0x0, 0x0, 0x0, 0xffff0f1f, 0x0, true, 0⟩,
  ⟨0x008, 0x0, 0xffffffff, 0x0, 0x0, 0x0, false, 1⟩,
  ⟨0x00c, 0x0, 0xffffffff, 0x0, 0x0, 0x0, false, 2⟩,
  ⟨0x010, 0x0, 0x1ffff, 0x0, 0x0, 0x0, false, 0⟩,
  ⟨0x014, 0xffff07ff, 0x0, 0x0, 0x0, 0x400040, false, 0⟩,
  ⟨0x018, 0x0, 0x0, 0xffffffff, 0x0, 0x0, false, 1⟩,
  ⟨0x01c, 0x0, 0x0, 0xffffffff, 0x0, 0x0, false, 2⟩,
  ⟨0x020, 0x0, 0x0, 0x0, 0xffffffff, 0x0, true, 0⟩,
  ⟨0x024, 0xffffffff, 0x0, 0x0, 0x0, 0x0, false, 0⟩,
  ⟨0x028, 0x0, 0x0, 0x0, 0xffffffff, 0x0, true, 0⟩,
  ⟨0x02c, 0x0, 0x0, 0xffffffff, 0x0, 0x0, false, 1⟩,
  ⟨0x030, 0x0, 0x0, 0xffffffff, 0x0, 0x0, false, 2⟩,
  ⟨0x034, 0x0, 0x0, 0xf, 0x0, 0x6, false, 0⟩,
  ⟨0x038, 0x0, 0x0, 0x0, 0xffffffff, 0x0, true, 0⟩,
  ⟨0x03c, 0xffffffff, 0x0, 0x0, 0x0, 0x0, false, 0⟩,
  ⟨0x040, 0xffffffff, 0x0, 0x0, 0x0, 0x0, false, 0⟩,
  ⟨0x044, 0xf, 0x0, 0x0, 0x0, 0x0, false, 0⟩,
  ⟨0x048, 0xf, 0x0, 0x0, 0x0, 0x0, false, 0⟩,
  ⟨0x04c, 0xffffffff, 0x0, 0x0, 0x0, 0x0, false, 0⟩]

/-- R280. -/
def rows_part : List RegRow := [
  ⟨0x040, 0xffffffff, 0x0, 0x0, 0x0, 0x0, false, 1⟩,
  ⟨0x044, 0xffffffff, 0x0, 0x0, 0x0, 0x0, false, 2⟩,
  ⟨0x048, 0xffffffff, 0x0, 0x0, 0x0, 0x0, false, 0⟩,
  ⟨0x04c, 0x7, 0x0, 0x0, 0x0, 0x0, false, 0⟩,
  ⟨0x050, 0x0, 0x0, 0x0, 0x7ffff, 0x0, true, 0⟩,
  ⟨0x054, 0x0, 0x0, 0x0, 0xffffffff, 0x0, true, 0⟩,
  ⟨0x058, 0x0, 0x0, 0x0, 0xffffffff, 0x0, true, 0⟩]

/-- R316. -/
def rows_link : List RegRow := [
  ⟨0x040, 0x0, 0x0, 0xfffff, 0x0, 0x0, false, 0⟩,
  ⟨0x044, 0xffff0007, 0x0, 0x0, 0x0, 0x4000004, false, 0⟩,
  ⟨0x048, 0xffffffff, 0x0, 0x0, 0x0, 0x271003e8, false, 0⟩,
  ⟨0x04c, 0x0, 0x0, 0x3ff, 0x0, 0x0, false, 0⟩,
  ⟨0x050, 0xffffffff, 0x0, 0x0, 0x0, 0x0, false, 0⟩,
  ⟨0x054, 0x0, 0x0, 0x0, 0x7, 0x0, true, 0⟩,
  ⟨0x058, 0xffffffff, 0x0, 0x0, 0x0, 0x0, false, 0⟩]

/-- R316. -/
def rows_gop : List RegRow := [
  ⟨0x000, 0x1, 0x0, 0xe, 0x0, 0x0, false, 0⟩,
  ⟨0x004, 0x0, 0x0, 0xffff7fff, 0x0, 0x0, false, 0⟩,
  ⟨0x008, 0x0, 0x0, 0xffffffff, 0x0, 0x0, false, 1⟩,
  ⟨0x00c, 0x0, 0x0, 0xffff, 0x0, 0x0, false, 2⟩,
  ⟨0x010, 0x0, 0x0, 0x7fff, 0x0, 0x0, false, 0⟩,
  ⟨0x014, 0x0, 0x0, 0x0, 0x7, 0x0, true, 0⟩,
  ⟨0x018, 0x0, 0x0, 0x0, 0xffffffff, 0x0, true, 0⟩,
  ⟨0x020, 0x0, 0x0, 0xffffffff, 0x0, 0x0, false, 1⟩,
  ⟨0x024, 0x0, 0x0, 0xffffffff, 0x0, 0x0, false, 2⟩,
  ⟨0x028, 0x0, 0x0, 0x0, 0xffffffff, 0x0, true, 1⟩,
  ⟨0x02c, 0x0, 0x0, 0x0, 0xffffffff, 0x0, true, 2⟩]

/-- R317. -/
def rows_lport : List RegRow := [
  ⟨0x040, 0x0, 0x0, 0x0, 0x7fff, 0x0, true, 0⟩,
  ⟨0x044, 0xf0fff, 0x0, 0x0, 0x0, 0x80600, false, 0⟩,
  ⟨0x048, 0xffffffff, 0x0, 0x0, 0x0, 0x0, false, 0⟩,
  ⟨0x04c, 0xffffffff, 0x0, 0x0, 0x0, 0x0, false, 0⟩,
  ⟨0x050, 0xf, 0x0, 0x0, 0x0, 0x0, false, 0⟩,
  ⟨0x054, 0xf, 0x0, 0x0, 0x0, 0x0, false, 0⟩,
  ⟨0x058, 0x0, 0x0, 0x0, 0x7ff, 0x0, true, 0⟩,
  ⟨0x05c, 0xffffffff, 0x0, 0x0, 0x0, 0x0, false, 0⟩]

/-- R318. -/
def rows_lowinW : List RegRow := [
  ⟨0x000, 0x0, 0x3ffff07, 0x0, 0x0, 0x0, false, 0⟩,
  ⟨0x004, 0x0, 0xffff, 0x0, 0x0, 0x0, false, 0⟩,
  ⟨0x008, 0x0, 0xffffffff, 0x0, 0x0, 0x0, false, 1⟩,
  ⟨0x00c, 0x0, 0xffffffff, 0x0, 0x0, 0x0, false, 2⟩,
  ⟨0x010, 0x0, 0xffffffff, 0x0, 0x0, 0x0, false, 1⟩,
  ⟨0x014, 0x0, 0xffffffff, 0x0, 0x0, 0x0, false, 2⟩]

/-- R319. -/
def rows_liwinW : List RegRow := [
  ⟨0x000, 0x3ff3f7f, 0x0, 0x0, 0x0, 0x0, false, 0⟩,
  ⟨0x004, 0x7fff, 0x0, 0x0, 0x0, 0x0, false, 0⟩,
  ⟨0x008, 0xffffffff, 0x0, 0x0, 0x0, 0x0, false, 1⟩,
  ⟨0x00c, 0xffffffff, 0x0, 0x0, 0x0, 0x0, false, 2⟩,
  ⟨0x010, 0xffffffff, 0x0, 0x0, 0x0, 0x0, false, 1⟩,
  ⟨0x014, 0xffffffff, 0x0, 0x0, 0x0, 0x0, false, 2⟩,
  ⟨0x018, 0xffffffff, 0x0, 0x0, 0x0, 0x0, false, 0⟩]

/-- R344. -/
def rows_vault : List RegRow := [
  ⟨0x040, 0x0, 0x0, 0x0, 0x1fff, 0x0, true, 0⟩,
  ⟨0x044, 0x0, 0x0, 0x0, 0xffffffff, 0x0, true, 0⟩,
  ⟨0x048, 0xfff07, 0x0, 0x0, 0xf8, 0x0, false, 0⟩,
  ⟨0x04c, 0xffffffff, 0x0, 0x0, 0x0, 0x0, false, 1⟩,
  ⟨0x050, 0xffffffff, 0x0, 0x0, 0x0, 0x0, false, 2⟩,
  ⟨0x054, 0x1ffff, 0x0, 0x0, 0x0, 0x0, false, 0⟩,
  ⟨0x058, 0xffffffff, 0x0, 0x0, 0x0, 0x0, false, 0⟩,
  ⟨0x05c, 0xfff, 0x0, 0x0, 0x0, 0x0, false, 0⟩,
  ⟨0x060, 0x0, 0x0, 0x0, 0xffff000f, 0x0, true, 0⟩,
  ⟨0x064, 0x0, 0x0, 0x0, 0xffffffff, 0x0, true, 0⟩,
  ⟨0x068, 0x0, 0x0, 0x0, 0xffffffff, 0x0, true, 1⟩,
  ⟨0x06c, 0x0, 0x0, 0x0, 0xffffffff, 0x0, true, 2⟩,
  ⟨0x070, 0xffffff77, 0x0, 0x0, 0x0, 0x2001047, false, 0⟩,
  ⟨0x074, 0xffffffff, 0x0, 0x0, 0x0, 0x4e200064, false, 0⟩,
  ⟨0x078, 0xffffffff, 0x0, 0x0, 0x0, 0x186a0, false, 0⟩,
  ⟨0x07c, 0xffffffff, 0x0, 0x0, 0x0, 0xc8b407, false, 0⟩,
  ⟨0x080, 0x7, 0x0, 0x0, 0x0, 0x0, false, 0⟩,
  ⟨0x084, 0x7, 0x0, 0x0, 0x0, 0x0, false, 0⟩,
  ⟨0x088, 0x0, 0x0, 0x0, 0x7ff, 0x0, true, 0⟩,
  ⟨0x08c, 0xffffffff, 0x0, 0x0, 0x0, 0x0, false, 0⟩,
  ⟨0x090, 0xffffffff, 0x0, 0x0, 0x0, 0x0, false, 0⟩,
  ⟨0x094, 0xffffffff, 0x0, 0x0, 0x0, 0x0, false, 0⟩,
  ⟨0x098, 0xffffffff, 0x0, 0x0, 0x0, 0x0, false, 0⟩,
  ⟨0x09c, 0x0, 0x0, 0x0, 0xffffffff, 0x0, true, 0⟩,
  ⟨0x0a0, 0x0, 0x0, 0x0, 0xffffffff, 0x0, true, 1⟩,
  ⟨0x0a4, 0x0, 0x0, 0x0, 0xffffffff, 0x0, true, 2⟩]

/-- R345. -/
def rows_vch : List RegRow := [
  ⟨0x040, 0x0, 0x0, 0x0, 0xfff, 0x0, true, 0⟩]

/-- R345. -/
def rows_vchC : List RegRow := [
  ⟨0x000, 0x0, 0x0, 0x0, 0x3, 0x0, true, 0⟩,
  ⟨0x004, 0x0, 0x0, 0x0, 0xffffffff, 0x0, true, 0⟩,
  ⟨0x008, 0xffffffff, 0x0, 0x0, 0x0, 0x0, false, 0⟩,
  ⟨0x00c, 0xffffffff, 0x0, 0x0, 0x0, 0x0, false, 0⟩,
  ⟨0x010, 0x0, 0x0, 0x0, 0xfff, 0x0, true, 0⟩,
  ⟨0x014, 0x0, 0x0, 0x0, 0xfff, 0x0, true, 0⟩]

/-- R365. -/
def rows_fc : List RegRow := [
  ⟨0x040, 0xffffffff, 0x0, 0x0, 0x0, 0x0, false, 1⟩,
  ⟨0x044, 0xfffffff, 0x0, 0x0, 0x0, 0x0, false, 2⟩,
  ⟨0x048, 0x1, 0x0, 0x0, 0x0, 0x0, false, 0⟩,
  ⟨0x04c, 0x0, 0x0, 0x0, 0x7ffff, 0x0, true, 0⟩,
  ⟨0x050, 0x0, 0x0, 0x0, 0x3ff, 0x0, true, 0⟩,
  ⟨0x054, 0xffff, 0x0, 0x0, 0x0, 0x64, false, 0⟩,
  ⟨0x058, 0x1f, 0x0, 0x0, 0x0, 0x0, false, 0⟩,
  ⟨0x05c, 0x1f, 0x0, 0x0, 0x0, 0x0, false, 0⟩,
  ⟨0x060, 0x0, 0x0, 0x0, 0x7ff, 0x0, true, 0⟩,
  ⟨0x064, 0xffffffff, 0x0, 0x0, 0x0, 0x0, false, 0⟩,
  ⟨0x068, 0x0, 0x0, 0x0, 0xffffffff, 0x0, true, 0⟩,
  ⟨0x080, 0x0, 0x0, 0x0, 0xffffffff, 0x0, true, 0⟩,
  ⟨0x084, 0x0, 0x0, 0x0, 0xffffffff, 0x0, true, 0⟩,
  ⟨0x088, 0x0, 0x0, 0x0, 0xffffffff, 0x0, true, 0⟩,
  ⟨0x08c, 0x0, 0x0, 0x0, 0xffffffff, 0x0, true, 0⟩,
  ⟨0x090, 0x0, 0x0, 0x0, 0xffffffff, 0x0, true, 0⟩,
  ⟨0x094, 0x0, 0x0, 0x0, 0xffffffff, 0x0, true, 0⟩,
  ⟨0x098, 0x0, 0x0, 0x0, 0xffffffff, 0x0, true, 0⟩,
  ⟨0x09c, 0x0, 0x0, 0x0, 0xffffffff, 0x0, true, 0⟩,
  ⟨0x0a0, 0xffffffff, 0x0, 0x0, 0x0, 0x0, false, 0⟩]

/-- R366. -/
def rows_fcSrc : List RegRow := [
  ⟨0x000, 0xffff03ff, 0x0, 0x0, 0x0, 0x3e80010, false, 0⟩,
  ⟨0x004, 0x0, 0x0, 0x0, 0xfff, 0x0, true, 0⟩,
  ⟨0x008, 0xffffffff, 0x0, 0x0, 0x0, 0x0, false, 0⟩,
  ⟨0x00c, 0xffffffff, 0x0, 0x0, 0x0, 0x0, false, 0⟩]

/-- R390. -/
def rows_pwr : List RegRow := [
  ⟨0x040, 0xffff0fff, 0x0, 0x0, 0x0, 0x640032, false, 0⟩,
  ⟨0x044, 0xffffffff, 0x0, 0x0, 0x0, 0x6403e8, false, 0⟩,
  ⟨0x048, 0x203, 0x0, 0x0, 0x1fc, 0x3, false, 0⟩,
  ⟨0x04c, 0x203, 0x0, 0x0, 0x1fc, 0x3, false, 0⟩,
  ⟨0x050, 0x203, 0x0, 0x0, 0x1fc, 0x3, false, 0⟩,
  ⟨0x054, 0x203, 0x0, 0x0, 0x1fc, 0x3, false, 0⟩,
  ⟨0x058, 0x203, 0x0, 0x0, 0x1fc, 0x3, false, 0⟩,
  ⟨0x05c, 0x203, 0x0, 0x0, 0x1fc, 0x3, false, 0⟩,
  ⟨0x060, 0xffffffff, 0x0, 0x0, 0x0, 0x0, false, 1⟩,
  ⟨0x064, 0xffff, 0x0, 0x0, 0x0, 0x0, false, 2⟩,
  ⟨0x068, 0xffffffff, 0x0, 0x0, 0x0, 0x0, false, 1⟩,
  ⟨0x06c, 0xffff, 0x0, 0x0, 0x0, 0x0, false, 2⟩,
  ⟨0x070, 0xffffffff, 0x0, 0x0, 0x0, 0x3e82869, false, 0⟩,
  ⟨0x074, 0x3f, 0x0, 0x0, 0x0, 0x0, false, 0⟩,
  ⟨0x078, 0x0, 0x0, 0x0, 0xfff, 0x0, true, 0⟩,
  ⟨0x07c, 0xffffffff, 0x0, 0x0, 0x0, 0x0, false, 0⟩,
  ⟨0x080, 0xffffffff, 0x0, 0x0, 0x0, 0x0, false, 0⟩,
  ⟨0x084, 0x3, 0x0, 0x0, 0x0, 0x0, false, 0⟩,
  ⟨0x088, 0x3, 0x0, 0x0, 0x0, 0x0, false, 0⟩,
  ⟨0x08c, 0x0, 0x0, 0x0, 0x7ff, 0x0, true, 0⟩,
  ⟨0x090, 0x0, 0x0, 0x0, 0xf, 0x0, true, 0⟩,
  ⟨0x094, 0xffffffff, 0x0, 0x0, 0x0, 0x0, false, 0⟩,
  ⟨0x098, 0xffffffff, 0x0, 0x0, 0x0, 0x0, false, 0⟩]

/-- R391. -/
def rows_mbox : List RegRow := [
  ⟨0x040, 0x0, 0x0, 0xffffffff, 0x0, 0x0, false, 0⟩,
  ⟨0x044, 0x0, 0x0, 0xffffffff, 0x0, 0x0, false, 0⟩,
  ⟨0x048, 0x0, 0x0, 0xffffffff, 0x0, 0x0, false, 0⟩,
  ⟨0x04c, 0x0, 0x0, 0xffffffff, 0x0, 0x0, false, 0⟩,
  ⟨0x050, 0x0, 0x0, 0xffffffff, 0x0, 0x0, false, 0⟩,
  ⟨0x054, 0x0, 0x0, 0xffffffff, 0x0, 0x0, false, 0⟩,
  ⟨0x058, 0x0, 0x0, 0xffffffff, 0x0, 0x0, false, 0⟩,
  ⟨0x05c, 0x0, 0x0, 0xffffffff, 0x0, 0x0, false, 0⟩,
  ⟨0x060, 0x0, 0x0, 0xffffffff, 0x0, 0x0, false, 0⟩,
  ⟨0x064, 0x0, 0x0, 0xffffffff, 0x0, 0x0, false, 0⟩,
  ⟨0x068, 0x0, 0x0, 0xffffffff, 0x0, 0x0, false, 0⟩,
  ⟨0x06c, 0x0, 0x0, 0xffffffff, 0x0, 0x0, false, 0⟩,
  ⟨0x070, 0x0, 0x0, 0xfffff, 0x0, 0x0, false, 0⟩,
  ⟨0x074, 0x0, 0x0, 0x0, 0x1f, 0x0, true, 0⟩,
  ⟨0x080, 0x0, 0x0, 0x0, 0xffffffff, 0x0, true, 0⟩,
  ⟨0x084, 0x0, 0x0, 0x0, 0xffffffff, 0x0, true, 0⟩,
  ⟨0x088, 0x0, 0x0, 0x0, 0xffffffff, 0x0, true, 0⟩,
  ⟨0x08c, 0x0, 0x0, 0x0, 0xffffffff, 0x0, true, 0⟩,
  ⟨0x090, 0x0, 0x0, 0x0, 0xffffffff, 0x0, true, 0⟩,
  ⟨0x094, 0x0, 0x0, 0x0, 0xffffffff, 0x0, true, 0⟩,
  ⟨0x098, 0x0, 0x0, 0x0, 0xffffffff, 0x0, true, 0⟩,
  ⟨0x09c, 0x0, 0x0, 0x0, 0xffffffff, 0x0, true, 0⟩,
  ⟨0x0a0, 0x0, 0x0, 0x0, 0xffffffff, 0x0, true, 0⟩,
  ⟨0x0a4, 0x0, 0x0, 0x0, 0xffffffff, 0x0, true, 0⟩,
  ⟨0x0a8, 0x0, 0x0, 0x0, 0xffffffff, 0x0, true, 0⟩,
  ⟨0x0ac, 0x0, 0x0, 0x0, 0xffffffff, 0x0, true, 0⟩,
  ⟨0x0b0, 0x0, 0x0, 0x0, 0xfffffff, 0x0, true, 0⟩,
  ⟨0x0b4, 0xffffffff, 0x0, 0x0, 0x0, 0x0, false, 0⟩,
  ⟨0x0b8, 0x7, 0x0, 0x0, 0x0, 0x0, false, 0⟩,
  ⟨0x0bc, 0x7, 0x0, 0x0, 0x0, 0x0, false, 0⟩,
  ⟨0x0c0, 0x0, 0x0, 0x0, 0x7ff, 0x0, true, 0⟩,
  ⟨0x0c4, 0xffffffff, 0x0, 0x0, 0x0, 0x0, false, 0⟩,
  ⟨0x0c8, 0x0, 0x0, 0x0, 0x3ffff, 0x0, true, 0⟩]

/-- R392. -/
def rows_cnt : List RegRow := [
  ⟨0x000, 0xffff, 0x0, 0x0, 0xffff0000, 0x0, false, 0⟩,
  ⟨0x004, 0x0, 0xfffff, 0x0, 0x0, 0x3e8, false, 0⟩,
  ⟨0x008, 0xffffffff, 0x0, 0x0, 0x0, 0x0, false, 1⟩,
  ⟨0x00c, 0xffff, 0x0, 0x0, 0x0, 0x0, false, 2⟩]

/-- R401. -/
def rows_hcnt : List RegRow := [
  ⟨0x040, 0x3, 0x0, 0x0, 0x0, 0x0, false, 0⟩,
  ⟨0x044, 0xffff, 0x0, 0x0, 0x0, 0x0, false, 0⟩,
  ⟨0x048, 0x0, 0x0, 0x0, 0xffffffff, 0x0, true, 1⟩,
  ⟨0x04c, 0x0, 0x0, 0x0, 0xffffffff, 0x0, true, 2⟩]

/-- R402. -/
def rows_scnt : List RegRow := [
  ⟨0x040, 0x0, 0x0, 0x0, 0x1, 0x0, true, 0⟩]

/-- R40. -/
def rows_cfg : List RegRow := [
  ⟨0x040, 0xffffffff, 0x0, 0x0, 0x0, 0x0, false, 0⟩]

/-- The row of a register table at an offset. -/
def rowAt (l : List RegRow) (off : Nat) : Option RegRow := l.find? (fun r => r.off == off)

end Sys2Proof.Machine
end

