-- ==== Sys2Proof/Machine/State.lean ====
section
/-! DEFINITION. The machine's state as plain data: the integration parameters, the queue of waiting commands, and the block
with everything the spec gives it. Registers of the register tables stand in `Block.regs` under their window address; what
the hardware itself moves stands in the typed fields. -/
namespace Sys2Proof.Machine

/-- Integration parameters, fixed when the netlist is generated (R4, R436). -/
structure Params where
  /-- N, the number of stations (R3) -/
  stations  : Nat
  /-- link ports, 0 to 4 (R26) -/
  linkPorts : Nat
  /-- vault channels, 0 to 128 (R26) -/
  vaultCh   : Nat
  /-- transfer rate in MT/s (R345, R436) -/
  vcRate    : Nat
  /-- L, the LUNs of a vault channel (R320) -/
  luns      : Nat
  /-- scratch tile bytes of each station (R215, R436) -/
  tileSize  : List Nat
  /-- near-port read latency in aclk of each station (R215) -/
  rdLat     : List Nat
  /-- near-port write acknowledgement latency in aclk of each station (R215) -/
  wrAckLat  : List Nat
  /-- whether the far side carries check bytes (R426) -/
  fpCheckEn : Bool
  deriving DecidableEq, Repr

/-- Ordering scopes, innermost first (R217). -/
inductive Scope
  | station
  | chip
  | system
  deriving DecidableEq, Repr

/-- Responses of the configuration port (R32). -/
inductive Resp
  | ok
  | errSlv
  | errDec
  deriving DecidableEq, Repr

/-- The four address spaces of operands (R109). -/
inductive Space
  | mem
  | scratch
  | window
  | vault
  deriving DecidableEq, Repr

/-- The configuration port (R34, R36, R422). -/
structure CfgPort where
  /-- response of the last access completed (R32) -/
  resp    : Resp
  /-- read data of the last access completed (R32) -/
  rdata   : Word
  /-- the responses that the last command which let held accesses go on returned to them, oldest first (R32, R36) -/
  rsps    : List (Resp × Word)
  /-- accesses received and not yet answered, oldest first: the front one waits for a thaw, a reset or power (R36) -/
  held    : List Access
  /-- write shadows, by window address of the low word (R34) -/
  wshadow : Tab Word
  /-- read shadows, by window address of the low word (R34) -/
  rshadow : Tab Word
  deriving DecidableEq, Repr

/-- A translation held with an entry or a strand: a whole MAPPED range (R50, R263). -/
structure Xl where
  vstart : Nat
  len    : Nat
  pbase  : Nat
  stale  : Bool
  deriving DecidableEq, Repr

/-- A ring entry after its format check (R49). -/
structure Entry where
  idx   : Word
  va    : Nat
  len   : Nat
  cmode : Bool
  irq   : Bool
  tsig  : Bool
  scope : Nat
  tally : Nat
  tadd  : Nat
  arg   : DWord
  xl    : List Xl
  deriving DecidableEq, Repr

/-- Channel states (R71). -/
inductive ChState
  | disabled
  | idle
  | running
  | xlatWait
  | draining
  | stopped
  deriving DecidableEq, Repr

/-- An entry in its completion actions (R60): the code and strand its STATUS word carries, and how far it is. -/
structure Compl where
  idx     : Word
  code    : Nat
  strand  : Nat
  landed  : Bool
  irq     : Bool
  tsig    : Bool
  scope   : Nat
  tally   : Nat
  tadd    : Nat
  /-- the settled scope of its completion signal (R231) -/
  settled : Scope
  /-- step 1 has finished: the status write landed or failed -/
  written : Bool
  deriving DecidableEq, Repr

/-- A ring entry read and not yet accepted: its index and four words. -/
structure RawEntry where
  idx : Word
  w0  : DWord
  w1  : DWord
  w2  : DWord
  w3  : DWord
  deriving DecidableEq, Repr

/-- A channel's hardware state (R45, R71, R72). Its configuration stands in `Block.regs`. -/
structure Chan where
  /-- tail, head, done: the three free-running indices (R45) -/
  tail     : Word
  head     : Word
  done     : Word
  /-- state (R71) -/
  st       : ChState
  /-- last stopping code (R62) -/
  err      : Nat
  /-- index of the failed entry (R65) -/
  errSeq   : Word
  /-- entry reads in flight, by index (R50) -/
  reading  : List Word
  /-- entries read and waiting for acceptance, by rising index (R50) -/
  got      : List RawEntry
  /-- the entry in acceptance, whose program range is being translated, and whether its range was found offside (R50, R51) -/
  accepting : Option Entry
  accOff    : Bool
  /-- accepted entries not dispatched, oldest first (R52) -/
  accepted : List Entry
  /-- entries in their completion actions (R60) -/
  compl    : List Compl
  /-- entries that a disable cancels and that are still to be read: from, up to (R69) -/
  cancelFrom : Word
  cancelTo   : Word
  /-- read and write token buckets, in 1/512 token (R57) -/
  tokR     : Nat
  tokW     : Nat
  deriving DecidableEq, Repr

/-- An open loop (R89). -/
structure Loop where
  i     : Nat
  count : Nat
  /-- address of the first body unit -/
  body  : Nat
  /-- address of the matching ENDL -/
  endl  : Nat
  deriving DecidableEq, Repr

/-- Shaper statistics accumulators of a strand (R158). -/
structure Stats where
  elems   : Nat
  clipped : Nat
  nans    : Nat
  infs    : Nat
  zeroed  : Nat
  amax    : Nat
  moves   : Nat
  empty   : Nat
  faults  : Nat
  sat     : Bool
  deriving DecidableEq, Repr

/-- A pending signal (R99, R100). `upTo` is the number of operations the strand had retired. -/
structure Sig where
  tally  : Nat
  cond   : Nat
  scope  : Nat
  amount : Nat
  upTo   : Nat
  /-- operation that HALF and FULL look at; none when no data operation came before -/
  lastOp : Option Nat
  deriving DecidableEq, Repr

/-- What blocks a strand after a retirement (R80). -/
inductive Blocked
  | no
  | setx                    -- SETX from memory waits for its word
  | wait                    -- WAIT
  | fence (kind upTo : Nat) -- FENCE of a kind, over the operations retired before it
  | tload                   -- TLOAD
  | stat                    -- STAT
  deriving DecidableEq, Repr

/-- Strand states (R73); FETCH, WAIT and XLAT are phases of `run`, shown on a read. -/
inductive StrandSt
  | idle
  | run
  | drain
  | stopped
  deriving DecidableEq, Repr

/-- An acquire whose threshold is met (R233): its effective scope and its snapshot, the releases it waits for. -/
structure Acq where
  tally : Nat
  scope : Scope
  waits : List Nat
  deriving DecidableEq, Repr

/-- A wait of a strand: for a WAIT, a source guard or a destination guard (R97, R206). -/
inductive WaitSt
  | none
  | armed (tally thr : Nat) (scope : Nat)
  | acquiring (a : Acq)
  | done
  deriving DecidableEq, Repr

/-- Kinds of operation that a strand has in progress. -/
inductive OpKind
  | move
  | fill
  | copy
  | setx
  | tload
  | stat
  deriving DecidableEq, Repr

/-- How far an operation's start stage is (R85, R207). -/
inductive Phase
  | list       -- MOVEB list mode: waits for the list line's hazard entry, then its element (R93)
  | desc       -- waits for its descriptor
  | haz        -- hazard entries requested
  | conflict   -- entries granted; waits on a conflict (R222)
  | guard      -- guard waits (R207)
  | bind       -- ready to bind codec slots (R178)
  | res        -- shaper and codec contexts requested (R161)
  | issue      -- issues bursts
  | issued     -- every burst issued
  deriving DecidableEq, Repr

/-- An operand footprint: space, direction, first and last byte, and which operand it is. -/
structure Foot where
  opd   : Nat
  space : Space
  write : Bool
  lo    : Nat
  hi    : Nat
  deriving DecidableEq, Repr

/-- A tile dimension: source and destination stride, plan extent, lead pad, valid extent (R108, R113). -/
structure Dim where
  ss  : Int
  ds  : Int
  ext : Nat
  pad : Nat
  val : Nat
  deriving DecidableEq, Repr

/-- A codec slot bound to an operation (R178): whether it was VALID, its generation and its table at the binding. -/
structure Bound where
  slot  : Nat
  valid : Bool
  gen   : Nat
  table : List (Nat × Nat)
  esc   : Option Nat
  deriving DecidableEq, Repr

/-- A block encoded (R190): its place address, payload bytes with their poison, header word and its poison. -/
structure EncBlk where
  place   : Nat
  payload : List (Byte × Bool)
  header  : Nat
  hpois   : Bool
  deriving DecidableEq, Repr

/-- A content fault of the codec (R187, R188): kind, block address, detail and whether it came late. -/
structure CFault where
  kind   : Nat
  place  : Nat
  detail : Nat
  line   : Nat
  deriving DecidableEq, Repr

/-- A data MOVE after its descriptor has been checked: the descriptor and side block as numbers, bases after the offsets,
dimensions with their valid extents, and what it captured (R108 to R121, R140, R182). -/
structure Mv where
  d     : Nat
  side  : Nat
  sb    : Nat
  db    : Nat
  dims  : List Dim
  /-- edge index (R114) -/
  k     : Nat
  /-- captured history maximum, FP32 bits, when DELAYED and the count is not 0 (R153) -/
  hist  : Option Nat
  /-- codec slots bound (R178) -/
  bound : List Bound
  /-- a PACKED vault source: the CLEN of every block (R332) -/
  pack  : Option (List Nat)
  /-- outbound windows latched at the start stage, by operand: receiving chip, its window, offset (R294, R315) -/
  wins  : Tab (Nat × Nat × Nat)
  /-- seed of this operation's free values (R117, R145) -/
  seed  : Nat
  deriving DecidableEq, Repr

/-- Bytes of a 128-byte line that have arrived: which of them, their values, and which are poisoned. -/
structure Arr where
  mask : Nat
  data : Nat
  pois : Nat
  deriving DecidableEq, Repr

/-- An operation of a strand (R81). -/
structure Op where
  /-- unique number -/
  id     : Nat
  kind   : OpKind
  phase  : Phase
  /-- address of the instruction -/
  pc     : Nat
  /-- descriptor address of a MOVE; operand address of SETX, TLOAD and STAT -/
  desc   : Nat
  /-- extent registers and argument captured at retirement (R81) -/
  x      : List (Option DWord)
  /-- the instruction's words -/
  w0     : DWord
  w1     : DWord
  /-- iteration index of every open level at retirement, outermost first -/
  loops  : List Nat
  /-- list element address (R92), and its value when known -/
  listVa : Option Nat
  elem   : Option Nat
  /-- place in station order (R220) -/
  ord    : Nat
  /-- footprints whose hazard entries it takes, fixed by the start stage (R129) -/
  foots  : List Foot
  mv     : Option Mv
  /-- guards of D15: tally and threshold of the source and the destination (R111, R206) -/
  gsrc   : Option (Nat × Nat)
  gdst   : Option (Nat × Nat)
  /-- its start stage has waited on a conflict, and been counted (R222) -/
  hazWaited : Bool
  /-- read bursts and write lines issued so far -/
  rIss   : Nat
  wIss   : Nat
  /-- bytes returned: key operand × 2^57 + address / 128 -/
  got    : Tab Arr
  /-- blocks decoded: place number, and its output elements with poison (R186) -/
  decoded : Tab (List (Nat × Bool))
  /-- blocks encoded, in order (R190) -/
  encoded : List EncBlk
  /-- content faults of the codec that have been recorded (R188) -/
  cfaults : List CFault
  /-- content fault of the shaper recorded, results merged into the strand's statistics (R142, R158) -/
  shaped : Bool
  /-- elements of a DELAYED MOVE merged into its history slot, in the order in which they pass (R153) -/
  histN  : Nat
  /-- a TLOAD has marked its slot LOADING (R179) -/
  marked : Bool
  /-- an access or content fault asks for a stop with POLICY 1 (R132) -/
  stopAfter : Bool
  /-- an OFFSIDE record has been raised (R266) -/
  offRec : Bool
  /-- first bytes of the granules found offside by a retry, and operands that are offside whole (R266) -/
  offside : List Nat
  offOpds : List Nat
  /-- operands whose start-stage translation is over (R263) -/
  walked  : List Nat
  deriving DecidableEq, Repr

/-- A strand (R55, R73, R78). -/
structure Strand where
  st      : StrandSt
  chan    : Nat
  err     : Nat
  seq     : Word
  pc      : Nat
  entry   : Option Entry
  loops   : List Loop
  x       : List (Option DWord)
  arg     : DWord
  /-- instruction buffer: at most two lines, virtual line address and the 128 bytes (R82) -/
  lines   : List (Nat × Line)
  /-- range cache, most recently used first (R263) -/
  ranges  : List Xl
  /-- operations not complete, oldest first (R81) -/
  ops     : List Op
  /-- operations retired so far -/
  nOps    : Nat
  lastOp  : Option Nat
  sigs    : List Sig
  blocked : Blocked
  wait    : WaitSt
  /-- timeout of the WAIT in µs, 0 for none (R98) -/
  waitTmo : Nat
  guardS  : WaitSt
  guardD  : WaitSt
  stats   : Stats
  /-- held list line (R93): address, 128 bytes -/
  listLine : Option (Nat × Line)
  /-- wait ages in sclk, read and write (R58) -/
  ageR    : Nat
  ageW    : Nat
  /-- waiting for a read tag with a burst ready, in sclk (R409) -/
  ageTag  : Nat
  /-- some data-class fault was recorded (R62 OK_DATA) -/
  dataFault : Bool
  deriving DecidableEq, Repr

/-- A hazard entry or landing record (R222, R223). -/
structure Haz where
  strand  : Nat
  op      : Nat
  ord     : Nat
  space   : Space
  write   : Bool
  lo      : Nat
  hi      : Nat
  part    : Nat
  opd     : Nat
  /-- the operation has issued its last write -/
  done    : Bool
  /-- it holds a landing record -/
  landing : Bool
  deriving DecidableEq, Repr

/-- Who issued a far-port access. -/
inductive Agent
  | op (k id opd : Nat)                          -- an operation of strand k
  | link (port : Nat) (pkt : Packet) (win : Nat) -- the inbound link agent and the window as latched (R296)
  deriving DecidableEq, Repr

/-- An outstanding read: far port, window or vault (R424, R300, R326). -/
structure RdReq where
  agent : Agent
  /-- partition whose translation it was issued under; 16 for a link access (R268) -/
  part  : Nat
  va    : Nat
  line  : Nat
  mask  : Nat
  deriving DecidableEq, Repr

/-- A write departed and not landed (R227). -/
structure WrReq where
  agent : Agent
  part  : Nat
  wid   : Nat
  va    : Nat
  line  : Nat
  mask  : Nat
  data  : Line
  poison : Nat
  /-- the host network has acknowledged it; invalidations are under way (R229) -/
  acked : Bool
  /-- invalidations still to send or be acknowledged -/
  inval : List Nat
  /-- LAND_TMO has failed it; only its completion is awaited, to be discarded (R228) -/
  failed : Bool
  deriving DecidableEq, Repr

/-- An inbound link access at its station (R296): the port it came by, the packet, its window as latched, its place in station
order (R236), and the pool that each of its units is charged to (R287). -/
structure LinkAcc where
  src   : Nat
  pkt   : Packet
  win   : Nat
  ord   : Nat
  pools : List Nat
  deriving DecidableEq, Repr

/-- A scratch line of the near port: a write ready to go or staged, or a read requested (R197, R202). -/
structure NearLine where
  strand : Nat
  op     : Nat
  chan   : Nat
  write  : Bool
  line   : Nat
  mask   : Nat
  data   : SLine
  poison : Nat
  opd    : Nat
  wid    : Nat
  /-- an inbound link access -/
  link   : Option LinkAcc
  deriving DecidableEq, Repr

/-- A landing barrier of a station (R234): the tallies and scopes it was requested for, the write identifiers that had
departed when it began, those of them whose landing CHIP scope does not wait for (window writes), and the releases it covers:
those numbered below `mark`. -/
structure Barrier where
  tallies : List (Nat × Scope)
  wids    : List Nat
  far     : List Nat
  mark    : Nat
  deriving DecidableEq, Repr

/-- A codec slot (R177, R194). The table is its symbols: length and value per symbol, and the escape symbol. -/
structure CSlot where
  valid   : Bool
  loading : Bool
  gen     : Nat
  table   : List (Nat × Nat)
  esc     : Option Nat
  deriving DecidableEq, Repr

/-- A history slot of the shaper (R153): past maxima newest first, count and accumulator, FP32 bits. -/
structure Hist where
  entries : List Nat
  count   : Nat
  acc     : Nat
  deriving DecidableEq, Repr

/-- Round-robin pointers of one arbiter (R56): the channel served last plus 1, and per channel the strand. -/
structure Rr where
  chan   : Nat
  strand : Tab Nat
  deriving DecidableEq, Repr

/-- Where an addition comes from: a station's signals, the hub's completion signal of an entry of a channel, the link engine
for an inbound window, a global operation (R247). Additions of one source apply in the order in which it sent them (R13,
R248). -/
inductive AddSrc
  | station (n : Nat)
  | compl (n c : Nat)
  | arrival
  | gop
  deriving DecidableEq, Repr

/-- An addition on its way to a tally (R248): its source, its amount, and the release behind it: station (none for a release
that has no station), declared and settled scope. An arrival's write acknowledgement leaves after it (R235). -/
structure Add where
  src      : AddSrc
  tally    : Nat
  amount   : Nat
  stn      : Option Nat
  declared : Scope
  settled  : Scope
  ack      : Option Packet
  deriving DecidableEq, Repr

/-- A station's power state (R370, R371). -/
inductive Power
  | off
  | lull
  | active
  | toLull
  | toOff
  | thawLull
  | thawOff
  deriving DecidableEq, Repr

/-- A descriptor cache entry (R84): physical address, and the strands that have used it. -/
structure DLine where
  pa    : Nat
  data  : Line
  users : List Nat
  deriving DecidableEq, Repr

/-- A read that the prefetcher has issued (R83): strand, partition, virtual line (a descriptor's above 2^60), physical line
address, and whether the strand still waits for it. -/
structure Fetch where
  k    : Nat
  part : Nat
  va   : Nat
  pa   : Nat
  live : Bool
  deriving DecidableEq, Repr

/-- A station (R11, R74). Its strands and channels stand in tables of their own. -/
structure Station where
  power   : Power
  rrRd    : Rr
  rrWr    : Rr
  rrSeq   : Rr
  rrGrant : Rr
  rrNearR : Rr
  rrNearW : Rr
  /-- read tags in use, far port, window and vault (R424, R300, R326) -/
  rdTags  : Tab RdReq
  wRdTags : Tab RdReq
  vRdTags : Tab RdReq
  /-- write tags in use; a vault line that the controller has accepted stands under 256 + its number until it is programmed
  (R329, R330) -/
  wrTags  : Tab WrReq
  wWrTags : Tab WrReq
  vWrTags : Tab WrReq
  /-- read tags reserved for a strand (R409) -/
  tagFor  : Option Nat
  /-- reads the prefetcher has pending and has issued: strand and virtual line (R83) -/
  pfQ     : List (Nat × Nat)
  pfOut   : List Fetch
  /-- far-port reads and prefetcher reads that a soft reset has left outstanding: their responses are discarded and counted
  (R29, R67, R74) -/
  oldRd   : Tab RdReq
  oldPf   : List Fetch
  /-- arbiter cycles until the prefetcher may issue again (R83) -/
  pfGap   : Nat
  dcache  : List DLine
  haz     : List Haz
  /-- next place in station order (R220) -/
  nextOrd : Nat
  /-- shaper contexts held: strand and operation (R161) -/
  ctx     : List (Nat × Nat)
  rowBuf  : Option (Nat × Nat)
  smooth  : Option (Nat × Nat)
  colAcc  : Option (Nat × Nat)
  /-- codec contexts held: decode and encode (R192) -/
  decCtx  : List (Nat × Nat)
  encCtx  : List (Nat × Nat)
  /-- operations in the order in which they requested contexts (R161) -/
  resQ    : List (Nat × Nat)
  hist    : Tab Hist
  slots   : List CSlot
  /-- TLOADs waiting per slot in the order they reached the codec: slot, strand, operation (R179) -/
  tloads  : List (Nat × Nat × Nat)
  /-- next near-port slot, 0 to 7 (R195) -/
  slot    : Nat
  /-- staged locked lines, oldest first (R203) -/
  staged  : List NearLine
  /-- the locked stream has been discarded: locked mode has not resumed since a fence or a stop of its strand (R205) -/
  lockOff : Bool
  /-- scratch reads and writes outstanding at the tile, oldest first (R198, R199) -/
  nearRd  : List NearLine
  nearWr  : List NearLine
  /-- requests for landing barriers: tally and scope (R234) -/
  barReq  : List (Nat × Scope)
  barriers : List Barrier
  /-- kept value of HORIZON (R196) -/
  horizon : Nat
  /-- code of the last station-wide stop (R74) -/
  stopCode : Nat
  /-- a fence is in force (R67) -/
  fenced  : Bool
  /-- a soft reset has completed since the fence (R346) -/
  wasReset : Bool
  /-- soft reset accepted on the STN page: 0 none, 1 waiting for the drain, 2 begun (R29) -/
  resetting : Nat
  /-- halt reported in dead ball (R359) -/
  halted  : Bool
  /-- wake queue: the additions to each local tally that accumulated while the station sleeps (R251) -/
  wakeQ   : Tab (List Add)
  /-- a thaw has been requested and not begun (R251, R372) -/
  wakeReq : Bool
  /-- inbound link accesses waiting for the station (R296) -/
  inQ     : List LinkAcc
  /-- wait ages of the link agent in sclk, read and write (R58, R296) -/
  ageLR   : Nat
  ageLW   : Nat
  deriving DecidableEq, Repr

/-- An unsettled release in a tally's value (R231, R245): releasing station, declared and settled scope. -/
structure Rel where
  id       : Nat
  stn      : Nat
  declared : Scope
  settled  : Scope
  deriving DecidableEq, Repr

/-- Which wait of a strand a waiter serves (R250). -/
inductive WKind
  | wait
  | gsrc
  | gdst
  | gop (slot : Nat)
  deriving DecidableEq, Repr

/-- A registered waiter (R250). -/
structure Waiter where
  kind  : WKind
  stn   : Nat
  strand : Nat
  thr   : Nat
  scope : Scope
  deriving DecidableEq, Repr

/-- A tally (R245). -/
structure Tally where
  value   : BitVec 48
  rels    : List Rel
  waiters : List Waiter
  poison  : Bool
  deriving DecidableEq, Repr

/-- Who waits for a walk (R265). -/
inductive Requester
  | chan (n c : Nat)
  | line (n k va : Nat)
  | op (n k id opd : Nat)
  deriving DecidableEq, Repr

/-- A walk request (R262). -/
structure Walk where
  /-- physical address of the group that the walk reads, from its start; none while it waits, and for one that reads nothing -/
  addr    : Option Nat
  part  : Nat
  va    : Nat
  hi    : Nat
  write : Bool
  cause : Nat
  reqs  : List Requester
  /-- a walker runs it -/
  running : Bool
  /-- a revoking switch came after it began: its result is discarded (R268) -/
  stale : Bool
  deriving DecidableEq, Repr

/-- Where a fault record is (R272). -/
inductive FPhase
  | deferred
  | open
  | closed
  | written
  | retry
  deriving DecidableEq, Repr

/-- A translation fault record (R271) and its attached requesters. -/
structure FRec where
  idx    : Nat
  va     : Nat
  write  : Bool
  absent : Bool
  cause  : Nat
  stn    : Nat
  req    : Nat
  batch  : Nat
  merged : Nat
  gen    : Nat
  reqs   : List Requester
  phase  : FPhase
  deriving DecidableEq, Repr

/-- Partition states (R279). -/
inductive PState
  | off
  | ready
  | building
  | draining
  | broken
  deriving DecidableEq, Repr

/-- A commit in progress (R267). -/
structure Commit where
  revoke : Bool
  tbase  : Nat
  tcount : Nat
  /-- 0 waiting for the standby bank, 1 table read and checked, 2 switched and draining -/
  stage  : Nat
  keys   : List Nat
  /-- state before the commit (R269) -/
  before : PState
  deriving DecidableEq, Repr

/-- A forecast record posted (R274). -/
structure FcRec where
  seq    : Nat
  va     : Nat
  len    : Nat
  kind   : Nat
  host   : Bool
  chan   : Nat
  strand : Nat
  deriving DecidableEq, Repr

/-- A partition's translation state (R267 to R279). -/
structure Part where
  st      : PState
  cerr    : Nat
  gen     : Nat
  /-- the table in force: base and count, none before the first commit -/
  table   : Option (Nat × Nat)
  /-- its index bank: the VSTART of each group's first entry (R260) -/
  keys    : List Nat
  cur     : Option Commit
  /-- a further commit is pending; revoking if either was (R278) -/
  pend    : Option Bool
  recs    : List FRec
  fqProd  : Nat
  /-- record index the next record of a closing batch takes -/
  fqNext  : Nat
  batchNo : Nat
  fcPosted : Nat
  fcProd  : Nat
  fcQ     : List FcRec
  /-- bursts issued under stale translations and not yet served, by station (R268) -/
  drain   : List (Nat × Nat)
  deriving DecidableEq, Repr

/-- Link port states (R301). -/
inductive PortSt
  | off
  | train
  | sync
  | up
  | down
  | mismatch
  | stopped
  deriving DecidableEq, Repr

/-- A packet that waits to leave by a port (R293): its source, port 0 to 3 or 4 for the own chip, its channel (4 is SWEEP), and
the pool of the receiving port that each of its units is charged to; none for a packet of the own chip. -/
structure OutPkt where
  src   : Nat
  vc    : Nat
  pkt   : Packet
  pools : List Nat
  deriving DecidableEq, Repr

/-- A packet received for this chip and held in its port's pool (R287): its channel, the inbound window it names as latched when
its header arrived (R296), and the pool that each of its units is charged to. -/
structure InPkt where
  vc    : Nat
  pkt   : Packet
  win   : Nat
  pools : List Nat
  deriving DecidableEq, Repr

/-- A sequenced flit in the replay buffer (R284, R286): what it keeps when it is sent again. -/
structure TxFlit where
  seq     : BitVec 16
  vc      : Nat
  shared  : Bool
  crvc    : Nat
  credits : Nat
  pkts    : List Packet
  deriving DecidableEq, Repr

/-- A link port (R284 to R303). -/
structure Port where
  st       : PortSt
  peerChip : Nat
  peerPort : Nat
  /-- draining after ENABLE was cleared (R302) -/
  closing  : Bool
  /-- next sequence number expected and last acknowledged by the partner (R286) -/
  rxNext   : BitVec 16
  txNext   : BitVec 16
  txAcked  : BitVec 16
  /-- NAK to be sent in the next flit; a NAK has been sent within REPLAY_TMO (R286) -/
  nak      : Bool
  nakSent  : Bool
  resends  : Nat
  /-- flits sent and not acknowledged (R286), and how many of them the transmitter has sent since its last resend began -/
  replay   : List TxFlit
  replayed : Nat
  /-- the flit last given to the PHY (R283, R284) -/
  tx       : SLine
  /-- packets waiting to leave (R293) -/
  outQ     : List OutPkt
  /-- packets received for this chip (R287, R296) -/
  inQ      : List InPkt
  /-- units received of packets that are not whole, by channel, each with the pool it is charged to (R288) -/
  rxPart   : Tab (List (Nat × Nat))
  /-- transmitter credits: five reserves and the shared pool (R287) -/
  credits  : List Nat
  /-- units of credit to return to the partner: five reserves and the shared pool -/
  retCred  : List Nat
  /-- data packets sent and received since full reset (R311) -/
  sent     : Nat
  received : Nat
  /-- round-robin pointers over the sources: class RSP, class REQ (R293) -/
  rrRsp    : Nat
  rrReq    : Nat
  /-- lclk that the head of a source (4 × source + channel) has waited (R293) -/
  ages     : Tab Nat
  /-- data flits that go before the next sweeper flit while data flits wait (R292) -/
  swGap    : Nat
  fenced   : Bool
  /-- the STOP marker has been sent (R304, R359) -/
  stopSent : Bool
  deriving DecidableEq, Repr

/-- Global-operation slot states (R316). -/
inductive GState
  | idle
  | armed
  | gather
  | release
  | failed
  deriving DecidableEq, Repr

/-- A global-operation slot (R307 to R313). -/
structure Gop where
  st     : GState
  /-- epochs completed, and the epoch's threshold is THR + STEP × epoch -/
  epoch  : Word
  value  : DWord
  /-- sweeper packets recorded: port and H0 of a GUP; port, H0 and H1 of a GDOWN -/
  ups    : List (Nat × DWord)
  downs  : List (Nat × DWord × DWord)
  /-- the acquire on IN_TALLY (R307) -/
  acq    : WaitSt
  /-- root of the operation's tree, once known (R307) -/
  root   : Option Nat
  /-- this chip's GUP of the epoch has been sent -/
  upSent : Bool
  /-- snapshot: the freeze of the epoch has been taken; its record as written at GOP_ADDR (R311) -/
  frozen : Bool
  record : List DWord
  /-- the value or record write has not landed -/
  pendWr : Bool
  /-- broadcast: the origin's read is outstanding -/
  reading : Bool
  /-- reset: the first copy of the epoch's GDOWN has been acted on; this chip's ports have settled (R312) -/
  acted  : Bool
  settled : Bool
  deriving DecidableEq, Repr

/-- Object states of the vault (R344). -/
inductive ObjSt
  | free
  | open
  | ready
  | deleting
  deriving DecidableEq, Repr

/-- A vault object (R322 to R332). -/
structure Obj where
  st      : ObjSt
  packed  : Bool
  parts   : BitVec 16
  gen     : Nat
  len     : Nat
  blocks  : Nat
  /-- positions of its segments, in order (R323) -/
  segs    : List Nat
  /-- block headers of a PACKED object (R332) -/
  headers : List DWord
  /-- place index of a PACKED object: the stored offset of every 256th block (R332) -/
  index   : List Nat
  /-- CLOSE has begun -/
  closing : Bool
  /-- frontier F (R329), and the bytes written or padded at or above it: line of 128 bytes and mask -/
  frontier : Nat
  written : Tab Nat
  /-- pages that hold a written byte and are not programmed: (segment × C + channel) × 1024 + page (R330) -/
  dirty   : List Nat
  /-- suspends of a page's program so far (R343) -/
  susp    : Tab Nat
  /-- codewords in the poison list (R328) -/
  poison  : List Nat
  /-- segments marked for refresh (R335), and the program time of each segment in powered seconds (R334) -/
  marked  : List Nat
  birth   : List Nat
  deriving DecidableEq, Repr

/-- Vault controller states (R344). -/
inductive VState
  | off
  | mounting
  | ready
  | unformatted
  | formatting
  | failed
  deriving DecidableEq, Repr

/-- A codeword read for an operation (R326, R327): rally steps done so far, and its 32 lines once decoded. -/
structure Cw where
  stn    : Nat
  strand : Nat
  op     : Nat
  obj    : Nat
  cw     : Nat
  step   : Nat
  /-- the rally step whose read offsets its first decode used, 0 for the default ones (R327) -/
  offs   : Nat
  done   : Bool
  poison : Bool
  data   : List Line
  deriving DecidableEq, Repr

/-- A vault channel (R345). Blocks are numbered (LUN × 4 + plane) × 1024 + block. -/
structure VChan where
  failed : Bool
  /-- bad-block table: block and its spare (R338) -/
  bad    : List (Nat × Nat)
  /-- erase counts of blocks (R337), reads per block since program or scrub (R336) -/
  erases : Tab Nat
  reads  : Tab Nat
  /-- rally step whose offsets succeeded last, kept per block (R327) -/
  offs   : Tab Nat
  deriving DecidableEq, Repr

/-- The vault controller (R320 to R345). -/
structure Vault where
  st      : VState
  /-- C, the channels striped at FORMAT (R322) -/
  ch      : Nat
  /-- positions out of use (R338) -/
  retired : List Nat
  /-- the command that runs, 0 for none; RESULT; its object (R324) -/
  busy    : Nat
  result  : Nat
  cmdObj  : Nat
  objs    : Tab Obj
  cws     : List Cw
  /-- MOVEs with a VAULT source in the order of their start stages: station, strand, operation (R326) -/
  order   : List (Nat × Nat × Nat)
  chans   : Tab VChan
  /-- powered seconds for retention age, and AO_REFCLK cycles of the running one (R334) -/
  poweredS : Nat
  poweredT : Nat
  /-- blocks that the running FORMAT has erased: channel and block -/
  fmtDone : List (Nat × Nat)
  /-- the slice is powered (R376) -/
  powered : Bool
  fenced  : Bool
  /-- scrub reads due ahead of the periodic pass: object, segment and pages, each channel × 1024 + page (R334, R336) -/
  scrubQ  : List (Nat × Nat × List Nat)
  /-- the log queue's operation in progress: code, area, offset, length; its error bit (R367) -/
  logOp   : Option (Nat × Bool × Nat × Nat)
  logErr  : Bool
  /-- log records held in the log area: lowest and one past the highest SEQ copied (R382) -/
  logLo   : Nat
  logHi   : Nat
  deriving DecidableEq, Repr

/-- Source states (R348). -/
inductive SrcSt
  | idle
  | minor
  | major
  | critical
  deriving DecidableEq, Repr

/-- A referee record (R353). -/
structure Rec where
  src    : Nat
  cls    : Nat
  kind   : Nat
  unit   : Nat
  sev    : Nat
  insvc  : Bool
  seq    : Word
  time   : DWord
  addr   : DWord
  detail : DWord
  deriving DecidableEq, Repr

/-- An event on a source's error pin, not yet sampled (R347). -/
structure Ev where
  src    : Nat
  kind   : Nat
  unit   : Nat
  addr   : DWord
  detail : DWord
  deriving DecidableEq, Repr

/-- A source of the referee (R348, R366). -/
structure Src where
  st      : SrcSt
  /-- events in the open window, and whether a window is open (R349) -/
  count   : Nat
  window  : Bool
  fencing : Bool
  fenced  : Bool
  /-- holding buffer, at most 4 records (R347) -/
  hold    : List Rec
  /-- lost records awaiting a summary: EVENT and REACTION, DATA (R355) -/
  lostEv  : Nat
  lostData : Nat
  deriving DecidableEq, Repr

/-- The referee (R346 to R366). -/
structure Referee where
  srcs    : Tab Src
  pins    : List Ev
  queue   : List Rec
  /-- the latched record: eight words (R354) -/
  latch   : List Word
  seq     : Word
  /-- rotation over holding buffers: the source served last plus 1 (R347) -/
  rot     : Nat
  dead    : Bool
  dbSrc   : Nat
  dbKind  : Nat
  haltIncomplete : Bool
  /-- a STOP has been accepted on every UP port (R359) -/
  linkHalted : Bool
  /-- SAFE_OUT in dead ball (R359) -/
  safe    : Bool
  /-- first trigger's clock source is the internal oscillator (R369) -/
  oscillator : Bool
  deriving DecidableEq, Repr

/-- A station group's operating point and caps (R374, R375, R390). -/
structure Group where
  cur    : Nat
  capM   : Nat
  capT   : Nat
  /-- OP_CAP_M before a request of Torvyo that the power controller has not begun (R19) -/
  capWas : Option Nat
  /-- requested point on the rail interface, waiting for rail-good -/
  req    : Option Nat
  /-- sensors that lowered the thermal cap -/
  hot    : List Nat
  /-- AO times of the group's droop trips of the last 1 ms -/
  droopT : List Nat
  deriving DecidableEq, Repr

/-- Start-up and reset progress (R387, R388). -/
inductive Boot
  | reset     -- AO_POR_N or RESET_N asserted, or AO ready not reached
  | aoReady   -- AO ready; the hub not yet
  | hubReady
  deriving DecidableEq, Repr

/-- The power controller (R369 to R376). -/
structure Pwr where
  boot   : Boot
  groups : List Group
  /-- sensors: last sample, none before the first after AO ready (R390) -/
  sense  : Tab (BitVec 12)
  /-- hub core: powered, powering down, powering up (R376) -/
  hubOn  : Bool
  hubGoingUp : Bool
  /-- the key hash sampled at power-on (R383) -/
  key     : BitVec 384
  /-- AO time of a sensor's last warning; a group's droop warning stands under 64 + g (R369) -/
  warnAt : Tab Nat
  /-- droop trips of each station as Torvyo's sensor device shows them, saturating (R367) -/
  stnDroops : Tab Nat
  deriving DecidableEq, Repr

/-- Management processor states (R391). -/
inductive MgmtSt
  | reset
  | rom
  | recovery
  | running
  | halted
  deriving DecidableEq, Repr

/-- A mailbox message (R377, R378). -/
structure Msg where
  code   : Nat
  seq    : Nat
  result : Nat
  data   : List Word
  deriving DecidableEq, Repr

/-- A log record (R381). -/
structure LogRec where
  seq  : Nat
  typ  : Nat
  sev  : Nat
  src  : Nat
  boot : Nat
  time : Nat
  w2   : DWord
  w3   : DWord
  deriving DecidableEq, Repr

/-- The management subsystem (R367, R368, R377 to R386). -/
structure Mgmt where
  st      : MgmtSt
  /-- the slots (R377): H2M holds a message; the message taken and not answered; M2H's words and whether it holds an
  unacknowledged one; replies and notices held in order behind it -/
  h2mFull : Bool
  taken   : Option Msg
  m2h     : Msg
  m2hValid : Bool
  outQ    : List Msg
  /-- ALERTs dropped since the last one sent (R378) -/
  dropped : Nat
  /-- the log ring: at most 2,048 records, oldest first; its next SEQ; records copied so far (R380, R382) -/
  log     : List LogRec
  logSeq  : Nat
  logCopied : Nat
  overwritten : Nat
  /-- boot count and management resets since power-on (R378, R381) -/
  boots   : Nat
  mgmtResets : Nat
  /-- power budget in mW, 0 none (R378) -/
  budget  : Nat
  thermCaps : Nat
  droopCaps : Nat
  deadBalls : Nat
  /-- update in progress: announced length (R386) -/
  update  : Option Nat
  /-- bytes of an image that UPDATE_DATA has put into SRAM (ROM) or into the vault image area (Torvyo): offset and byte (R385,
  R386) -/
  sram    : Tab Byte
  imgArea : Tab Byte
  /-- bytes of the vault log area (R339, R382) -/
  logArea : Tab Byte
  /-- VERSION of the image that runs, and whether it came over the mailbox (R391) -/
  version : Word
  fromMbox : Bool
  /-- RESET_MGMT asked for recovery (R378) -/
  recover : Bool
  /-- READY or RECOVERY, owed since the last restart (R385) -/
  due     : Option Msg
  /-- watchdog: limit in ms; armed (R368) -/
  wdogMs  : Nat
  wdog    : Bool
  /-- reason of the next READY (R378) -/
  reason  : Nat
  memCe   : Nat
  deriving DecidableEq, Repr

/-- A performance counter (R392, R396). EVENT, EN, MODE and the rest of its control stand in `Block.regs`. -/
structure Counter where
  value  : BitVec 48
  acc    : BitVec 48
  wcount : BitVec 16
  /-- the window length in use (R392) -/
  win    : Nat
  deriving DecidableEq, Repr

/-- A cache invalidation outstanding on the sideband (R229, R432): its write, and whether it has timed out. -/
structure Inval where
  stn   : Nat
  wid   : Nat
  line  : Nat
  timed : Bool
  deriving DecidableEq, Repr

/-- A write of the hub far port that has not landed (R428). -/
inductive HubWrite
  | status (n c : Nat) (idx : Word)
  | gop (slot : Nat)
  deriving DecidableEq, Repr

/-- The block. -/
structure Block where
  /-- registers of the register tables, by window address; an absent one holds its reset value (R28 to R402) -/
  regs     : Tab Word
  cfg      : CfgPort
  /-- channels, by global channel number 32n + c (R44) -/
  chans    : Tab Chan
  /-- strands, by 256n + k (R53) -/
  strands  : Tab Strand
  /-- stations that differ from their reset state (R74) -/
  stations : Tab Station
  /-- tallies, by flat index (R8, R245) -/
  tallies  : Tab Tally
  /-- additions on their way (R248) -/
  adds     : List Add
  walks    : List Walk
  parts    : Tab Part
  /-- the partition whose commit holds the standby bank (R267) -/
  standby  : Option Nat
  /-- partitions whose commits wait for the standby bank, oldest request first -/
  commitQ  : List Nat
  /-- writes of station n whose invalidations are still to be sent: station, write id, line (R229) -/
  invQ     : List (Nat × Nat × Nat)
  /-- invalidations outstanding by identifier (R432) -/
  invals   : Tab Inval
  /-- hub far-port writes outstanding by tag (R428) -/
  hubWr    : Tab HubWrite
  /-- hub far-port writes waiting for a tag (R428) -/
  hubQ     : List HubWrite
  /-- interrupt messages pending, in the order they first became so (R433) -/
  irqs     : List Nat
  ports    : Tab Port
  gops     : Tab Gop
  /-- RESETTING and COLOUR of LK_STATE (R316) -/
  linkReset : Bool
  colour   : Bool
  vault    : Vault
  ref      : Referee
  pwr      : Pwr
  mgmt     : Mgmt
  /-- counters: by station, hub, port, vault (keys 16·location + i) -/
  counters : Tab Counter
  /-- the snapshot or driver freeze (R399): AO time of the last T_f -/
  frzTime  : Nat
  /-- AO_REFCLK cycles since full reset (R353) -/
  aoTime   : Nat
  /-- AO_REFCLK cycles since power-on (R381) -/
  ponTime  : Nat
  /-- poisoned register words: code errors not yet replaced by a write (R41) -/
  badRegs  : List Nat
  /-- latched hazard entry of a station: HAZ_INFO, HAZ_LO, HAZ_HI (R243) -/
  hazLatch : Tab (Word × DWord × DWord)
  /-- unique numbers given to writes and records -/
  nextId   : Nat
  /-- the model's own counter of free values drawn (no state of the spec) -/
  fresh    : Nat
  deriving DecidableEq, Repr

/-- The test wrapper and the reset pin it looks at (R421, R437, R438): the instruction in force, and the level of RESET_N. -/
structure Tap where
  instr  : Nat
  resetN : Bool
  deriving DecidableEq, Repr

/-- The state: parameters, the queue of waiting commands (first in, first out), the test wrapper, the block. -/
structure State where
  par     : Params
  pending : List Instr
  tap     : Tap
  b       : Block
  deriving DecidableEq, Repr

/-- Reasons to stop. No command of this model raises one: every command of the spec has an effect, or does not occur. -/
inductive Fault
  /-- Raised by no command; kept so that the type names a reason. Safe: the machine would stop where it could go on. -/
  | none
  deriving DecidableEq, Repr

/-- Reasons to refuse a command. -/
inductive Refusal
  /-- Raised by an arm of `exec` whose command has no meaning yet. Safe: nothing can be proved of its effect. -/
  | notModelled (mnemonic : String)
  deriving DecidableEq, Repr

/-! Values after reset. -/

/-- The integration parameters that the model takes (R3, R436). [DESIGN CHOICE: log 5] -/
def Params.reset : Params :=
  { stations := 48, linkPorts := 4, vaultCh := 128, vcRate := 3600, luns := 4,
    tileSize := List.replicate 48 1048576, rdLat := List.replicate 48 4, wrAckLat := List.replicate 48 3,
    fpCheckEn := true }

def CfgPort.reset : CfgPort := { resp := .ok, rdata := 0, rsps := [], held := [], wshadow := [], rshadow := [] }

/-- A channel after reset (R71, R72): tokens follow R57 and stand at the reset DEPTH of 64. -/
def Chan.reset : Chan :=
  { tail := 0, head := 0, done := 0, st := .disabled, err := 0, errSeq := 0, reading := [], got := [],
    accepting := none, accOff := false, accepted := [], compl := [], cancelFrom := 0, cancelTo := 0, tokR := 64 * 512, tokW := 64 * 512 }

def Stats.reset : Stats :=
  { elems := 0, clipped := 0, nans := 0, infs := 0, zeroed := 0, amax := 0, moves := 0, empty := 0, faults := 0,
    sat := false }

/-- A strand that holds no entry (R73, R78). -/
def Strand.reset : Strand :=
  { st := .idle, chan := 0, err := 0, seq := 0, pc := 0, entry := none, loops := [], x := List.replicate 8 none, arg := 0,
    lines := [], ranges := [], ops := [], nOps := 0, lastOp := none, sigs := [], blocked := .no,
    wait := .none, waitTmo := 0, guardS := .none, guardD := .none, stats := Stats.reset, listLine := none, ageR := 0, ageW := 0,
    ageTag := 0, dataFault := false }

def CSlot.reset : CSlot := { valid := false, loading := false, gen := 0, table := [], esc := none }

def Hist.reset : Hist := { entries := [], count := 0, acc := 0 }

def Rr.reset : Rr := { chan := 0, strand := [] }

/-- A station after reset: off (R388), nothing held. [DESIGN CHOICE: log 11] -/
def Station.reset : Station :=
  { power := .off, rrRd := Rr.reset, rrWr := Rr.reset, rrSeq := Rr.reset, rrGrant := Rr.reset,
    rrNearR := Rr.reset, rrNearW := Rr.reset, rdTags := [], wRdTags := [], vRdTags := [], wrTags := [], wWrTags := [],
    vWrTags := [], tagFor := none, pfQ := [], pfOut := [], oldRd := [], oldPf := [], pfGap := 0, dcache := [], haz := [], nextOrd := 0, ctx := [], rowBuf := none,
    smooth := none, colAcc := none, decCtx := [], encCtx := [], resQ := [], hist := [],
    slots := List.replicate 4 CSlot.reset, tloads := [], slot := 0, staged := [], lockOff := false, nearRd := [],
    nearWr := [], barReq := [], barriers := [], horizon := 64, stopCode := 0, fenced := false,
    wasReset := false, resetting := 0, halted := false, wakeQ := [], wakeReq := false, inQ := [], ageLR := 0, ageLW := 0 }

def Tally.reset : Tally := { value := 0, rels := [], waiters := [], poison := false }

def Part.reset : Part :=
  { st := .off, cerr := 0, gen := 0, table := none, keys := [], cur := none, pend := none, recs := [], fqProd := 0,
    fqNext := 0, batchNo := 0, fcPosted := 0, fcProd := 0, fcQ := [], drain := [] }

/-- A link port after reset (R301). [DESIGN CHOICE: log 11] -/
def Port.reset : Port :=
  { st := .off, peerChip := 0, peerPort := 0, closing := false, rxNext := 0, txNext := 0, txAcked := 0xFFFF, nak := false,
    nakSent := false, resends := 0, replay := [], replayed := 0, tx := 0, outQ := [], inQ := [], rxPart := [], credits := [64, 64, 64, 64, 64, 24256],
    retCred := [0, 0, 0, 0, 0, 0], sent := 0, received := 0, rrRsp := 0, rrReq := 0, ages := [], swGap := 0, fenced := false,
    stopSent := false }

def Gop.reset : Gop :=
  { st := .idle, epoch := 0, value := 0, ups := [], downs := [], acq := .none, root := none, upSent := false, frozen := false,
    record := [], pendWr := false, reading := false, acted := false, settled := false }

def Obj.reset : Obj :=
  { st := .free, packed := false, parts := 0, gen := 0, len := 0, blocks := 0, segs := [], headers := [], index := [],
    closing := false,
    frontier := 0, written := [], dirty := [], susp := [], poison := [], marked := [], birth := [] }

def VChan.reset : VChan := { failed := false, bad := [], erases := [], reads := [], offs := [] }

def Vault.reset : Vault :=
  { st := .off, ch := 0, retired := [], busy := 0, result := 0, cmdObj := 0, objs := [], cws := [], order := [], chans := [],
    poweredS := 0, poweredT := 0, fmtDone := [], powered := false, fenced := false, scrubQ := [], logOp := none,
    logErr := false, logLo := 0, logHi := 0 }

def Src.reset : Src :=
  { st := .idle, count := 0, window := false, fencing := false, fenced := false, hold := [], lostEv := 0, lostData := 0 }

/-- The referee after a reset; until AO ready both pins are asserted whatever it holds (R357, R421). -/
def Referee.reset : Referee :=
  { srcs := [], pins := [], queue := [], latch := List.replicate 8 0, seq := 0, rot := 0, dead := false, dbSrc := 0,
    dbKind := 0, haltIncomplete := false, linkHalted := false, safe := false, oscillator := false }

def Group.reset : Group := { cur := 0, capM := 3, capT := 3, capWas := none, req := none, hot := [], droopT := [] }

def Pwr.reset : Pwr :=
  { boot := .reset, groups := List.replicate 6 Group.reset, sense := [], hubOn := false, hubGoingUp := false,
    key := 0, warnAt := [], stnDroops := [] }

def Mgmt.reset : Mgmt :=
  { st := .reset, h2mFull := false, taken := none, m2h := ⟨0, 0, 0, []⟩, m2hValid := false, outQ := [], dropped := 0, log := [],
    logSeq := 0, logCopied := 0, overwritten := 0, boots := 0, mgmtResets := 0, budget := 0, thermCaps := 0,
    droopCaps := 0, deadBalls := 0, update := none, sram := [], imgArea := [], logArea := [], version := 0,
    fromMbox := false, recover := false, due := none, wdogMs := 1000, wdog := false, reason := 0, memCe := 0 }

def Counter.reset : Counter := { value := 0, acc := 0, wcount := 0, win := 1000 }

/-- The block right after power-on reset (R387), before AO ready (R388). -/
def Block.reset : Block :=
  { regs := [], cfg := CfgPort.reset, chans := [], strands := [], stations := [], tallies := [], adds := [], walks := [],
    parts := [], standby := none, commitQ := [], invQ := [], invals := [], hubWr := [], hubQ := [], irqs := [], ports := [],
    gops := [], linkReset := false, colour := false, vault := Vault.reset, ref := Referee.reset,
    pwr := Pwr.reset, mgmt := Mgmt.reset, counters := [], frzTime := 0, aoTime := 0, ponTime := 0, badRegs := [],
    hazLatch := [], nextId := 0, fresh := 0 }

/-- The wrapper holds WS_BYPASS after every reset (R438). -/
def Tap.reset : Tap := { instr := 0, resetN := true }

/-- The machine right after reset: Bunar-48 with four link ports and 128 vault channels (R7). -/
def State.reset : State := { par := Params.reset, pending := [], tap := Tap.reset, b := Block.reset }

end Sys2Proof.Machine
end

