-- ==== Sys2Proof/Machine/Ops.lean ====
section
/-! DEFINITION. The shared operations: the effect of a command on the block, the address map of the pages, reading and
writing stored registers, the tables of channels, strands, stations and tallies, counters, interrupt causes, page errors,
and how an error or a content fault reaches the referee. -/
namespace Sys2Proof.Machine

/-- Apply a block operation to the state; parameters and queue stay. -/
def onBlock (f : Params → Block → Block) (s : State) : State := { s with b := f s.par s.b }

/-- A command whose effect is a block operation. [DESIGN CHOICE: log 1] -/
def effect (f : Params → Block → Block) (s : State) : Host.Outcome State Fault Refusal := .next (onBlock f s)

/-! ## Addresses (R25, R27) -/

def stnB (n : Nat) : Nat := 0x100000 + n * 0x10000
def chanB (n : Nat) : Nat := stnB n + 0x1000
def strdB (n s : Nat) : Nat := stnB n + 0x2000 + s * 0x1000
def shpB (n : Nat) : Nat := stnB n + 0x4000
def codecB (n : Nat) : Nat := stnB n + 0x5000
def nearB (n : Nat) : Nat := stnB n + 0x6000
def ltalB (n s : Nat) : Nat := stnB n + 0x7000 + s * 0x1000
def ordB (n : Nat) : Nat := stnB n + 0x9000
def scntB (n : Nat) : Nat := stnB n + 0xA000
def dbellB (n c : Nat) : Nat := 0x400000 + (32 * n + c) * 0x1000
def hubB : Nat := 0
def cfgB : Nat := 0x1000
def xlatB : Nat := 0x2000
def fcB : Nat := 0x3000
def hcntB : Nat := 0x4000
def pwrB : Nat := 0x5000
def gtalB (j : Nat) : Nat := 0x10000 + j * 0x1000
def linkB : Nat := 0xA00000
def lportB (p : Nat) : Nat := 0xA01000 + p * 0x1000
def vaultB : Nat := 0xB00000
def vchB (g : Nat) : Nat := 0xB10000 + g * 0x1000
def partB (p : Nat) : Nat := 0xC00000 + p * 0x1000
def mboxB : Nat := 0xF00000
/-- Register of channel c on the CHAN page (R72). -/
def chR (n c off : Nat) : Nat := chanB n + 0x800 + 0x40 * c + off
/-- Register of partition p on the XLAT page (R279). -/
def xpR (p off : Nat) : Nat := xlatB + 0x800 + 0x80 * p + off
/-- Register of source s on the FC page (R366). -/
def fsR (s off : Nat) : Nat := fcB + 0x400 + 0x10 * s + off
/-- Register of global-operation slot s on the LINK page (R316). -/
def gopR (s off : Nat) : Nat := linkB + 0x100 + 0x40 * s + off
/-- Register of outbound window w (R318). -/
def owR (w off : Nat) : Nat := 0xA10000 + (w / 32) * 0x1000 + 0x800 + 0x20 * (w % 32) + off
/-- Register of inbound window w (R319). -/
def iwR (w off : Nat) : Nat := 0xA20000 + (w / 32) * 0x1000 + 0x800 + 0x20 * (w % 32) + off

/-- The pages of the window (R27). -/
inductive Page
  | hub | cfg | xlat | fc | hcnt | pwr
  | gtal (j : Nat)
  | stn (n : Nat)
  | chan (n : Nat)
  | strd (n s : Nat)
  | shp (n : Nat)
  | codec (n : Nat)
  | near (n : Nat)
  | ltal (n s : Nat)
  | ord (n : Nat)
  | scnt (n : Nat)
  | dbell (n c : Nat)
  | link
  | lport (p : Nat)
  | lowin (j : Nat)
  | liwin (j : Nat)
  | vault
  | vch (g : Nat)
  | part (p : Nat)
  | mbox
  deriving DecidableEq, Repr

/-- The page a window address lies in by R25 and R27, with no test whether its unit is present. -/
def pageOf (a : Nat) : Option Page :=
  let pn := a / 0x1000
  if pn < 0x100 then
    if pn = 0 then some .hub else if pn = 1 then some .cfg else if pn = 2 then some .xlat else if pn = 3 then some .fc
    else if pn = 4 then some .hcnt else if pn = 5 then some .pwr
    else if 0x10 ≤ pn ∧ pn < 0x30 then some (.gtal (pn - 0x10)) else none
  else if pn < 0x400 then
    let n := (pn - 0x100) / 16
    let s := pn % 16
    if s = 0 then some (.stn n) else if s = 1 then some (.chan n) else if s = 2 then some (.strd n 0)
    else if s = 3 then some (.strd n 1) else if s = 4 then some (.shp n) else if s = 5 then some (.codec n)
    else if s = 6 then some (.near n) else if s = 7 then some (.ltal n 0) else if s = 8 then some (.ltal n 1)
    else if s = 9 then some (.ord n) else if s = 10 then some (.scnt n) else none
  else if pn < 0xA00 then some (.dbell ((pn - 0x400) / 32) (pn % 32))
  else if pn = 0xA00 then some .link
  else if pn < 0xA05 then some (.lport (pn - 0xA01))
  else if 0xA10 ≤ pn ∧ pn < 0xA18 then some (.lowin (pn - 0xA10))
  else if 0xA20 ≤ pn ∧ pn < 0xA28 then some (.liwin (pn - 0xA20))
  else if pn = 0xB00 then some .vault
  else if 0xB10 ≤ pn ∧ pn < 0xB18 then some (.vch (pn - 0xB10))
  else if 0xC00 ≤ pn ∧ pn < 0xC10 then some (.part (pn - 0xC00))
  else if pn = 0xF00 then some .mbox
  else none

/-- Whether the unit of a page is in the configuration (R26). -/
def pagePresent (p : Params) : Page → Bool
  | .stn n | .chan n | .strd n _ | .shp n | .codec n | .near n | .ltal n _ | .ord n | .scnt n | .dbell n _ =>
    n < p.stations
  | .link | .lowin _ | .liwin _ => 0 < p.linkPorts
  | .lport i => i < p.linkPorts
  | .vault => 0 < p.vaultCh
  | .vch g => 16 * g < p.vaultCh
  | _ => true

/-- The page an access decodes to (R25, R26). -/
def pageAt (p : Params) (a : Nat) : Option Page := (pageOf a).filter (pagePresent p)

/-- Base address of a page. -/
def pageB : Page → Nat
  | .hub => hubB | .cfg => cfgB | .xlat => xlatB | .fc => fcB | .hcnt => hcntB | .pwr => pwrB
  | .gtal j => gtalB j | .stn n => stnB n | .chan n => chanB n | .strd n s => strdB n s | .shp n => shpB n
  | .codec n => codecB n | .near n => nearB n | .ltal n s => ltalB n s | .ord n => ordB n | .scnt n => scntB n
  | .dbell n c => dbellB n c | .link => linkB | .lport p => lportB p | .lowin j => 0xA10000 + j * 0x1000
  | .liwin j => 0xA20000 + j * 0x1000 | .vault => vaultB | .vch g => vchB g | .part p => partB p | .mbox => mboxB

/-- The station of a station page (R36). -/
def pageStn : Page → Option Nat
  | .stn n | .chan n | .strd n _ | .shp n | .codec n | .near n | .ltal n _ | .ord n | .scnt n => some n
  | _ => none

/-- A row of a repeated block: `cnt` blocks of `size` bytes from `lo`. -/
def rowRep (l : List RegRow) (lo size cnt off : Nat) : Option RegRow :=
  if lo ≤ off ∧ off < lo + size * cnt then rowAt l ((off - lo) % size) else none

/-- The row of the register at an offset of a page, the header included; none at a reserved offset. -/
def pageRow (pg : Page) (off : Nat) : Option RegRow :=
  if off < 0x40 then rowAt rows_hdr off
  else match pg with
  | .hub => rowAt rows_hub off
  | .cfg => rowAt rows_cfg off
  | .xlat => if off < 0x800 then rowAt rows_xlat off else rowRep rows_xlatP 0x800 0x80 16 off
  | .fc => if off < 0x400 then rowAt rows_fc off else rowRep rows_fcSrc 0x400 0x10 60 off
  | .hcnt => if off < 0x100 then rowAt rows_hcnt off else rowRep rows_cnt 0x100 0x10 16 off
  | .pwr => rowAt rows_pwr off
  | .gtal _ | .ltal _ _ =>
    if off < 0x400 then rowAt rows_tal off
    else if off < 0x800 then rowRep rows_talAdd 0x400 4 256 off else rowRep rows_talVal 0x800 8 256 off
  | .stn _ => rowAt rows_stn off
  | .chan _ => if off < 0x800 then rowAt rows_chan off else rowRep rows_chanC 0x800 0x40 32 off
  | .strd _ _ => rowRep rows_strdJ 0x800 0x10 128 off
  | .shp _ => rowAt rows_shp off
  | .codec _ => rowAt rows_codec off
  | .near _ =>
    if off < 0x80 then rowAt rows_near off
    else if off < 0x100 then rowRep rows_nearRes 0x80 0x10 8 off else rowRep rows_nearSent 0x100 0x10 16 off
  | .ord _ => rowAt rows_ord off
  | .scnt _ => if off < 0x100 then rowAt rows_scnt off else rowRep rows_cnt 0x100 0x10 8 off
  | .dbell _ _ => rowAt rows_dbell off
  | .link => if off < 0x100 then rowAt rows_link off else rowRep rows_gop 0x100 0x40 8 off
  | .lport _ => if off < 0x100 then rowAt rows_lport off else rowRep rows_cnt 0x100 0x10 4 off
  | .lowin _ => rowRep rows_lowinW 0x800 0x20 32 off
  | .liwin _ => rowRep rows_liwinW 0x800 0x20 32 off
  | .vault => if off < 0x100 then rowAt rows_vault off else rowRep rows_cnt 0x100 0x10 4 off
  | .vch _ => if off < 0x800 then rowAt rows_vch off else rowRep rows_vchC 0x800 0x20 16 off
  | .part _ => rowAt rows_part off
  | .mbox => rowAt rows_mbox off

/-- Reset value of the stored register at an address (R9). -/
def resetWord (a : Nat) : Nat :=
  match pageOf a with
  | none => 0
  | some pg => match pageRow pg (a % 0x1000) with
    | none => 0
    | some r => r.reset

/-! ## Stored registers -/

/-- The stored word of a register. -/
def rget (b : Block) (a : Nat) : Nat :=
  match tget b.regs a with
  | some w => w.toNat
  | none => resetWord a

/-- Store a word; a register at its reset value is not listed. -/
def rset (b : Block) (a v : Nat) : Block :=
  { b with regs := if v % 2 ^ 32 = resetWord a then tdel b.regs a else tput b.regs a (BitVec.ofNat 32 v) }

/-- Bits [m:l] of a stored register. -/
def rbits (b : Block) (a m l : Nat) : Nat := bits (rget b a) m l

/-- Bit i of a stored register. -/
def rbit (b : Block) (a i : Nat) : Bool := bit (rget b a) i

/-- Set the bits of a mask in a stored register. -/
def rsetBits (b : Block) (a m : Nat) : Block := rset b a (rget b a ||| m)

/-- Clear the bits of a mask in a stored register. -/
def rclrBits (b : Block) (a m : Nat) : Block := rset b a (clearBits (rget b a) m)

/-- A 64-bit pair (R34). -/
def rget64 (b : Block) (a : Nat) : Nat := rget b a + 2 ^ 32 * rget b (a + 4)

def rset64 (b : Block) (a v : Nat) : Block := rset (rset b a v) (a + 4) (v / 2 ^ 32)

/-- Add to a counter that saturates at 2^32 − 1. [DEDUCED: log 113] -/
def rcount (b : Block) (a d : Nat) : Block := rset b a (satAdd 0xFFFFFFFF (rget b a) d)

/-- PAGE_CTRL bits of a page (R28). -/
def pageEnable (b : Block) (base : Nat) : Bool := rbit b (base + 8) 0
def pageFence (b : Block) (base : Nat) : Bool := rbit b (base + 8) 1

/-! ## Units -/

def getChan (b : Block) (n c : Nat) : Chan := tgetD b.chans (32 * n + c) Chan.reset
def setChan (b : Block) (n c : Nat) (x : Chan) : Block := { b with chans := tput b.chans (32 * n + c) x }
def modChan (b : Block) (n c : Nat) (f : Chan → Chan) : Block := setChan b n c (f (getChan b n c))
def getStrand (b : Block) (n k : Nat) : Strand := tgetD b.strands (256 * n + k) Strand.reset
def setStrand (b : Block) (n k : Nat) (x : Strand) : Block := { b with strands := tput b.strands (256 * n + k) x }
def modStrand (b : Block) (n k : Nat) (f : Strand → Strand) : Block := setStrand b n k (f (getStrand b n k))
def getStn (b : Block) (n : Nat) : Station := tgetD b.stations n Station.reset
def setStn (b : Block) (n : Nat) (x : Station) : Block := { b with stations := tput b.stations n x }
def modStn (b : Block) (n : Nat) (f : Station → Station) : Block := setStn b n (f (getStn b n))
def getTal (b : Block) (t : Nat) : Tally := tgetD b.tallies t Tally.reset
def setTal (b : Block) (t : Nat) (x : Tally) : Block := { b with tallies := tput b.tallies t x }
def modTal (b : Block) (t : Nat) (f : Tally → Tally) : Block := setTal b t (f (getTal b t))
def getPart (b : Block) (p : Nat) : Part := tgetD b.parts p Part.reset
def setPart (b : Block) (p : Nat) (x : Part) : Block := { b with parts := tput b.parts p x }
def modPart (b : Block) (p : Nat) (f : Part → Part) : Block := setPart b p (f (getPart b p))
def getPort (b : Block) (p : Nat) : Port := tgetD b.ports p Port.reset
def setPort (b : Block) (p : Nat) (x : Port) : Block := { b with ports := tput b.ports p x }
def modPort (b : Block) (p : Nat) (f : Port → Port) : Block := setPort b p (f (getPort b p))
def getGop (b : Block) (s : Nat) : Gop := tgetD b.gops s Gop.reset
def setGop (b : Block) (s : Nat) (x : Gop) : Block := { b with gops := tput b.gops s x }
def modGop (b : Block) (s : Nat) (f : Gop → Gop) : Block := setGop b s (f (getGop b s))
def getSrc (b : Block) (s : Nat) : Src := tgetD b.ref.srcs s Src.reset
def setSrc (b : Block) (s : Nat) (x : Src) : Block := { b with ref := { b.ref with srcs := tput b.ref.srcs s x } }
def modSrc (b : Block) (s : Nat) (f : Src → Src) : Block := setSrc b s (f (getSrc b s))
def modVault (b : Block) (f : Vault → Vault) : Block := { b with vault := f b.vault }
def getObj (b : Block) (o : Nat) : Obj := tgetD b.vault.objs o Obj.reset
def setObj (b : Block) (o : Nat) (x : Obj) : Block := modVault b (fun v => { v with objs := tput v.objs o x })
def modObj (b : Block) (o : Nat) (f : Obj → Obj) : Block := setObj b o (f (getObj b o))
def modRef (b : Block) (f : Referee → Referee) : Block := { b with ref := f b.ref }
def modMgmt (b : Block) (f : Mgmt → Mgmt) : Block := { b with mgmt := f b.mgmt }
def modPwr (b : Block) (f : Pwr → Pwr) : Block := { b with pwr := f b.pwr }

/-- The strands of station n that the table lists, with their numbers. -/
def stnStrands (b : Block) (n : Nat) : List (Nat × Strand) :=
  (b.strands.filter (fun e => e.1 / 256 = n)).map (fun e => (e.1 % 256, e.2))

/-- Apply an operation for each element of a list, in order. -/
def forEach {α : Type} (l : List α) (b : Block) (f : Block → α → Block) : Block := l.foldl f b

/-- A unique number. -/
def newId (b : Block) : Nat × Block := (b.nextId, { b with nextId := b.nextId + 1 })

/-- Draw a free value: nothing says which number it is. [DESIGN CHOICE: log 6] -/
def draw (b : Block) : Nat × Block := (Config.freeNat b.fresh, { b with fresh := b.fresh + 1 })

/-- Channel settings (R72). -/
def chEnable (b : Block) (n c : Nat) : Bool := rbit b (chR n c 0) 0
def chQorder (b : Block) (n c : Nat) : Bool := rbit b (chR n c 0) 2
def chPrio (b : Block) (n c : Nat) : Nat := rbits b (chR n c 0) 5 3
def chOwner (b : Block) (n c : Nat) : Nat := rbits b (chR n c 0) 11 8
def chReserve (b : Block) (n c : Nat) : Nat := rbits b (chR n c 4) 8 0
def chCap (b : Block) (n c : Nat) : Nat := rbits b (chR n c 4) 24 16
def chRate (b : Block) (n c : Nat) : Nat := rbits b (chR n c 8) 7 0
def chDepth (b : Block) (n c : Nat) : Nat := rbits b (chR n c 8) 26 16
def chLog2 (b : Block) (n c : Nat) : Nat := rbits b (chR n c 0xC) 4 0
def chRing (b : Block) (n c : Nat) : Nat := rget64 b (chR n c 0x10)

/-- Physical address of ring slot of entry index i (R44). -/
def slotAddr (b : Block) (n c : Nat) (i : Word) : Nat := chRing b n c + 32 * (i.toNat % 2 ^ chLog2 b n c)

/-- The partition of a strand: its channel's OWNER. -/
def strandPart (b : Block) (n k : Nat) : Nat := chOwner b n (getStrand b n k).chan

/-! ## Counters (R392 to R400) -/

/-- Address of counter i of a location. -/
def cntAddr (l : CntLoc) (i : Nat) : Nat :=
  match l with
  | .station n => scntB n + 0x100 + 0x10 * i
  | .hub => hcntB + 0x100 + 0x10 * i
  | .port p => lportB p + 0x100 + 0x10 * i
  | .vault => vaultB + 0x100 + 0x10 * i

/-- Table key of counter i of a location. -/
def cntKey (l : CntLoc) (i : Nat) : Nat :=
  match l with
  | .station n => 16 * n + i
  | .hub => 768 + i
  | .port p => 784 + 16 * p + i
  | .vault => 848 + i

/-- Counters of a location (R11). -/
def cntNum (l : CntLoc) : Nat :=
  match l with
  | .station _ => 8
  | .hub => 16
  | .port _ => 4
  | .vault => 4

/-- Events listed for a location (R394): the highest number. -/
def cntEvents (l : CntLoc) : Nat :=
  match l with
  | .station _ => 0x1C
  | .hub => 0x0F
  | .port _ => 0x0A
  | .vault => 0x0A

def getCnt (b : Block) (l : CntLoc) (i : Nat) : Counter := tgetD b.counters (cntKey l i) Counter.reset
def setCnt (b : Block) (l : CntLoc) (i : Nat) (x : Counter) : Block :=
  { b with counters := tput b.counters (cntKey l i) x }

/-- Whether the counters of a location are held: a freeze (R399), a fence of their page (R28, R346), or a clock that does not
run (R395). -/
def cntHeld (b : Block) (l : CntLoc) : Bool :=
  rbit b (hcntB + 0x40) 0 || (match l with
    | .hub => pageFence b hcntB || !b.pwr.hubOn
    | .station n => pageFence b (scntB n) || decide ((getStn b n).power ≠ .active)
    | .port _ => !b.pwr.hubOn
    | .vault => b.vault.st = .off)

/-- Whether a counter with control word w counts an event attributable to partition `owner`, or to none (R392, R394). -/
def cntCounts (l : CntLoc) (w ev : Nat) (owner : Option Nat) : Bool :=
  bit w 8 && bits w 7 0 == ev &&
    (match l with
     | .station _ => !bit w 11 || owner == some (bits w 15 12)
     | _ => true)

/-- Add an amount to one counter (R393, R396). -/
def cntAdd (b : Block) (l : CntLoc) (i amt : Nat) : Block :=
  let x := getCnt b l i
  let a := cntAddr l i
  let old := if rbit b a 9 then x.acc.toNat else x.value.toNat
  let x' := if rbit b a 9 then { x with acc := BitVec.ofNat 48 (old + amt) }
    else { x with value := BitVec.ofNat 48 (old + amt) }
  let b := setCnt b l i x'
  if 2 ^ 48 ≤ old + amt then rsetBits b a 0x400 else b

/-- An event at a location: every counter set to it counts the amount. -/
def count (b : Block) (l : CntLoc) (ev amt : Nat) (owner : Option Nat) : Block :=
  if cntHeld b l then b
  else forEach (List.range (cntNum l)) b (fun b i =>
    if cntCounts l (rget b (cntAddr l i)) ev owner then cntAdd b l i amt else b)

/-- A station event attributable to channel c. -/
def countCh (b : Block) (n c ev amt : Nat) : Block := count b (.station n) ev amt (some (chOwner b n c))

/-! ## Interrupt vectors and causes (R63, R64, R433) -/

/-- The cause register and mask register of a vector. -/
def vecRegs (vec : Nat) : Option (Nat × Nat) :=
  if vec < 1536 then some (dbellB (vec / 32) (vec % 32) + 0x50, chR (vec / 32) (vec % 32) 0x18)
  else if vec < 1552 then some (xpR (vec - 1536) 0x44, xpR (vec - 1536) 0x48)
  else if vec < 1556 then some (lportB (vec - 1552) + 0x50, lportB (vec - 1552) + 0x54)
  else if vec = 1556 then some (vaultB + 0x80, vaultB + 0x84)
  else if vec = 1557 then some (fcB + 0x58, fcB + 0x5C)
  else if vec = 1558 then some (mboxB + 0xB8, mboxB + 0xBC)
  else if vec = 1559 then some (pwrB + 0x84, pwrB + 0x88)
  else none

/-- Whether messages of the vector are sent at all: the referee's and the power controller's only with their page's ENABLE
(R363, R390). -/
def vecOpen (b : Block) (vec : Nat) : Bool :=
  if vec = 1557 then pageEnable b fcB else if vec = 1559 then pageEnable b pwrB else true

/-- Causes AND mask of a vector (R64); zero where the page's ENABLE gates its messages. -/
def vecVal (b : Block) (vec : Nat) : Nat :=
  match vecRegs vec with
  | some (c, m) => if vecOpen b vec then rget b c &&& rget b m else 0
  | none => 0

/-- A message of the vector becomes pending; it merges with one that is pending already (R433). -/
def irqPend (b : Block) (vec : Nat) : Block :=
  if vec ∈ b.irqs then b else { b with irqs := b.irqs ++ [vec] }

/-- Follow a change that may raise a vector's value from zero: then its message becomes pending (R64). -/
def irqAfter (old b : Block) (vec : Nat) : Block :=
  if vecVal old vec = 0 ∧ vecVal b vec ≠ 0 then irqPend b vec else b

/-- Latch causes of a vector. -/
def setCause (b : Block) (vec m : Nat) : Block :=
  match vecRegs vec with
  | some (c, _) => irqAfter b (rsetBits b c m) vec
  | none => b

/-- A write-1-to-clear of a vector's causes: a message follows when it clears a set bit and leaves the value non-zero. -/
def clearCause (b : Block) (vec w : Nat) : Block :=
  match vecRegs vec with
  | some (c, _) =>
    let hit := rget b c &&& w
    let b' := rclrBits b c w
    if hit ≠ 0 ∧ vecVal b' vec ≠ 0 then irqPend b' vec else b'
  | none => b

/-- A write of a vector's mask. -/
def setMask (b : Block) (vec w : Nat) : Block :=
  match vecRegs vec with
  | some (_, m) => irqAfter b (rset b m w) vec
  | none => b

/-! ## Page errors (R28, R40) -/

/-- Record an error on a page: bit i of PAGE_ERR, the captured address and the PAGE_ERR_INFO image. -/
def pageErr (b : Block) (base i addr info : Nat) : Block :=
  let old := rget b (base + 0x10)
  if old = 0 then
    let b := rset b (base + 0x10) (2 ^ i)
    let b := rset b (base + 0x18) addr
    let b := rset b (base + 0x1C) (addr / 2 ^ 32)
    rset b (base + 0x20) info
  else rset b (base + 0x10) (old ||| 2 ^ i ||| 0x10000)

/-- The PAGE_ERR_INFO image: requester, partition, privilege, write, response code, kind (R28). -/
def errInfo (req part priv write resp kind : Nat) : Nat :=
  req % 4096 + part % 16 * 2 ^ 12 + priv % 2 * 2 ^ 16 + write % 2 * 2 ^ 17 + resp % 4 * 2 ^ 18 + kind % 16 * 2 ^ 20

/-! ## Events and records on their way to the referee (R347, R353, R355) -/

/-- Sources with numbers of their own (R346). -/
def srcXlat : Nat := 48
def srcTally : Nat := 49
def srcLink (p : Nat) : Nat := 50 + p
def srcVault : Nat := 54
def srcMgmt : Nat := 55
def srcPmu : Nat := 56
def srcCfg : Nat := 57
def srcSense : Nat := 58
def srcColl : Nat := 59

/-- No strand is concerned. -/
def noUnit : Nat := 0xFFF

/-- A unit's error pin carries an event; the referee samples it later (R347). -/
def signalEv (b : Block) (src kind unit addr detail : Nat) : Block :=
  modRef b (fun r => { r with pins := r.pins ++
    [{ src := src, kind := kind, unit := unit, addr := BitVec.ofNat 64 addr, detail := BitVec.ofNat 64 detail }] })

/-- A record reaches its source's holding buffer, or is lost where the buffer holds 4 (R347, R355). -/
def holdRec (b : Block) (r : Rec) : Block :=
  let s := getSrc b r.src
  if s.hold.length < 4 then setSrc b r.src { s with hold := s.hold ++ [r] }
  else
    let s' := if r.cls = 0 then { s with lostData := satAdd 0xFFFFFFFF s.lostData 1 }
      else { s with lostEv := satAdd 0xFFFFFFFF s.lostEv 1 }
    let b := setSrc b r.src s'
    let b := rcount b (fsR r.src 0xC) 1
    let was := rbit b (fcB + 0x48) 0
    let b := rsetBits b (fcB + 0x48) 1
    if was then b else setCause b 1557 8

/-- A DATA record (R352) as it stands before it is queued. -/
def dataOf (b : Block) (e : Ev) : Rec :=
  { src := e.src, cls := 0, kind := e.kind, unit := e.unit, sev := 0, insvc := (getSrc b e.src).st ≠ .idle, seq := 0,
    time := BitVec.ofNat 64 b.aoTime, addr := e.addr, detail := e.detail }

/-- Raise a content fault: a DATA record goes to the source's holding buffer, behind an EVENT of the source that the
referee has not sampled yet (R132, R364). -/
def dataRec (b : Block) (src kind unit addr detail : Nat) : Block :=
  let e : Ev := { src := src, kind := kind, unit := unit, addr := BitVec.ofNat 64 addr, detail := BitVec.ofNat 64 detail }
  if b.ref.pins.any (fun x => x.src = src) then modRef b (fun r => { r with pins := r.pins ++ [e] })
  else holdRec b (dataOf b e)

/-- A memory error of a unit: PAGE_ERR.MEM with its capture, and an event of the source with its cause (R28, R353). -/
def memErr (b : Block) (src kind unit base addr info cause : Nat) : Block :=
  signalEv (pageErr b base 9 addr info) src kind unit addr (info + cause * 2 ^ 32)

/-- A sensor's event (R346, R369): it concerns no page, so it carries no address, and its cause is 5, other. [DEDUCED:
log 70] [DEDUCED: log 108] -/
def senseEv (b : Block) (kind : Nat) : Block := signalEv b srcSense kind noUnit 0 (5 * 2 ^ 32)

/-- Requesters that no longer wait leave every walk and fault record (R278). -/
def detachReq (b : Block) (gone : Requester → Bool) : Block :=
  { b with walks := (b.walks.map (fun w => { w with reqs := w.reqs.filter (fun r => !gone r) })).filter (fun w =>
             w.running || w.reqs ≠ []),
           parts := b.parts.map (fun e => (e.1, { e.2 with
             recs := e.2.recs.map (fun f => { f with reqs := f.reqs.filter (fun r => !gone r) }) })) }

/-- Whether a requester is a strand of a station, any of its operations or line fetches. -/
def reqOfStrand (n : Nat) (k : Option Nat) : Requester → Bool
  | .chan _ _ => false
  | .line n' k' _ => n' = n && (k = none || k = some k')
  | .op n' k' _ _ => n' = n && (k = none || k = some k')

/-- Whether translation is on for a partition (R266). -/
def partOn (b : Block) (p : Nat) : Bool := rbit b (xpR p 0) 0

/-- Writes that have departed and neither landed nor failed. -/
def liveWr (t : Tab WrReq) : Tab WrReq := t.filter (fun e => !e.2.failed)

/-! ## Whole-block conditions -/

def isDead (b : Block) : Bool := b.ref.dead
def hubOn (b : Block) : Bool := b.pwr.hubOn

/-- A station that runs: active, and not fenced. -/
def stnActive (b : Block) (n : Nat) : Bool := (getStn b n).power = .active
def stnFenced (b : Block) (n : Nat) : Bool := (getStn b n).fenced
/-- A station that may issue bursts and retire instructions (R67, R359). -/
def stnRuns (b : Block) (n : Nat) : Bool :=
  stnActive b n && !stnFenced b n && !isDead b && (getStn b n).resetting ≠ 2

end Sys2Proof.Machine
end

