-- ==== Sys2Proof/Machine/Sync.lean ====
section
/-! DEFINITION. Tallies, releases and acquires: additions, waiters, snapshots, settlement and promotion (R231 to R235, R245
to R256). -/
namespace Sys2Proof.Machine

/-- Number of a scope: the order of nesting (R217). -/
def scopeRank : Scope → Nat
  | .station => 0
  | .chip => 1
  | .system => 2

/-- A coded scope: 0 STATION, 1 CHIP, 2 SYSTEM. -/
def scopeOf (x : Nat) : Scope := if x = 0 then .station else if x = 1 then .chip else .system

/-- The wider of two scopes. -/
def scopeMax (a c : Scope) : Scope := if scopeRank a < scopeRank c then c else a

/-- Whether a flat index names a tally (R6, R245). -/
def talExists (p : Params) (t : Nat) : Bool := t < 8192 + 512 * p.stations

/-- The station of a local tally; none for a global one (R8). -/
def talStn (t : Nat) : Option Nat := if t < 8192 then none else some ((t - 8192) / 512)

/-- Base of the page that shows a tally (R257). -/
def talPage (t : Nat) : Nat :=
  if t < 8192 then gtalB (t / 256) else ltalB ((t - 8192) / 512) ((t - 8192) % 512 / 256)

/-- The test of R97: (v − t) mod 2^48 < 2^47. -/
def talMet (v thr : Nat) : Bool := (v + 2 ^ 48 - thr % 2 ^ 48) % 2 ^ 48 < 2 ^ 47

/-- A tally misuse record and its count (R253). `u` is the strand, window, slot or 0xFFF; `chan` the global channel number
of a ring entry that fails at acceptance. -/
def talMisuse (b : Block) (src unit addr t u : Nat) (ext : Bool) (chan : Option Nat) : Block :=
  let d := t % 2 ^ 15 + b2n ext * 2 ^ 15 + u % 4096 * 2 ^ 16 +
    (match chan with
     | some c => c % 2048 * 2 ^ 28 + 2 ^ 39
     | none => 0)
  rcount (dataRec b src 0x0D unit addr d) (gtalB 0 + 0x44) 1

/-- An addition leaves for its tally (R248). -/
def pushAdd (b : Block) (a : Add) : Block := { b with adds := b.adds ++ [a] }

/-- Additions of one source (R248): a station, the hub's completion actions, the link engine, the global operations. -/
def sameSrc : AddSrc → AddSrc → Bool
  | .station n, .station m => n = m
  | .compl _ _, .compl _ _ => true
  | .arrival, .arrival => true
  | .gop, .gop => true
  | _, _ => false

/-- An addition waits behind an earlier one of its source to another tally of the same unit, the hub or a station (R13,
R248). [DEDUCED: log 119] -/
def addBehind (earlier : List Add) (a : Add) : Bool :=
  earlier.any (fun e => e.tally ≠ a.tally && sameSrc e.src a.src && talStn e.tally = talStn a.tally)

/-- The additions to a tally that wait behind none, and the others: `seen` are the earlier ones that stay. -/
def takeAdds (t : Nat) : List Add → List Add → List Add × List Add
  | _, [] => ([], [])
  | seen, a :: r =>
    if a.tally = t && !addBehind seen a then ((takeAdds t seen r).1.cons a, (takeAdds t seen r).2)
    else ((takeAdds t (seen ++ [a]) r).1, (takeAdds t (seen ++ [a]) r).2.cons a)

/-- The completion signal of an entry of a channel has not been applied (R55, R60). [DEDUCED: log 120] -/
def complAdds (b : Block) (n c : Nat) : Bool := b.adds.any (fun a => a.src = .compl n c)

/-- Request a thaw of a station that is not active (R251, R372). -/
def reqThaw (b : Block) (n : Nat) : Block :=
  let s := getStn b n
  if s.power = .active ∨ s.wakeReq then b
  else count (setStn b n { s with wakeReq := true }) .hub 0x0E 1 none

/-- The release that an addition makes, when it is not settled at SYSTEM from the start (R231). -/
def relOf (a : Add) (id : Nat) : Option Rel :=
  match a.stn with
  | none => none
  | some n => if a.settled = .system then none
    else some { id := id, stn := n, declared := a.declared, settled := a.settled }

/-- A promotion or settlement request for station n (R231, R234). -/
def reqBarrier (b : Block) (n t : Nat) (sc : Scope) : Block :=
  modStn b n (fun s => { s with barReq := s.barReq ++ [(t, sc)] })

/-- Effective scope of an acquire by station m (none: the hub) on a tally's releases (R232). -/
def effScope (m : Option Nat) (declared : Scope) (rels : List Rel) : Scope :=
  if rels.any (fun r => r.settled = .station ∧ some r.stn ≠ m) then scopeMax declared .chip else declared

/-- The acquire of a waiter whose threshold is met: its snapshot, and one promotion request for each station that it names
with a release that does not reach the effective scope by itself (R233, R234). -/
def acquire (b : Block) (t : Nat) (m : Option Nat) (declared : Scope) : Acq × Block :=
  let rels := (getTal b t).rels
  let eff := effScope m declared rels
  let open_ := rels.filter (fun r => scopeRank r.settled < scopeRank eff)
  let stns := ((open_.filter (fun r => scopeRank r.declared < scopeRank eff)).map (·.stn)).eraseDups
  let b := forEach stns b (fun b n => count (reqBarrier b n t eff) .hub 0x0F 1 none)
  ({ tally := t, scope := eff, waits := open_.map (·.id) }, b)

/-- Whether every release of an acquire's snapshot is settled at its effective scope (R233). -/
def acqSettled (b : Block) (a : Acq) : Bool :=
  (getTal b a.tally).rels.all (fun r => !(a.waits.contains r.id) || scopeRank a.scope ≤ scopeRank r.settled)

/-- Put an acquire in place of the wait that a waiter serves. -/
def startAcq (b : Block) (w : Waiter) (a : Acq) : Block :=
  match w.kind with
  | .wait => modStrand b w.stn w.strand (fun s => { s with wait := .acquiring a })
  | .gsrc => modStrand b w.stn w.strand (fun s => { s with guardS := .acquiring a })
  | .gdst => modStrand b w.stn w.strand (fun s => { s with guardD := .acquiring a })
  | .gop i => modGop b i (fun g => { g with acq := .acquiring a })

/-- The station that a waiter acquires for; a global-operation slot acquires for the hub. -/
def waiterStn (w : Waiter) : Option Nat :=
  match w.kind with
  | .gop _ => none
  | _ => some w.stn

/-- A waiter whose threshold is met leaves the list, its acquire takes its snapshot, and a station that sleeps is asked to
thaw (R250, R251). -/
def releaseWaiter (b : Block) (t : Nat) (w : Waiter) : Block :=
  let (a, b) := acquire b t (waiterStn w) w.scope
  let b := startAcq b w a
  let b := count b .hub 0x08 (b2n (talStn t = none)) none
  match waiterStn w with
  | some n => reqThaw b n
  | none => b

/-- Test a tally's waiters in registration order (R250). -/
def testWaiters (b : Block) (t : Nat) : Block :=
  let x := getTal b t
  let met := x.waiters.filter (fun w => talMet x.value.toNat w.thr)
  let b := setTal b t { x with waiters := x.waiters.filter (fun w => !talMet x.value.toNat w.thr) }
  forEach met b (fun b w => releaseWaiter b t w)

/-- Register a waiter and test it (R250). A poisoned tally is the caller's concern (R255). -/
def addWaiter (b : Block) (t : Nat) (w : Waiter) : Block :=
  testWaiters (modTal b t (fun x => { x with waiters := x.waiters ++ [w] })) t

/-- Remove the waiters of strand k of station n, of every kind (R250). -/
def dropWaiters (b : Block) (n k : Nat) : Block :=
  { b with tallies := b.tallies.map (fun e => (e.1, { e.2 with
      waiters := e.2.waiters.filter (fun w => waiterStn w ≠ some n ∨ w.strand ≠ k) })) }

/-- One release enters a tally's value: what is not settled is remembered, and settlement begins when the declared scope is
wider (R231). -/
def addRel (b : Block) (t : Nat) (a : Add) : Block :=
  let (id, b) := newId b
  match relOf a id with
  | none => b
  | some r =>
    let b := modTal b t (fun x => { x with rels := x.rels ++ [r] })
    if scopeRank r.settled < scopeRank r.declared then reqBarrier b r.stn t r.declared else b

/-- Apply additions to a tally as their sum, with WRAP records, then test its waiters (R248, R254). -/
def applyAdds (b : Block) (t : Nat) (l : List Add) : Block :=
  let x := getTal b t
  if x.poison then b
  else
    let sum := (l.map (·.amount)).foldl (· + ·) 0
    let b := setTal b t { x with value := BitVec.ofNat 48 (x.value.toNat + sum) }
    let b := forEach l b (fun b a => addRel b t a)
    let b := if 2 ^ 48 ≤ x.value.toNat + sum ∧ rbit b (talPage t + 0x40) 0 then
        rcount (dataRec b ((talStn t).getD srcTally) 0x0E noUnit 0 (t + sum % 2 ^ 32 * 2 ^ 32)) (talPage t + 0x44) 1
      else b
    let b := match talStn t with
      | none => count b .hub 0x07 1 none
      | some _ => b
    testWaiters b t

/-- Whether a sum queued for a local tally would satisfy one of its waiters (R251). -/
def wakeMeets (x : Tally) (sum : Nat) : Bool :=
  x.waiters.any (fun w => talMet ((x.value.toNat + sum) % 2 ^ 48) w.thr)

/-- The sum of additions. -/
def addSum (l : List Add) : Nat := (l.map (·.amount)).foldl (· + ·) 0

/-- The hub's wake queue of a station takes no further tally (R251). -/
def wakeFull (s : Station) (t : Nat) : Bool := (tget s.wakeQ t).isNone && decide (64 ≤ s.wakeQ.length)

/-- Additions to a local tally of a station that is not active join the hub's wake queue, where they stand as one sum per
tally; they ask for a thaw when the sum satisfies a waiter (R251). Their releases enter the tally with the sum, at thaw. -/
def wakeAdds (b : Block) (n t : Nat) (l : List Add) : Block :=
  let s := getStn b n
  let q := tgetD s.wakeQ t [] ++ l
  let b := setStn b n { s with wakeQ := tput s.wakeQ t q }
  if wakeMeets (getTal b t) (addSum q) then reqThaw b n else b

/-- The sums of a wake queue apply in one step at thaw, and the station's waiters are tested (R251). -/
def applyWake (b : Block) (n : Nat) : Block :=
  let q := (getStn b n).wakeQ
  let b := modStn b n (fun s => { s with wakeQ := [] })
  forEach q b (fun b e => applyAdds b e.1 e.2)

/-- Write identifiers departed and not landed of a station: every path, or without windows (R234). -/
def departedWids (s : Station) (withWindows : Bool) : List Nat :=
  (liveWr s.wrTags).map (fun e => e.2.wid) ++ s.vWrTags.map (fun e => e.2.wid) ++ s.nearWr.map (·.wid) ++
    (if withWindows then s.wWrTags.map (fun e => e.2.wid) else [])

/-- A landing barrier begins for every request the station holds: one barrier serves them all (R234, R242). -/
def beginBarrier (b : Block) (n : Nat) : Block :=
  let s := getStn b n
  if s.barReq = [] then b
  else
    let br : Barrier := { tallies := s.barReq, wids := departedWids s false, far := s.wWrTags.map (fun e => e.2.wid),
                          mark := b.nextId }
    let b := rcount b (ordB n + 0x50) s.barReq.length
    let b := count b (.station n) 0x1C 1 none
    setStn b n { s with barReq := [], barriers := s.barriers ++ [br] }

/-- Settle a station's releases in a tally up to a scope: those the barrier covers (R231, R234). -/
def settle (b : Block) (n t : Nat) (sc : Scope) (mark : Nat) : Block :=
  modTal b t (fun x => { x with rels := x.rels.filterMap (fun r =>
    if r.stn = n ∧ r.id < mark then
      if sc = .system then none else some { r with settled := scopeMax r.settled sc }
    else some r) })

/-- Whether a barrier can report for a scope: its departed writes have landed or failed; SYSTEM waits for window writes
too (R234). -/
def barrierDone (s : Station) (br : Barrier) (sc : Scope) : Bool :=
  let near := departedWids s false
  br.wids.all (fun w => !near.contains w) &&
    (sc ≠ .system || br.far.all (fun w => !(s.wWrTags.map (fun e => e.2.wid)).contains w))

/-- Report what the oldest reportable barrier covers; a barrier with nothing left is done (R234). -/
def reportBarrier (b : Block) (n : Nat) : Block :=
  let s := getStn b n
  match s.barriers.find? (fun br => br.tallies.any (fun e => barrierDone s br e.2)) with
  | none => b
  | some br =>
    let ready := br.tallies.filter (fun e => barrierDone s br e.2)
    let rest := { br with tallies := br.tallies.filter (fun e => !barrierDone s br e.2) }
    let bars := (s.barriers.map (fun x => if x = br then rest else x)).filter (fun x => x.tallies ≠ [])
    let b := setStn b n { s with barriers := bars }
    forEach ready b (fun b e => settle b n e.1 e.2 br.mark)

/-- A tally's pending mask and SYSTEM flag (R245). -/
def talPend (x : Tally) : Nat :=
  maskOf ((x.rels.filter (fun r => scopeRank r.settled < scopeRank r.declared)).map (·.stn))

def talSys (x : Tally) : Bool :=
  x.rels.any (fun r => r.declared = .system ∧ r.settled ≠ .system)

end Sys2Proof.Machine
end

