-- ==== Sys2Proof/Machine/Route.lean ====
section
/-! DEFINITION. Packets, routes and the inbound link agent (R281, R288 to R300, R303). The engine's own chip stands as port 4:
what terminates there without crossing a link waits in its queue. -/
namespace Sys2Proof.Machine

/-! ## Identity (R281, R316) -/

def topoX (b : Block) : Nat := rbits b (linkB + 0x40) 4 0 + 1
def topoY (b : Block) : Nat := rbits b (linkB + 0x40) 9 5 + 1
def myX (b : Block) : Nat := rbits b (linkB + 0x40) 14 10
def myY (b : Block) : Nat := rbits b (linkB + 0x40) 19 15
def chipOf (x y : Nat) : Nat := x + 32 * y
def myChip (b : Block) : Nat := chipOf (myX b) (myY b)

/-- Ports the topology needs: P of a dimension from size 2, N from size 3 (R281). Ports are 0 XP, 1 XN, 2 YP, 3 YN. -/
def portNeeded (b : Block) (p : Nat) : Bool :=
  let s := if p < 2 then topoX b else topoY b
  if p % 2 = 0 then 2 ≤ s else 3 ≤ s

/-- BADTOPO (R282). -/
def badTopology (p : Params) (b : Block) : Bool :=
  (List.range 4).any (fun i => portNeeded b i && p.linkPorts ≤ i) || topoX b ≤ myX b || topoY b ≤ myY b

/-- The neighbour of chip (x, y) through a port (R281). -/
def neighbour (b : Block) (x y p : Nat) : Nat :=
  let X := topoX b
  let Y := topoY b
  match p with
  | 0 => chipOf ((x + 1) % X) y
  | 1 => chipOf ((x + X - 1) % X) y
  | 2 => chipOf x ((y + 1) % Y)
  | _ => chipOf x ((y + Y - 1) % Y)

/-- The partner's port that the cabling gives a port (R282). -/
def cabledPort (b : Block) (p : Nat) : Nat :=
  let s := if p < 2 then topoX b else topoY b
  if s = 2 then p else if p % 2 = 0 then p + 1 else p - 1

/-! ## Packet fields (R288) -/

def pktType (k : Packet) : Nat := bits k.h0.toNat 3 0
def pktMasked (k : Packet) : Bool := bit k.h0.toNat 4
def pktColour (k : Packet) : Bool := bit k.h0.toNat 5
def pktDchip (k : Packet) : Nat := bits k.h0.toNat 15 6
def pktSchip (k : Packet) : Nat := bits k.h0.toNat 25 16
def pktWin (k : Packet) : Nat := bits k.h0.toNat 33 26
def pktSstn (k : Packet) : Nat := bits k.h0.toNat 39 34
def pktTag (k : Packet) : Nat := bits k.h0.toNat 50 40
def pktPoison (k : Packet) : Nat := bits k.h0.toNat 52 51
def pktResp (k : Packet) : Nat := bits k.h0.toNat 55 53
def pktOff (k : Packet) : Nat := bits k.h1.toNat 47 0

/-- Bytes that a WR or RD names. -/
def pktMask (k : Packet) : Nat := if pktMasked k then k.mask.toNat else 2 ^ 128 - 1

/-- A data packet is a request (class REQ); a response otherwise. -/
def pktReq (k : Packet) : Bool := pktType k = 0 || pktType k = 1

/-- Units of a data packet (R289). -/
def pktUnits (k : Packet) : Nat :=
  match pktType k with
  | 0 => if pktMasked k then 10 else 9
  | 1 => if pktMasked k then 2 else 1
  | 3 => 9
  | _ => 1

/-- A packet is ill-formed: reserved type or a reserved bit (R288, R289). -/
def pktBad (k : Packet) : Bool :=
  !([0, 1, 2, 3, 8, 9, 10, 11].contains (pktType k)) ||
    (pktType k ≤ 3 && (bits k.h0.toNat 63 56 ≠ 0 || bits k.h1.toNat 63 48 ≠ 0))

/-- The header word H0 of a data packet. -/
def mkH0 (typ : Nat) (masked colour : Bool) (dchip schip win sstn tag poison resp : Nat) : DWord :=
  BitVec.ofNat 64 (typ % 16 + b2n masked * 2 ^ 4 + b2n colour * 2 ^ 5 + dchip % 1024 * 2 ^ 6 + schip % 1024 * 2 ^ 16 +
    win % 256 * 2 ^ 26 + sstn % 64 * 2 ^ 34 + tag % 2048 * 2 ^ 40 + poison % 4 * 2 ^ 51 + resp % 8 * 2 ^ 53)

/-- The request of a window burst (R294, R299, R300). -/
def mkRequest (b : Block) (write : Bool) (n dchip win off tag mask data poison : Nat) : Packet :=
  let masked := mask ≠ 2 ^ 128 - 1
  { h0 := mkH0 (if write then 0 else 1) masked b.colour dchip (myChip b) win n (if write then tag else tag + 1024) poison 0,
    h1 := BitVec.ofNat 64 (off % 2 ^ 48), mask := BitVec.ofNat 128 mask, data := BitVec.ofNat 1024 data }

/-- The response to a request (R298). -/
def mkResponse (b : Block) (k : Packet) (resp data poison : Nat) : Packet :=
  { h0 := mkH0 (if pktType k = 0 then 2 else 3) false b.colour (pktSchip k) (pktSchip k) (pktWin k) (pktSstn k) (pktTag k)
      poison resp,
    h1 := 0, mask := 0, data := BitVec.ofNat 1024 data }

/-! ## Routes (R290, R291) -/

/-- Direction in a dimension of size s: none, or true for P. -/
def dimStep (s own dst : Nat) : Option Bool :=
  let d := (dst + s - own % s) % s
  if d = 0 then none else if d ≤ s / 2 then some true else some false

/-- Port by which a packet for a chip leaves; none for the own chip. -/
def routePort (b : Block) (chip : Nat) : Option Nat :=
  match dimStep (topoX b) (myX b) (chip % 32) with
  | some true => some 0
  | some false => some 1
  | none => match dimStep (topoY b) (myY b) (chip / 32) with
    | some true => some 2
    | some false => some 3
    | none => none

/-- Port by which a packet leaves chip (x, y) for a chip. -/
def routeFrom (b : Block) (x y chip : Nat) : Option Nat :=
  match dimStep (topoX b) x (chip % 32) with
  | some true => some 0
  | some false => some 1
  | none => match dimStep (topoY b) y (chip / 32) with
    | some true => some 2
    | some false => some 3
    | none => none

/-- The hop through a port crosses the dateline (R291). -/
def crosses (b : Block) (p : Nat) : Bool :=
  let s := if p < 2 then topoX b else topoY b
  let o := if p < 2 then myX b else myY b
  3 ≤ s && (if p % 2 = 0 then o + 1 = s else o = 0)

/-- Channel B is used on a hop: the hop crosses, or the packet came on B in the same dimension. -/
def hopB (b : Block) (src vcIn out : Nat) : Bool :=
  crosses b out || (src < 4 && src / 2 = out / 2 && vcIn % 2 = 1)

/-- Virtual channel of a data packet on an output: REQ-A 0, REQ-B 1, RSP-A 2, RSP-B 3. -/
def hopVc (b : Block) (src vcIn out : Nat) (k : Packet) : Nat := (if pktReq k then 0 else 2) + b2n (hopB b src vcIn out)

/-- A port takes new packets: UP, not draining and not fenced (R290, R302, R303). -/
def portOpen (pt : Port) : Bool := pt.st = .up && !pt.closing && !pt.fenced

/-- The inbound window that a packet names, latched when its header arrives (R296, R319): control word, tally word, length
and base. -/
def latchWin (b : Block) (k : Packet) : Nat :=
  if pktReq k then
    let w := pktWin k
    rget b (iwR w 0) + 2 ^ 32 * rget b (iwR w 4) + 2 ^ 64 * rget64 b (iwR w 8) + 2 ^ 128 * rget64 b (iwR w 0x10)
  else 0

def winCtl (l : Nat) : Nat := bits l 31 0
def winTally (l : Nat) : Nat := bits l 46 32
def winLen (l : Nat) : Nat := bits l 127 64
def winBase (l : Nat) : Nat := bits l 191 128
def winStn (l : Nat) : Nat := bits l 13 8
def winScratch (l : Nat) : Bool := bit l 3

/-- A packet that terminates at the own chip without a link waits in port 4's queue. -/
def termLocal (b : Block) (k : Packet) : Block :=
  modPort b 4 (fun pt => { pt with inQ := pt.inQ ++ [⟨if pktReq k then 0 else 2, k, latchWin b k, []⟩] })

/-- Units of a packet leave the pools of the port by which it came: the credit of each returns to the pool that it was charged
to, with a later flit (R287). Packets of the own chip hold no units. -/
def poolFree (b : Block) (src : Nat) (pools : List Nat) : Block :=
  if pools = [] then b
  else modPort b src (fun pt => { pt with retCred := pools.foldl (fun l i => l.modify i (· + 1)) pt.retCred })

/-- Discard a packet and count it. -/
def dropPkt (b : Block) : Block := rcount b (linkB + 0x50) 1

/-- Send a response on its way: to the own chip, to an open port, or nowhere (R303); dead ball sends none (R304). -/
def sendRsp (b : Block) (src vcIn : Nat) (k : Packet) : Block :=
  if isDead b then b
  else match routePort b (pktDchip k) with
  | none => termLocal b k
  | some o =>
    if portOpen (getPort b o) then
      modPort b o (fun pt => { pt with outQ := pt.outQ ++ [⟨src, hopVc b src vcIn o k, k, []⟩] })
    else dropPkt b

/-- Send a packet on its way; a request whose port does not take it is answered DOWN (R298, R303). -/
def sendPkt (b : Block) (src vcIn : Nat) (k : Packet) : Block :=
  if !pktReq k then sendRsp b src vcIn k
  else match routePort b (pktDchip k) with
  | none => termLocal b k
  | some o =>
    if portOpen (getPort b o) then
      modPort b o (fun pt => { pt with outQ := pt.outQ ++ [⟨src, hopVc b src vcIn o k, k, []⟩] })
    else sendRsp b 4 0 (mkResponse b k 3 0 0)

/-! ## The inbound link agent (R296, R298, R299) -/

/-- The LINK source of the port by which a packet arrived; the engine's own faults are LINK0's (R301). -/
def linkSrc (p : Nat) : Nat := srcLink (if p < 4 then p else 0)

/-- The receiving station's access failed (R298): PAGE_ERR.MEM of the LINK page and an event of the port's source. -/
def linkAccessErr (b : Block) (port : Nat) (k : Packet) (write : Bool) (addr cause : Nat) : Block :=
  memErr b (linkSrc port) 0x4A noUnit linkB addr (errInfo (pktWin k) 0 0 (b2n write) 0 (if write then 3 else 4)) cause

/-- An inbound write has landed: its arrival count is on its way, and the acknowledgement follows the addition; without a
count, or with a tally that does not exist, it leaves at once (R235, R252, R299). -/
def arrivalAdd (p : Params) (b : Block) (port : Nat) (k : Packet) (l : Nat) : Block :=
  let ack := mkResponse b k 0 0 0
  if !bit (winCtl l) 5 then sendRsp b 4 0 ack
  else
    let amt := if bit (winCtl l) 4 then 1 else popCount 128 (pktMask k)
    if talExists p (winTally l) then
      pushAdd b { src := .arrival, tally := winTally l, amount := amt, stn := none, declared := .system, settled := .system,
                  ack := some ack }
    else sendRsp (talMisuse b (linkSrc port) (pktWin k) 0 (winTally l) (pktWin k) true none) 4 0 ack

/-- An inbound write has landed or failed: its count is added, then its response leaves (R299). -/
def linkWriteDone (p : Params) (b : Block) (port : Nat) (k : Packet) (l : Nat) (ok : Bool) (addr cause : Nat) : Block :=
  if ok then arrivalAdd p b port k l
  else sendRsp (linkAccessErr b port k true addr cause) 4 0 (mkResponse b k 2 0 0)

/-- An inbound read has returned (R300): bytes outside the mask are 0. -/
def linkReadDone (b : Block) (port : Nat) (k : Packet) (ok : Bool) (data poison addr cause : Nat) : Block :=
  if ok then sendRsp b 4 0 (mkResponse b k 0 data poison)
  else sendRsp (linkAccessErr b port k false addr cause) 4 0 (mkResponse b k 2 0 0)

/-- An inbound access is refused (R296). -/
def linkRefuse (b : Block) (k : Packet) (resp : Nat) : Block :=
  sendRsp (rcount b (iwR (pktWin k) 0x18) 1) 4 0 (mkResponse b k resp 0 0)

/-- Inbound accesses that wait for a station are answered UNAVAIL when it is fenced (R315). -/
def linkUnavail (b : Block) (n : Nat) : Block :=
  let q := (getStn b n).inQ
  forEach q (modStn b n (fun st => { st with inQ := [] })) (fun b e => linkRefuse (poolFree b e.src e.pools) e.pkt 4)

/-- Address of an inbound access: physical for MEM, a tile byte for SCRATCH. -/
def linkAddr (k : Packet) (l : Nat) : Nat := (winBase l + pktOff k) % 2 ^ 64

/-- The link agent's next access of a station in a direction and space. -/
def linkNext (st : Station) (write scratch : Bool) : Option LinkAcc :=
  st.inQ.find? (fun e => (pktType e.pkt = 0) == write && winScratch e.win == scratch)

end Sys2Proof.Machine
end

