-- ==== Sys2Proof/Machine/Flits.lean ====
section
/-! DEFINITION. Flits (R284 to R288): the 256 bytes on the wire, their CRC, the units of packets, and what a unit beyond
correction does to its packet. -/
namespace Sys2Proof.Machine

/-! ## CRC-64 (R285) -/

/-- Generator polynomial of the CRC. -/
def crcPoly : Nat := 0x42F0E1EBA9EA3693

/-- The generator polynomial with its bits in reverse order, as a reflected division uses it. -/
def crcPolyR : Nat := 0xC96C5795D7870F42

/-- The low n bits in reverse order. -/
def reflect : Nat → Nat → Nat
  | 0, _ => 0
  | n + 1, x => x % 2 * 2 ^ n + reflect n (x / 2)

/-- One bit of the reflected division. -/
def crcBit (c : Nat) : Nat := if c % 2 = 1 then (c >>> 1) ^^^ crcPolyR else c >>> 1

/-- The remainder after one more byte. -/
def crcByte (c x : Nat) : Nat := crcBit (crcBit (crcBit (crcBit (crcBit (crcBit (crcBit (crcBit (c ^^^ x))))))))

/-- CRC-64 of bytes in ascending order: initial value all ones, final XOR of all ones. -/
def crc64 (l : List Nat) : Nat := l.foldl crcByte (2 ^ 64 - 1) ^^^ (2 ^ 64 - 1)

/-- The CRC of a flit's bytes 0 to 247. -/
def flitCrc (raw : Nat) : Nat := crc64 ((List.range 248).map (byteAt raw))

/-! ## The link control word (R284) -/

def lcwSeq (raw : Nat) : BitVec 16 := BitVec.ofNat 16 (bits raw 15 0)
def lcwAck (raw : Nat) : BitVec 16 := BitVec.ofNat 16 (bits raw 31 16)
def lcwVc (raw : Nat) : Nat := bits raw 34 32
def lcwShared (raw : Nat) : Bool := bit raw 35
def lcwUnits (raw : Nat) : Nat := bits raw 39 36
def lcwNak (raw : Nat) : Bool := bit raw 40
def lcwCrvc (raw : Nat) : Nat := bits raw 43 41
def lcwCredits (raw : Nat) : Nat := bits raw 51 44

/-- Unit i of a flit's body. -/
def flitUnit (raw i : Nat) : Nat := bits raw (64 + 128 * i + 127) (64 + 128 * i)

/-- The valid units of a flit's body. -/
def flitUnits (raw : Nat) : List Nat := (List.range (lcwUnits raw)).map (flitUnit raw)

/-- A flit with a good CRC that its reserved fields break: reserved bits, a reserved channel, or units in an idle flit.
[DEDUCED: log 42] -/
def lcwBad (raw : Nat) : Bool :=
  bits raw 63 52 ≠ 0 || lcwVc raw = 5 || lcwVc raw = 6 || (lcwVc raw = 7 && lcwUnits raw ≠ 0)

/-- A flit of a control word and the units of a body: the CRC stands in bytes 248 to 255. -/
def mkFlit (seq ack : BitVec 16) (vc : Nat) (shared nak : Bool) (crvc credits : Nat) (units : List Nat) : SLine :=
  let lcw := seq.toNat + ack.toNat * 2 ^ 16 + vc % 8 * 2 ^ 32 + b2n shared * 2 ^ 35 + units.length % 16 * 2 ^ 36 +
    b2n nak * 2 ^ 40 + crvc % 8 * 2 ^ 41 + credits % 256 * 2 ^ 44
  let body := (units.zipIdx).foldl (fun a e => a + e.1 % 2 ^ 128 * 2 ^ (64 + 128 * e.2)) lcw
  BitVec.ofNat 2048 (body + flitCrc body * 2 ^ 1984)

/-! ## Units of a packet (R288, R289) -/

/-- Whether a packet carries a line. -/
def pktPays (k : Packet) : Bool := pktType k = 0 || pktType k = 3

/-- Whether a packet carries a mask unit. -/
def pktHasMask (k : Packet) : Bool := pktReq k && pktMasked k

/-- The units of a packet: header, mask, payload. -/
def unitsOf (k : Packet) : List Nat :=
  [k.h0.toNat + k.h1.toNat * 2 ^ 64] ++ (if pktHasMask k then [k.mask.toNat] else []) ++
    (if pktPays k then (List.range 8).map (fun (i : Nat) => bits k.data.toNat (128 * i + 127) (128 * i)) else [])

/-- The packet that begins with a header unit. -/
def headOf (u : Nat) : Packet :=
  { h0 := BitVec.ofNat 64 u, h1 := BitVec.ofNat 64 (u / 2 ^ 64), mask := 0, data := 0 }

/-- The packet of its units, as many as its header asks for. -/
def packetOf (l : List Nat) : Packet :=
  let k := headOf (l.headD 0)
  let rest := if pktHasMask k then l.drop 2 else l.drop 1
  { k with mask := if pktHasMask k then BitVec.ofNat 128 (l.getD 1 0) else 0,
           data := if pktPays k then BitVec.ofNat 1024 ((rest.zipIdx).foldl (fun a e => a + e.1 * 2 ^ (128 * e.2)) 0) else 0 }

/-- Cut the unit stream of a channel into the packets that it holds whole; each unit stands with the pool that it is charged
to. A packet of reserved type is its header alone. [DEDUCED: log 35] -/
def cutPackets : Nat → List (Nat × Nat) → List (Packet × List Nat) × List (Nat × Nat)
  | 0, l => ([], l)
  | _ + 1, [] => ([], [])
  | f + 1, u :: t =>
    let l := u :: t
    let n := pktUnits (headOf u.1)
    if l.length < n then ([], l)
    else
      let (ps, rest) := cutPackets f (l.drop n)
      ((packetOf ((l.take n).map (·.1)), (l.take n).map (·.2)) :: ps, rest)

/-! ## Units beyond correction (R287) -/

/-- A packet whose units of `bad` have been lost in the pool or the replay buffer: a lost payload unit poisons its 64-byte word;
with a lost header or mask unit there is no packet left. [DEDUCED: log 141] -/
def spoil (k : Packet) (bad : Nat) : Option Packet :=
  let h := if pktHasMask k then 2 else 1
  if bad % 2 ^ h ≠ 0 then none
  else
    let lost := maskOf ((List.range 2).filter (fun w => bits (bad / 2 ^ h) (4 * w + 3) (4 * w) ≠ 0))
    if pktPays k then some { k with h0 := k.h0 ||| BitVec.ofNat 64 (lost * 2 ^ 51) } else some k

end Sys2Proof.Machine
end

