-- ==== Sys2Proof/Machine/Operands.lean ====
section
/-! DEFINITION. Operand forms: the encodings of mover units (R76 to R104), the fields of a descriptor (R108 to R114), the
geometry of a tile (R113 to R129), and the bursts and lines it forms (R124, R125). -/
namespace Sys2Proof.Machine

/-! ## Mover units (R75, R76) -/

/-- Opcode of a unit whose first word is w0. -/
def opcode (w0 : Nat) : Nat := w0 % 256

/-- The bits of W0 and W1 that an instruction's encoding lists; every other bit is reserved. W1 of LOOP and SETX and the
IMM of MOVEB depend on W0. -/
def unitMask (w0 : Nat) : Option (Nat × Nat) :=
  let all := 2 ^ 64 - 1
  match opcode w0 with
  | 0x01 => some (0xFF, 0)
  | 0x02 => some (0xFF, 0)
  | 0x03 => some (0xFF ||| span 9 8 ||| span 12 10 ||| span 19 16 ||| span 63 32, 0)
  | 0x04 => some (0xFF ||| span 9 8 ||| span 12 10 ||| span 21 16 ||| span 47 24, if bits w0 9 8 = 0 then all else 0)
  | 0x05 => some (0xFF, 0)
  | 0x10 => some (0xFF ||| span 9 8 ||| span 39 16, all)
  | 0x11 => some (0xFF ||| span 14 8 ||| span 39 16 ||| (if bits w0 9 8 = 1 then 0 else span 63 48), all)
  | 0x12 => some (0xFF ||| span 39 16, all)
  | 0x13 => some (0xFF ||| span 39 16, all)
  | 0x14 => some (0xFF ||| span 12 8 ||| span 21 16, if bits w0 12 11 = 0 ∨ bits w0 12 11 = 3 then all else 0)
  | 0x20 => some (0xFF ||| span 22 8 ||| span 29 24 ||| span 47 32, all)
  | 0x21 => some (0xFF ||| span 22 8 ||| span 27 24 ||| span 47 32, 0)
  | 0x22 => some (0xFF ||| span 9 8, 0)
  | 0x30 => some (0xFF ||| span 9 8 ||| span 23 16, span 56 0)
  | 0x31 => some (0xFF ||| span 10 8 ||| span 21 16, span 56 0)
  | 0x32 => some (0xFF ||| span 10 8 ||| span 63 16, span 56 0)
  | _ => none

/-- A field holds a value that the unit's encoding marks reserved (R77). -/
def unitReservedValue (w0 : Nat) : Bool :=
  match opcode w0 with
  | 0x03 => bits w0 9 8 = 3
  | 0x04 => bits w0 9 8 = 3
  | 0x11 => bits w0 9 8 = 3
  | 0x20 => bits w0 29 28 = 3
  | 0x21 => bits w0 27 26 = 3
  | 0x32 => 4 ≤ bits w0 10 8
  | _ => false

/-- The unit breaks a rule that needs no strand state: opcode, reserved bits, reserved values (R77). -/
def unitIllegal (w0 w1 : Nat) : Bool :=
  match unitMask w0 with
  | none => true
  | some (m0, m1) => clearBits w0 m0 ≠ 0 || clearBits w1 m1 ≠ 0 || unitReservedValue w0

/-! ## Descriptor fields (R108, R109) -/

def dW (d k : Nat) : Nat := wordAt d k
def dN (d : Nat) : Nat := bits (dW d 0) 2 0 + 1
def dClip (d : Nat) : Bool := bit (dW d 0) 3
def dSspace (d : Nat) : Nat := bits (dW d 0) 5 4
def dDspace (d : Nat) : Nat := bits (dW d 0) 7 6
def dSfmt (d : Nat) : Nat := bits (dW d 0) 12 8
def dDfmt (d : Nat) : Nat := bits (dW d 0) 17 13
def dPadmode (d : Nat) : Nat := bits (dW d 0) 19 18
def dSwap (d : Nat) : Nat := bits (dW d 0) 22 20
def dSwapDst (d : Nat) : Bool := bit (dW d 0) 23
def dPolicy (d : Nat) : Bool := bit (dW d 0) 24
def dShp (d : Nat) : Bool := bit (dW d 0) 25
def dCodec (d : Nat) : Nat := bits (dW d 0) 27 26
def dTdim (d : Nat) : Nat := bits (dW d 0) 30 28
def dSideOff (d : Nat) : Int := sgn 24 (bits (dW d 0) 55 32)
def dEdim (d : Nat) : Nat := bits (dW d 0) 58 56
def dEen (d : Nat) : Bool := bit (dW d 0) 59
def dSbase (d : Nat) : Nat := bits (dW d 1) 56 0
def dDbase (d : Nat) : Nat := bits (dW d 2) 56 0
def dPadc (d : Nat) : Nat := bits (dW d 3) 31 0
def dDen (d i : Nat) : Bool := bit (dW d 3) (32 + 4 * i + 3)
def dDreg (d i : Nat) : Nat := bits (dW d 3) (32 + 4 * i + 2) (32 + 4 * i)
def dSstr (d i : Nat) : Int := sgn 32 (bits (dW d (4 + i)) 31 0)
def dDstr (d i : Nat) : Int := sgn 32 (bits (dW d (4 + i)) 63 32)
def dExt (d i : Nat) : Nat := bits (dW d (12 + i / 4)) (16 * (i % 4) + 15) (16 * (i % 4)) + 1
def dPad (d i : Nat) : Nat := bits (dW d 14) (4 * i + 3) (4 * i)
def dEbound (d : Nat) : Nat := bits (dW d 14) 63 32
def dGsTally (d : Nat) : Nat := bits (dW d 15) 14 0
def dGsEn (d : Nat) : Bool := bit (dW d 15) 15
def dGdTally (d : Nat) : Nat := bits (dW d 15) 30 16
def dGdEn (d : Nat) : Bool := bit (dW d 15) 31
def dGlvl (d : Nat) : Nat := bits (dW d 15) 34 32
def dGstep (d : Nat) : Nat := bits (dW d 15) 43 36
def dGsOff (d : Nat) : Int := sgn 10 (bits (dW d 15) 53 44)
def dGdOff (d : Nat) : Int := sgn 10 (bits (dW d 15) 63 54)

/-- A coded space (R109). -/
def spaceOf (x : Nat) : Space :=
  if x = 0 then .mem else if x = 1 then .scratch else if x = 2 then .window else .vault

def spaceCode : Space → Nat
  | .mem => 0
  | .scratch => 1
  | .window => 2
  | .vault => 3

/-- Width of an element format in bits; none for a reserved code (R110). -/
def fmtW (f : Nat) : Option Nat :=
  match f with
  | 0x00 => some 8 | 0x01 => some 16 | 0x02 => some 32 | 0x03 => some 64 | 0x04 => some 4
  | 0x08 => some 32 | 0x09 => some 16 | 0x0A => some 16 | 0x0B => some 8 | 0x0C => some 8
  | 0x10 => some 8 | 0x11 => some 8 | 0x12 => some 6 | 0x13 => some 6 | 0x14 => some 4 | 0x15 => some 8
  | 0x18 => some 8 | 0x19 => some 4
  | _ => none

/-- Width, 8 for a reserved code (which the checks refuse). -/
def fmtWidth (f : Nat) : Nat := (fmtW f).getD 8

/-- A raw format (R110). -/
def fmtRaw (f : Nat) : Bool := f ≤ 4

/-- Reserved bits of D0 to D15 that must be 0 (R108, R109, R111). -/
def descReserved (d : Nat) : Bool :=
  bit (dW d 0) 31 || bits (dW d 0) 63 60 ≠ 0 || bits (dW d 1) 63 57 ≠ 0 || bits (dW d 2) 63 57 ≠ 0 || bit (dW d 15) 35

/-- Reserved values of PADMODE, SWAP, CODEC, SFMT and DFMT (R130). -/
def descReservedValue (d : Nat) : Bool :=
  dPadmode d = 3 || 5 ≤ dSwap d || dCodec d = 3 || (fmtW (dSfmt d)).isNone || (fmtW (dDfmt d)).isNone

/-! ## Tile geometry -/

/-- Sum of products of coordinates and strides. -/
def dot : List Int → List Nat → Int
  | s :: ss, j :: js => s * j + dot ss js
  | _, _ => 0

/-- Widths of an operation's source and destination elements. -/
def mvWs (m : Mv) : Nat := fmtWidth (dSfmt m.d)
def mvWd (m : Mv) : Nat := fmtWidth (dDfmt m.d)
def mvSspace (m : Mv) : Space := spaceOf (dSspace m.d)
def mvDspace (m : Mv) : Space := spaceOf (dDspace m.d)

/-- The whole tile is written: scratch destinations, and others without CLIP_WRITE (R120). -/
def mvWhole (m : Mv) : Bool := mvDspace m = .scratch || !dClip m.d

/-- Requested extents U_d, then valid extents V_d (R113), for edge index k and captured extent registers x. -/
def reqExt (d k : Nat) (x : List (Option DWord)) (i : Nat) : Nat :=
  if dDen d i then ((x.getD (dDreg d i) none).getD 0).toNat
  else if dEen d && i == dEdim d then dEbound d - k * dExt d i
  else dExt d i - dPad d i

def valExt (d k : Nat) (x : List (Option DWord)) (i : Nat) : Nat := min (reqExt d k x i) (dExt d i - dPad d i)

/-- The dimensions of a descriptor with their valid extents. -/
def dimsOf (d k : Nat) (x : List (Option DWord)) : List Dim :=
  (List.range (dN d)).map (fun i =>
    { ss := dSstr d i, ds := dDstr d i, ext := dExt d i, pad := dPad d i, val := valExt d k x i })

/-- A MOVE is empty when some valid extent is 0 (R122). -/
def mvEmpty (m : Mv) : Bool := m.dims.any (fun x => x.val = 0)

/-- Dimensions that overshoot (R123), and the detail of the record. -/
def overDims (d k : Nat) (x : List (Option DWord)) : List Nat :=
  (List.range (dN d)).filter (fun i => dDen d i && dExt d i - dPad d i < reqExt d k x i)

def overDetail (d k : Nat) (x : List (Option DWord)) : Nat :=
  match overDims d k x with
  | [] => 0
  | i :: t => i + maskOf (i :: t) * 2 ^ 8 + min (2 ^ 48 - 1) (reqExt d k x i - (dExt d i - dPad d i)) * 2 ^ 16

/-- Position j is in bounds (R113). -/
def inBounds : List Dim → List Nat → Bool
  | x :: xs, j :: js => x.pad ≤ j && j < x.pad + x.val && inBounds xs js
  | _, _ => true

/-- Source coordinate of a position. -/
def srcCoord (dims : List Dim) (j : List Nat) : List Nat := List.zipWith (fun x i => i - x.pad) dims j

/-- Bit addresses of an element (R115). -/
def srcBit (m : Mv) (j : List Nat) : Nat :=
  wrapInt 67 (8 * (m.sb : Int) + mvWs m * dot (m.dims.map (·.ss)) (srcCoord m.dims j))
def dstBit (m : Mv) (j : List Nat) : Nat :=
  wrapInt 67 (8 * (m.db : Int) + mvWd m * dot (m.dims.map (·.ds)) j)

/-- All positions of a box, dimension 0 fastest. -/
def positions : List Nat → List (List Nat)
  | [] => [[]]
  | e :: es => (positions es).flatMap (fun js => (List.range e).map (fun j => j :: js))

/-- Block side of a transposition (R127). -/
def blockSide (wd : Nat) : Nat := 1024 / wd

/-- Positions in generation order (R126); `rows`: the order in which a block's rows are read. -/
def genOrder (exts : List Nat) (t side : Nat) (rows : Bool) : List (List Nat) :=
  if t = 0 then positions exts
  else
    let e0 := exts.getD 0 1
    let et := exts.getD t 1
    let rest := (exts.drop 1).eraseIdx (t - 1)
    let outer := positions (ceilDiv e0 side :: ceilDiv et side :: rest)
    outer.flatMap (fun o =>
      let b0 := o.getD 0 0 * side
      let bt := o.getD 1 0 * side
      let others := o.drop 2
      let n0 := min side (e0 - b0)
      let nt := min side (et - bt)
      let cell := fun (a c : Nat) => (b0 + a) :: (others.insertIdx (t - 1) (bt + c))
      if rows then (List.range nt).flatMap (fun c => (List.range n0).map (fun a => cell a c))
      else (List.range n0).flatMap (fun a => (List.range nt).map (fun c => cell a c)))

/-- Positions of an operation in generation order, and in the order its source is read. -/
def mvPositions (m : Mv) : List (List Nat) :=
  genOrder (m.dims.map (·.ext)) (dTdim m.d) (blockSide (mvWd m)) false
def mvReadOrder (m : Mv) : List (List Nat) :=
  (genOrder (m.dims.map (·.ext)) (dTdim m.d) (blockSide (mvWd m)) true).filter (inBounds m.dims)

/-- The positions that a MOVE writes, in generation order (R120). -/
def mvWritten (m : Mv) : List (List Nat) :=
  if mvWhole m then mvPositions m else (mvPositions m).filter (inBounds m.dims)

/-- Bytes of the bits [a, a + w). -/
def bytesOf (a w : Nat) : List Nat := (List.range ((a + w - 1) / 8 + 1 - a / 8)).map (fun i => (a / 8 + i) % 2 ^ 64)

/-- Bounds of a strided operand (R129): coordinate ranges [a, b] per dimension. -/
def boundBits (base w : Nat) : List (Int × Nat × Nat) → Int × Int
  | [] => (8 * (base : Int), 8 * (base : Int) + w - 1)
  | (s, a, c) :: t =>
    let (lo, hi) := boundBits base w t
    (lo + w * min ((a : Int) * s) (c * s), hi + w * max ((a : Int) * s) (c * s))

/-- First and last byte of a footprint, exact (R129). -/
def boundBytes (base w : Nat) (l : List (Int × Nat × Nat)) : Int × Int :=
  let (lo, hi) := boundBits base w l
  (lo / 8, hi / 8)

/-- Footprint of the source and of the destination (R129). -/
def srcFoot (m : Mv) : Int × Int :=
  boundBytes m.sb (mvWs m) (m.dims.map (fun x => (x.ss, 0, x.val - 1)))
def dstFoot (m : Mv) : Int × Int :=
  boundBytes m.db (mvWd m) (m.dims.map (fun x =>
    if mvWhole m then (x.ds, 0, x.ext - 1) else (x.ds, x.pad, x.pad + x.val - 1)))

/-! ## Bursts and lines (R118, R124, R125) -/

/-- A burst or line of an operation: operand, space, line number and byte mask. -/
structure Burst where
  opd   : Nat
  space : Space
  line  : Nat
  mask  : Nat
  deriving DecidableEq, Repr

/-- Bytes of a line of a space. -/
def lineBytes (s : Space) : Nat := if s = .scratch then 256 else 128

/-- Form bursts from bytes in order: consecutive bytes of one line share a burst (R124). -/
def formBursts (opd : Nat) (sp : Space) : List Nat → List Burst → List Burst
  | [], acc => acc.reverse
  | a :: t, acc =>
    let n := lineBytes sp
    match acc with
    | c :: cs =>
      if c.line = a / n ∧ c.opd = opd then formBursts opd sp t ({ c with mask := c.mask ||| 2 ^ (a % n) } :: cs)
      else formBursts opd sp t ({ opd := opd, space := sp, line := a / n, mask := 2 ^ (a % n) } :: acc)
    | [] => formBursts opd sp t [{ opd := opd, space := sp, line := a / n, mask := 2 ^ (a % n) }]

/-- The holding register as a queue of held lines, oldest first, and the lines it has written out by then (R125). `cap` is 2 for
128-byte lines and 1 for scratch lines. -/
def holdGo (opd : Nat) (sp : Space) (cap : Nat) : List Nat → List Burst → List Burst → List Burst × List Burst
  | [], held, out => (held, out.reverse)
  | a :: t, held, out =>
    let n := lineBytes sp
    if held.any (fun h => h.line = a / n) then
      holdGo opd sp cap t (held.map (fun h => if h.line = a / n then { h with mask := h.mask ||| 2 ^ (a % n) } else h)) out
    else
      let new : Burst := { opd := opd, space := sp, line := a / n, mask := 2 ^ (a % n) }
      if held.length < cap then holdGo opd sp cap t (held ++ [new]) out
      else match held with
        | [] => holdGo opd sp cap t [new] out
        | h :: hs => holdGo opd sp cap t (hs ++ [new]) (h :: out)

/-- The held lines and those written out after a list of written bytes has entered the holding register. -/
def packGo (opd : Nat) (sp : Space) (l : List Nat) : List Burst × List Burst :=
  holdGo opd sp (if sp = .scratch then 1 else 2) l [] []

/-- Lines that a list of written bytes forms in the holding register. -/
def packLines (opd : Nat) (sp : Space) (l : List Nat) : List Burst := (packGo opd sp l).2 ++ (packGo opd sp l).1

/-- Source bytes in the order they are read (R118). -/
def mvSrcBytes (m : Mv) : List Nat := (mvReadOrder m).flatMap (fun j => bytesOf (srcBit m j) (mvWs m))

/-- Destination bytes in the order positions write them. -/
def mvDstBytes (m : Mv) : List Nat := (mvWritten m).flatMap (fun j => bytesOf (dstBit m j) (mvWd m))

/-! ## Swapping (R128) -/

/-- Reverse groups of `g` units of `u` bits in an element of `w` bits. -/
def swapGroups (u g w x : Nat) : Nat :=
  (List.range (w / u)).foldl (fun acc i =>
    acc + bits x (u * i + u - 1) (u * i) * 2 ^ (u * (i / g * g + (g - 1 - i % g)))) 0

/-- SWAP on an element of width w. -/
def swapElem (code w x : Nat) : Nat :=
  match code with
  | 1 => swapGroups 8 2 w x
  | 2 => swapGroups 8 4 w x
  | 3 => swapGroups 16 2 w x
  | 4 => swapGroups 8 8 w x
  | _ => x

/-- Whether SWAP admits the width (R128). -/
def swapOk (code w : Nat) : Bool :=
  match code with
  | 0 => true
  | 1 => w = 16 || w = 32 || w = 64
  | 2 => w = 32 || w = 64
  | 3 => w = 32 || w = 64
  | 4 => w = 64
  | _ => false

/-- The conditions of R116 on one side. -/
def sideAligned (base w : Nat) (str : List Int) : Bool :=
  if 8 ≤ w then base % (w / 8) = 0
  else str.headD 1 = 1 && (str.drop 1).all (fun s => (s * w) % 8 = 0)

/-- The conditions of R127. -/
def tdimOk (d : Nat) : Bool :=
  let t := dTdim d
  t = 0 || (t < dN d && dSstr d 0 = 1 && dDstr d t = 1 && [4, 8, 16, 32].contains (fmtWidth (dDfmt d)) && dCodec d ≠ 2)

end Sys2Proof.Machine
end

