-- ==== Sys2Proof/Machine/Submission.lean ====
section
/-! DEFINITION. Channels and strands: ring reads and acceptance (R50), completion actions (R60), stopping (R65 to R67, R106),
dispatch (R53), the instruction buffer (R82) and the sequencer's selection (R79). -/
namespace Sys2Proof.Machine

/-! ## Arbitration (R56) -/

/-- Distance of x from a pointer in a ring of m. -/
def ringDist (m ptr x : Nat) : Nat := (x + m - ptr % m) % m

/-- The element of a list with the least key; the first of equals. -/
def argmin {α : Type} (f : α → Nat) : List α → Option α
  | [] => none
  | a :: t => match argmin f t with
    | none => some a
    | some c => if f a ≤ f c then some a else some c

/-- A contender: channel, strand and priority. Channel 32 is the link agent (R296). -/
structure Cand where
  chan   : Nat
  strand : Nat
  prio   : Nat
  deriving DecidableEq, Repr

/-- Highest priority, then round-robin over channels, then round-robin over the chosen channel's strands (R56). -/
def rrPick (r : Rr) (l : List Cand) : Option Cand :=
  let top := (l.map (·.prio)).foldl max 0
  let l := l.filter (fun c => c.prio = top)
  match argmin (fun c => ringDist 33 r.chan c.chan) l with
  | none => none
  | some w => argmin (fun c => ringDist 256 (tgetD r.strand w.chan 0) c.strand) (l.filter (fun c => c.chan = w.chan))

/-- The pointers move past the contender served (R56). -/
def rrPast (r : Rr) (c : Cand) : Rr := { chan := (c.chan + 1) % 33, strand := tput r.strand c.chan ((c.strand + 1) % 256) }

/-! ## Channels -/

/-- Strands that hold an entry of channel c (R53). -/
def heldBy (b : Block) (n c : Nat) : List Nat :=
  ((stnStrands b n).filter (fun e => e.2.entry.isSome && e.2.chan == c)).map (·.1)

/-- A channel is active: enabled, or holding a strand, an accepted entry or a completion action, its signal included (R72). -/
def chActive (b : Block) (n c : Nat) : Bool :=
  let x := getChan b n c
  chEnable b n c || heldBy b n c ≠ [] || x.accepted ≠ [] || x.compl ≠ [] || x.cancelFrom ≠ x.cancelTo || complAdds b n c

/-- The state of a channel that neither stops nor is disabled by this event: RUNNING with work, DRAINING and DISABLED after
ENABLE is cleared, XLAT_WAIT as its walk's outcome sets it (R51, R69, R71). -/
def chSettle (b : Block) (n c : Nat) : Block :=
  let x := getChan b n c
  let work := x.tail ≠ x.head || x.accepted ≠ [] || x.compl ≠ [] || heldBy b n c ≠ []
  let st :=
    if !chEnable b n c then
      if x.st = .disabled then .disabled
      else if chActive b n c then (if x.st = .stopped then .stopped else .draining) else .disabled
    else match x.st with
      | .stopped => .stopped
      | .xlatWait => if x.accepting.isSome then .xlatWait else if work then .running else .idle
      | .disabled => .disabled
      | _ => if work then .running else .idle
  setChan b n c { x with st := st }

/-- A channel enters STOPPED: its code and failed index are kept from the first stop, and ERROR sets (R63, R65).
[DEDUCED: log 19] -/
def stopChan (b : Block) (n c code : Nat) (idx : Option Word) : Block :=
  let x := getChan b n c
  if x.st = .stopped then b
  else
    let b := setChan b n c { x with st := .stopped, err := code, errSeq := idx.getD x.errSeq }
    setCause b (32 * n + c) 8

/-- Codes of R62 after which the channel stops. -/
def codeStops (code : Nat) : Bool :=
  (0x10 ≤ code && code ≤ 0x15) || code = 0x20 || code = 0x21 || code = 0x23

/-- The hub may work: powered, not in dead ball (R359), its page not fenced (R28). -/
def hubWorks (b : Block) : Bool := hubOn b && !isDead b && !pageFence b hubB

/-- Acceptance is open for a channel: enabled, its page enabled and not fenced, neither stopped nor disabled (R65, R69,
R72), its station not fenced. -/
def chAccepts (b : Block) (n c : Nat) : Bool :=
  let x := getChan b n c
  hubWorks b && chEnable b n c && pageEnable b (chanB n) && !pageFence b (chanB n) && !stnFenced b n &&
    (getStn b n).stopCode = 0 && x.st ≠ .stopped && x.st ≠ .disabled

/-- Indices from a up to c (exclusive), modulo 2^32. -/
def idxRange (a c : Word) : List Word := (List.range (c - a).toNat).map (fun i => a + BitVec.ofNat 32 i)

/-- Entries the hub still has to read for a channel: those a disable cancels first, else those from head to tail. -/
def wantRead (b : Block) (n c : Nat) : List Word :=
  let x := getChan b n c
  let l := if x.cancelFrom ≠ x.cancelTo then idxRange x.cancelFrom x.cancelTo
    else if chAccepts b n c then idxRange x.head x.tail else []
  l.filter (fun i => !x.reading.contains i && !(x.got.map (·.idx)).contains i &&
    x.accepting.map (·.idx) ≠ some i)

/-- Issue entry reads: at most four of a channel in flight (R50). -/
def startReads (b : Block) (n c : Nat) : Block :=
  let x := getChan b n c
  let new := (wantRead b n c).take (4 - x.reading.length)
  let b := count b .hub 0x0C (32 * new.length) none
  setChan b n c { x with reading := x.reading ++ new }

/-- A hub far-port write is issued, or waits for a tag (R428). -/
def hubPost (b : Block) (w : HubWrite) : Block :=
  match tfree b.hubWr 0 256 with
  | some t => { b with hubWr := tput b.hubWr t w }
  | none => { b with hubQ := b.hubQ ++ [w] }

/-- A hub far-port write ends: its tag goes to the next that waits. -/
def hubFree (b : Block) (tag : Nat) : Block :=
  match b.hubQ with
  | [] => { b with hubWr := tdel b.hubWr tag }
  | w :: t => if isDead b then { b with hubWr := tdel b.hubWr tag } else { b with hubWr := tput b.hubWr tag w, hubQ := t }

/-- Completion actions of an entry begin (R60): the channel stops when the code says so, and the hub writes STATUS. -/
def beginCompl (b : Block) (n c : Nat) (x : Compl) : Block :=
  let b := modChan b n c (fun ch => { ch with compl := ch.compl ++ [x] })
  let b := if codeStops x.code then stopChan b n c x.code (some x.idx) else b
  let b := count b .hub 0x0D 4 none
  hubPost b (.status n c x.idx)

/-- The completion record of an entry. -/
def complOf (e : Entry) (code strand : Nat) (landed : Bool) : Compl :=
  { idx := e.idx, code := code, strand := strand, landed := landed, irq := e.irq, tsig := e.tsig, scope := e.scope,
    tally := e.tally, tadd := e.tadd,
    settled := if strand = 0xFFFF ∨ e.cmode then .system else .station, written := false }

/-- The STATUS word of a completion (R61). -/
def statusWord (x : Compl) : Nat :=
  1 + b2n (x.landed && x.code ≤ 1) * 2 + x.code * 2 ^ 8 + x.strand % 65536 * 2 ^ 16

/-- The entry whose index is done leaves the completion list once its STATUS is written. [DESIGN CHOICE: log 16] -/
def popDone (x : Chan) : Option (Compl × Chan) :=
  match x.compl.find? (fun e => e.idx = x.done && e.written) with
  | none => none
  | some e => some (e, { x with done := x.done + 1, compl := x.compl.filter (fun y => y.idx ≠ e.idx) })

/-- Advance done over every entry whose STATUS is written; the entries passed, in order. -/
def advDone : Nat → Chan → List Compl × Chan
  | 0, x => ([], x)
  | f + 1, x => match popDone x with
    | none => ([], x)
    | some (e, x') => let (l, y) := advDone f x'; (e :: l, y)

/-- A misuse record of a ring entry whose tally does not exist (R253). -/
def entryMisuse (b : Block) (n c : Nat) (idx : Word) (t : Nat) : Block :=
  talMisuse b n noUnit (slotAddr b n c idx) t 0xFFF false (some (32 * n + c))

/-- The completion signal of an entry (R60, R231). An entry that a disable cancelled unread has passed no format check: its
signal to a tally that does not exist is a misuse here (R253); that of an entry that failed at acceptance was recorded there. -/
def complSignal (p : Params) (b : Block) (n c : Nat) (e : Compl) : Block :=
  if !e.tsig then b
  else if talExists p e.tally then
    pushAdd b { src := .compl n c, tally := e.tally, amount := e.tadd, stn := if e.strand = 0xFFFF then none else some n,
                declared := scopeOf e.scope, settled := e.settled, ack := none }
  else if e.code = 0x22 then entryMisuse b n c e.idx e.tally
  else b

/-- HALF: done passes a multiple of half the ring (R63). -/
def passesHalf (log2 : Nat) (d0 d1 : Word) : Bool :=
  let h := 2 ^ (log2 - 1)
  h ≤ d0.toNat % h + (d1 - d0).toNat

/-- Steps 2 to 4 of R60 after an entry's STATUS write has landed, or failed. -/
def finishStatus (p : Params) (b : Block) (n c : Nat) (idx : Word) : Block :=
  let x := getChan b n c
  match x.compl.find? (fun e => e.idx = idx && !e.written) with
  | none => b
  | some e =>
    let b := setChan b n c { x with compl := x.compl.map (fun y => if y.idx = idx then { y with written := true } else y) }
    let b := if e.irq then setCause b (32 * n + c) 1 else b
    let x := getChan b n c
    let (passed, y) := advDone x.compl.length x
    let b := setChan b n c y
    let b := if passed ≠ [] ∧ passesHalf (chLog2 b n c) x.done y.done then setCause b (32 * n + c) 2 else b
    let b := if passed ≠ [] ∧ y.done = y.tail ∧ y.accepted = [] ∧ heldBy b n c = [] then setCause b (32 * n + c) 4 else b
    let b := count b .hub 0x03 1 none
    chSettle (forEach passed b (fun b e => complSignal p b n c e)) n c

/-- Format check of an entry (R49, R50). -/
def entryBad (p : Params) (r : RawEntry) : Bool :=
  let w0 := r.w0.toNat
  let w1 := r.w1.toNat
  bits w0 63 57 ≠ 0 || bits w1 31 29 ≠ 0 || bit w1 47 || bits w1 23 0 = 0 || bits w0 3 0 ≠ 0 ||
    (bit w1 26 && (bits w1 28 27 = 3 || bits w1 63 48 = 0 || !talExists p (bits w1 46 32)))

/-- The fields of a ring entry (R49). -/
def entryOf (r : RawEntry) : Entry :=
  let w0 := r.w0.toNat
  let w1 := r.w1.toNat
  { idx := r.idx, va := bits w0 56 0, len := bits w1 23 0, cmode := bit w1 24, irq := bit w1 25, tsig := bit w1 26,
    scope := bits w1 28 27, tally := bits w1 46 32, tadd := bits w1 63 48, arg := r.w2, xl := [] }

/-- End of a program range. -/
def progEnd (e : Entry) : Nat := e.va + 16 * e.len

/-- An entry fails at acceptance: head passes it, it completes at once and the channel stops (R51). -/
def failAccept (b : Block) (n c : Nat) (e : Entry) (code : Nat) : Block :=
  let b := modChan b n c (fun x => { x with head := x.head + 1, accepting := none, accOff := false })
  beginCompl b n c (complOf e code 0xFFFF false)

/-- An entry is accepted: its translations are held with it, and head passes it (R50). -/
def acceptEntry (b : Block) (n c : Nat) (e : Entry) : Block :=
  let b := modChan b n c (fun x => { x with head := x.head + 1, accepting := none, accOff := false, accepted := x.accepted ++ [e],
                                            st := if x.st = .xlatWait then .running else x.st })
  count b .hub 0x02 1 none

/-- A translation of a byte by a list of ranges; stale ones are never used (R268). -/
def xlOf (l : List Xl) (va : Nat) : Option Xl := l.find? (fun x => !x.stale && x.vstart ≤ va && va < x.vstart + x.len)

/-- First byte of a program range that translations do not cover. -/
def progGap (e : Entry) : Option Nat :=
  let l := e.xl.filter (fun x => !x.stale)
  let next := fun (a : Nat) => match xlOf l a with
    | some x => min (progEnd e) (x.vstart + x.len)
    | none => a
  let a := next (next (next e.va))
  if a < progEnd e then some a else none

/-- What the translation of the entry in acceptance has come to (R50, R51): nothing yet, accepted, or failed with a code. -/
def accVerdict (x : Chan) (e : Entry) : Option (Option Nat) :=
  let live := (e.xl.filter (fun r => !r.stale)).length
  if x.accOff then some (some 0x11)
  else if 2 < live then some (some 0x12)
  else match progGap e with
    | none => some none
    | some _ => if live = 2 then some (some 0x12) else none

/-- Take the next entry of a channel that accepts: cancel it after a disable (R69), finish the one in acceptance once its
translation is over, or check the format of the next one read and leave it to the translation of its program range (R50). -/
def pumpOne (p : Params) (b : Block) (n c : Nat) : Block :=
  let x := getChan b n c
  if x.cancelFrom ≠ x.cancelTo then
    match x.got.find? (fun r => r.idx = x.cancelFrom) with
    | none => b
    | some r =>
      let b := setChan b n c { x with cancelFrom := x.cancelFrom + 1, got := x.got.filter (fun y => y.idx ≠ r.idx) }
      beginCompl b n c (complOf (entryOf r) 0x22 0xFFFF false)
  else if chAccepts b n c then
    match x.accepting with
    | some e => match accVerdict x e with
      | none => b
      | some none => acceptEntry b n c e
      | some (some code) => failAccept b n c e code
    | none =>
    match x.got.find? (fun r => r.idx = x.head) with
    | none => b
    | some r =>
      let b := setChan b n c { x with got := x.got.filter (fun y => y.idx ≠ r.idx) }
      let e := entryOf r
      if entryBad p r then
        let b := if e.tsig && !talExists p e.tally then
            entryMisuse b n c r.idx e.tally else b
        failAccept b n c e 0x10
      else if 2 ^ 57 < progEnd e ∨ !partOn b (chOwner b n c) then failAccept b n c e 0x11
      else setChan b n c { getChan b n c with accepting := some e }
  else b

/-- Pump a channel until nothing more moves: at most one pass per entry that has been read, and one for that in acceptance. -/
def pumpN (p : Params) (n c : Nat) : Nat → Block → Block
  | 0, b => b
  | f + 1, b => pumpN p n c f (pumpOne p b n c)

/-- Acceptance goes on for a channel: entries read are taken, and new reads start. [DEDUCED: log 20] -/
def pump (p : Params) (b : Block) (n c : Nat) : Block :=
  chSettle (startReads (pumpN p n c ((getChan b n c).got.length + 2) b) n c) n c

/-! ## Strands -/

/-- Line address of an instruction buffer line (R82). -/
def lineOf (a : Nat) : Nat := a / 128 * 128

/-- The unit at an address of a strand's instruction buffer. -/
def unitAt (s : Strand) (a : Nat) : Option (Nat × Nat) :=
  match s.lines.find? (fun l => l.1 = lineOf a) with
  | none => none
  | some l => some (wordAt l.2.toNat (a % 128 / 8), wordAt l.2.toNat (a % 128 / 8 + 1))

/-- A prefetch request is pending or issued. -/
def pfHas (st : Station) (k va : Nat) : Bool := st.pfQ.contains (k, va) || st.pfOut.any (fun f => f.live && f.k = k && f.va = va)

/-- The program range touches a line (R82). -/
def lineUsed (e : Entry) (va : Nat) : Bool := va < progEnd e && e.va < va + 128

/-- Ask the prefetcher for an instruction line that the program range touches (R82). -/
def pfAsk (b : Block) (n k va : Nat) : Block :=
  let st := getStn b n
  match (getStrand b n k).entry with
  | none => b
  | some e => if lineUsed e va ∧ !pfHas st k va then setStn b n { st with pfQ := st.pfQ ++ [(k, va)] } else b

/-- The line that is not replaced: the one with the first body instruction of the innermost open loop (R82). -/
def keptLine (s : Strand) : Option Nat := (s.loops.getLast?).map (fun l => lineOf l.body)

/-- The lines of a strand's instruction buffer: those it holds and those on their way (R82). Prefetches from 2^60 up are of
descriptors. -/
def bufLines (b : Block) (n k : Nat) : List Nat :=
  let st := getStn b n
  (getStrand b n k).lines.map (·.1) ++ (st.pfQ.filter (fun e => e.1 = k && e.2 < 2 ^ 60)).map (·.2) ++
    (st.pfOut.filter (fun f => f.live && f.k = k && f.va < 2 ^ 60)).map (·.va)

/-- The buffer gives up the lines that a test names: held ones go, pending fetches too, issued ones return to nobody. -/
def dropLines (b : Block) (n k : Nat) (gone : Nat → Bool) : Block :=
  let b := modStrand b n k (fun s => { s with lines := s.lines.filter (fun l => !gone l.1) })
  modStn b n (fun st => { st with
    pfQ := st.pfQ.filter (fun e => e.1 ≠ k || 2 ^ 60 ≤ e.2 || !gone e.2)
    pfOut := st.pfOut.map (fun f => if f.k = k && f.va < 2 ^ 60 && gone f.va then { f with live := false } else f) })

/-- Keep the instruction buffer ahead of the program counter (R82). A line on its way counts as one of the two. The loop's
line is kept only while the program counter stays in the buffer: outside it, both lines go. [DESIGN CHOICE: log 121] -/
def refetch (b : Block) (n k : Nat) : Block :=
  let s := getStrand b n k
  let l := bufLines b n k
  let cur := lineOf s.pc
  let next := cur + 128
  if !l.contains cur then pfAsk (pfAsk (dropLines b n k (fun _ => true)) n k cur) n k next
  else if l.contains next || !((s.entry.map (fun e => lineUsed e next)).getD false) then b
  else match l.filter (fun a => a ≠ cur) with
    | [] => pfAsk b n k next
    | a :: _ => if some a = keptLine s then b else pfAsk (dropLines b n k (fun x => x = a)) n k next

/-- Data operations in flight (R81). -/
def isData (o : Op) : Bool := o.kind = .move || o.kind = .fill || o.kind = .copy
def inFlight (s : Strand) : Nat := (s.ops.filter (fun o => isData o && o.phase ≠ .issued)).length

def modOp (b : Block) (n k id : Nat) (f : Op → Op) : Block :=
  modStrand b n k (fun s => { s with ops := s.ops.map (fun o => if o.id = id then f o else o) })

def findOp (b : Block) (n k id : Nat) : Option Op := (getStrand b n k).ops.find? (fun o => o.id = id)

/-- Release the shared resources that an operation holds or has requested. -/
def freeRes (st : Station) (k id : Nat) : Station :=
  let keep := fun (l : List (Nat × Nat)) => l.filter (fun e => e ≠ (k, id))
  let one := fun (x : Option (Nat × Nat)) => if x = some (k, id) then none else x
  { st with ctx := keep st.ctx, decCtx := keep st.decCtx, encCtx := keep st.encCtx, resQ := keep st.resQ,
            rowBuf := one st.rowBuf, smooth := one st.smooth, colAcc := one st.colAcc }

/-- An operation that issues nothing leaves its strand: its hazard entries and resources go. -/
def dropOp (b : Block) (n k id : Nat) : Block :=
  let b := modStrand b n k (fun s => { s with ops := s.ops.filter (fun o => o.id ≠ id) })
  let b := detachReq b (fun r => match r with
    | .op n' k' id' _ => n' = n && k' = k && id' = id
    | _ => false)
  modStn b n (fun st => { freeRes st k id with haz := st.haz.filter (fun h => h.strand ≠ k ∨ h.op ≠ id) })

/-- Whether a tag entry, a near-port line or a held write belongs to an operation of a strand. -/
def agentIs (a : Agent) (k id : Nat) : Bool :=
  match a with
  | .op k' id' _ => k' = k && id' = id
  | .link .. => false

/-- Writes of an operation that have not departed: scratch lines that are staged. -/
def opUndeparted (st : Station) (k id : Nat) : Bool :=
  st.staged.any (fun l => l.strand = k && l.op = id && l.link.isNone)

/-- Writes of an operation that have departed and not landed (R227). -/
def opUnlanded (st : Station) (k id : Nat) : Bool :=
  (liveWr st.wrTags ++ st.wWrTags ++ st.vWrTags).any (fun e => agentIs e.2.agent k id) ||
    st.nearWr.any (fun l => l.strand = k && l.op = id && l.link.isNone)

/-- Reads of an operation that have not returned. -/
def opReading (st : Station) (k id : Nat) : Bool :=
  (st.rdTags ++ st.wRdTags ++ st.vRdTags).any (fun e => agentIs e.2.agent k id) ||
    st.nearRd.any (fun l => l.strand = k && l.op = id && l.link.isNone)

/-- An operation whose writes have all departed; landed. -/
def opDeparted (st : Station) (k : Nat) (o : Op) : Bool := o.phase = .issued && !opUndeparted st k o.id
def opLanded (st : Station) (k : Nat) (o : Op) : Bool := opDeparted st k o && !opUnlanded st k o.id

/-- The page of a strand is fenced: the strand has stopped where it is (R28). [DEDUCED: log 81] -/
def strdFenced (b : Block) (n k : Nat) : Bool := pageFence b (strdB n (k / 128))

/-- Descriptor cache entries lose a strand that completes or stops; an entry without users is invalid (R84). -/
def dcacheDrop (l : List DLine) (k : Nat) : List DLine :=
  (l.map (fun d => { d with users := d.users.filter (· ≠ k) })).filter (fun d => d.users ≠ [])

/-- The locked channel's undelivered stream lines are discarded, and locked slots pass unused from then on (R205). -/
def dropStream (b : Block) (n : Nat) : Block := modStn b n (fun st => { st with staged := [], lockOff := true })

/-- Locked-schedule mode: the locked channel of a station (R202). -/
def lockChan (b : Block) (n : Nat) : Option Nat :=
  if rbit b (nearB n + 0x40) 29 then some (rbits b (nearB n + 0x40) 28 24) else none

/-- A guard wait whose waiter is still on its tally's list. -/
def waitArmed : WaitSt → Bool
  | .armed .. => true
  | _ => false

/-- The guard waiters of a stopped strand have left their lists (R250): an operation whose guard is not met then issues
nothing and leaves, as at a guard's expiry (R207). [DEDUCED: log 122] -/
def dropGuarded (b : Block) (n k : Nat) : Block :=
  let s := getStrand b n k
  if waitArmed s.guardS || waitArmed s.guardD then
    let b := setStrand b n k { s with guardS := .none, guardD := .none }
    forEach ((s.ops.filter (fun o => o.phase = .guard)).map (·.id)) b (fun b id => dropOp b n k id)
  else b

/-- A strand stops with ILLEGAL, PROG_BOUNDS or STRAND_STOP: it retires nothing more, its signals and waits go, its data
operations issue what remains (R106). -/
def stopStrand (b : Block) (n k code : Nat) : Block :=
  let s := getStrand b n k
  if s.st ≠ .run ∧ s.st ≠ .drain then b
  else
    let b := setStrand b n k { s with st := .stopped, err := code, sigs := [], blocked := .no, wait := .none }
    let b := dropGuarded (dropWaiters b n k) n k
    let b := modStn b n (fun st => { st with dcache := dcacheDrop st.dcache k })
    if lockChan b n = some s.chan then dropStream b n else b

/-- A strand's prefetches are no longer wanted: pending ones go, issued ones return to nobody. -/
def pfOrphan (st : Station) (k : Nat) : Station :=
  { st with pfQ := st.pfQ.filter (fun e => e.1 ≠ k),
            pfOut := st.pfOut.map (fun e => if e.k = k then { e with live := false } else e) }

/-- A strand returns to the pool: its error code and program counter stay for inspection (R106). -/
def freeStrand (b : Block) (n k : Nat) : Block :=
  let s := getStrand b n k
  let b := detachReq b (reqOfStrand n (some k))
  let b := setStrand b n k { Strand.reset with st := .idle, chan := s.chan, err := s.err, seq := s.seq, pc := s.pc, stats := s.stats }
  modStn b n (fun st => pfOrphan { st with dcache := dcacheDrop st.dcache k } k)

/-- The completion condition of a strand's entry (R59, R87, R106). -/
def entryDone (st : Station) (k : Nat) (s : Strand) : Bool :=
  match s.st, s.entry with
  | .drain, some e =>
    s.ops.all (fun o => o.phase = .issued) && s.sigs = [] &&
      s.ops.all (fun o => if e.cmode then opLanded st k o else opDeparted st k o)
  | .stopped, some _ => s.ops.all (opDeparted st k)
  | _, _ => false

/-- Result code of a strand's entry (R62). -/
def entryCode (s : Strand) : Nat := if s.st = .stopped then s.err else b2n s.dataFault

/-! ## Strand grant and dispatch (R52 to R55) -/

/-- Free strands of a station, lowest first; those of a fenced page take no entry (R28). -/
def freeStrands (b : Block) (n : Nat) : List Nat :=
  (List.range 256).filter (fun k => (getStrand b n k).entry.isNone && !strdFenced b n k)

/-- Reserves of other enabled channels that are not held (R53). -/
def othersReserve (b : Block) (n c : Nat) : Nat :=
  ((List.range 32).map (fun d =>
    if d ≠ c ∧ chEnable b n d then chReserve b n d - (heldBy b n d).length else 0)).foldl (· + ·) 0

/-- Queue-order mode, or the locked channel, which runs as if it were set (R55, R202). -/
def chOrdered (b : Block) (n c : Nat) : Bool := chQorder b n c || lockChan b n = some c

/-- A channel that waits for a strand and may be granted one (R52, R53, R55, R65, R72). Where the translation of its next entry
is stale it waits for a walk, not for a strand (R268). [DEDUCED: log 15] -/
def mayGrant (b : Block) (n c : Nat) : Bool :=
  let x := getChan b n c
  let h := (heldBy b n c).length
  x.accepted ≠ [] && x.st ≠ .stopped && x.st ≠ .disabled && !pageFence b (chanB n) && pageEnable b (stnB n) &&
    (if chOrdered b n c then h = 0 && x.compl = [] && !complAdds b n c else decide (h < chCap b n c)) &&
    !((x.accepted.head?.map (fun e => e.xl.any (·.stale))).getD false) && othersReserve b n c < (freeStrands b n).length

/-- The channel that the station grants next, and its strand (R53). -/
def grantPick (b : Block) (n : Nat) : Option (Nat × Nat) :=
  match rrPick (getStn b n).rrGrant (((List.range 32).filter (mayGrant b n)).map (fun c =>
      { chan := c, strand := 0, prio := chPrio b n c })), (freeStrands b n).head? with
  | some w, some k => some (w.chan, k)
  | _, _ => none

/-- A strand receives an entry: its context starts as R78 states and its first lines are fetched (R82). [DEDUCED: log 13] -/
def startStrand (b : Block) (n k c : Nat) (e : Entry) : Block :=
  let b := setStrand b n k { Strand.reset with st := .run, chan := c, seq := e.idx, pc := e.va, entry := some e, arg := e.arg }
  refetch b n k

/-! ## Fence of a station (R67) -/

/-- Hazard entries after a fence: those of write footprints whose writes have departed and not landed wait for landing;
every other one is released (R67, R74). [DEDUCED: log 14] -/
def fenceHaz (st : Station) : List Haz :=
  (st.haz.filter (fun h => h.write && opUnlanded st h.strand h.op)).map (fun h => { h with done := true, landing := true })

/-- A TLOAD of slot i waits or loads (R193). -/
def tloadSlots (b : Block) (n i : Nat) : Bool :=
  (stnStrands b n).any (fun e => e.2.ops.any (fun o => o.kind = .tload && decide (bits o.w0.toNat 9 8 = i)))

/-- Every strand of a station stops without another burst; what it held goes (R67). A TLOAD that waits or loads leaves its slot
INVALID (R193). [DEDUCED: log 14] -/
def stationStopCore (b : Block) (n code : Nat) : Block :=
  let st := getStn b n
  let b := setStn b n { st with stopCode := code, pfQ := [], pfOut := st.pfOut.map (fun e => { e with live := false }),
                                tagFor := none, dcache := [], haz := fenceHaz st,
                                ctx := [], rowBuf := none, smooth := none, colAcc := none, decCtx := [], encCtx := [],
                                resQ := [], tloads := [], staged := [], lockOff := st.lockOff || (lockChan b n).isSome,
                                slots := (st.slots.zipIdx).map (fun e =>
                                  if e.1.loading || tloadSlots b n e.2 then { e.1 with loading := false, valid := false } else e.1) }
  { b with tallies := b.tallies.map (fun e => (e.1, { e.2 with
      waiters := e.2.waiters.filter (fun w => waiterStn w ≠ some n) })) }

/-- A station-wide stop: running entries complete with the code, accepted ones with CANCELLED, all 32 channels stop. A
channel with no entry stopped by it keeps its ERR and ERR_SEQ (R67). The strands stopped read STOPPED until the station's
soft reset. -/
def stationStop (b : Block) (n code : Nat) : Block :=
  if (getStn b n).stopCode ≠ 0 then b
  else
    let run := (stnStrands b n).filter (fun e => e.2.entry.isSome)
    let b := stationStopCore b n code
    forEach (List.range 32) b (fun b c =>
      let mine := run.filter (fun e => e.2.chan = c)
      let x := getChan b n c
      let low := argmin (fun (e : Nat × Strand) => (e.2.seq - x.done).toNat) mine
      let b := if x.st = .stopped then b
        else
          let b := setChan b n c { x with st := .stopped, err := if low.isSome then code else x.err,
                                          errSeq := (low.map (fun e => e.2.seq)).getD x.errSeq, accepted := [] }
          setCause b (32 * n + c) 8
      let b := modChan b n c (fun y => { y with accepted := [] })
      let b := forEach mine b (fun b e => match e.2.entry with
        | none => b
        | some ent =>
          let b := setStrand b n e.1 { e.2 with err := code }
          let b := modStrand (freeStrand b n e.1) n e.1 (fun s => { s with st := .stopped })
          beginCompl b n c (complOf ent code e.1 false))
      forEach x.accepted b (fun b ent => beginCompl b n c (complOf ent 0x22 0xFFFF false)))

end Sys2Proof.Machine
end

