-- ==== Sys2Proof/Machine/Forecast.lean ====
section
/-! DEFINITION. The forecast queue of a partition (R274 to R276): posting a record, and its landing in memory. -/
namespace Sys2Proof.Machine

/-- Records of the forecast ring. -/
def fcSize (b : Block) (p : Nat) : Nat := 2 ^ rbits b (xpR p 0x34) 3 0

/-- A forecast record is dropped and counted. -/
def fcDrop (b : Block) (p : Nat) : Block := rcount b (xpR p 0x40) 1

/-- Post a forecast record: it takes its slot, or is dropped when the ring is full (R274). -/
def fcPost (b : Block) (p va len kind : Nat) (host : Bool) (chan strand : Nat) : Block :=
  let x := getPart b p
  if (x.fcPosted + 2 ^ 32 - rget b (xpR p 0x3C)) % 2 ^ 32 = fcSize b p then fcDrop b p
  else
    let b := count b .hub 0x0D 32 none
    setPart b p { x with
      fcPosted := (x.fcPosted + 1) % 2 ^ 32,
      fcQ := x.fcQ ++ [{ seq := x.fcPosted, va := va, len := len, kind := kind, host := host, chan := chan, strand := strand }] }

/-- A post of ADVISE or of the PART page: one whose fields do not fit is dropped (R104, R280). -/
def fcAdvise (b : Block) (p va len kind : Nat) (host : Bool) (chan strand : Nat) : Block :=
  if 3 < kind ∨ len = 0 ∨ va % 65536 ≠ 0 ∨ 2 ^ 57 ≤ va then fcDrop b p else fcPost b p va len kind host chan strand

/-- The words of a forecast record (R274). -/
def fcWords (r : FcRec) : List DWord :=
  [BitVec.ofNat 64 (r.va % 2 ^ 57),
   BitVec.ofNat 64 (r.len % 2 ^ 48 + r.kind % 8 * 2 ^ 48 + b2n r.host * 2 ^ 51),
   BitVec.ofNat 64 (r.chan % 2048 + r.strand % 256 * 2 ^ 16), BitVec.ofNat 64 (r.seq % 2 ^ 32)]

/-- The oldest record of a partition's forecast queue has landed, or its write failed: then it counts as dropped, and the
index still passes it (R274, R276). -/
def fcLanded (b : Block) (p : Nat) (err : Bool) : Block :=
  let x := getPart b p
  match x.fcQ with
  | [] => b
  | r :: t =>
    let prod := (r.seq + 1) % 2 ^ 32
    let was := x.fcProd = rget b (xpR p 0x3C)
    let b := setPart b p { x with fcQ := t, fcProd := prod }
    let b := if err then
        memErr (fcDrop b p) srcXlat 0x48 p xlatB (rget64 b (xpR p 0x2C) + 32 * (r.seq % fcSize b p))
          (errInfo p p 0 1 0 6) 0
      else b
    if was then setCause b (1536 + p) 2 else b

/-- FORECAST_LANDED (R274): A forecast record lands and XP_FC_PROD advances. -/
def execForecastLanded (p : Nat) (err : Bool) (s : State) : Host.Outcome State Fault Refusal :=
  effect (fun _ b => if hubOn b ∧ p < 16 then fcLanded b p err else b) s

end Sys2Proof.Machine
end

