-- ==== Sys2Proof/Machine/Number.lean ====
section
/-! DEFINITION. Number formats, rounding and casting (R134 to R139), exact: a finite value is a sign and a ratio. -/
namespace Sys2Proof.Machine

/-- A value of the shaper: NaN with a sign, infinity with a sign, or a signed exact ratio (the denominator is not 0). -/
inductive FV
  | nan (s : Bool)
  | inf (s : Bool)
  | fin (s : Bool) (n d : Nat)
  deriving DecidableEq, Repr

/-- A float format: exponent and mantissa bits, bias; kind 0 with infinities and NaNs, 1 with the one NaN of E4M3, 2 with
neither (R134). -/
structure FFmt where
  eb   : Nat
  mb   : Nat
  bias : Nat
  kind : Nat
  deriving DecidableEq, Repr

def fp32 : FFmt := ⟨8, 23, 127, 0⟩
def bf16 : FFmt := ⟨8, 7, 127, 0⟩

/-- Float format of an element code (R134). -/
def floatFmt (f : Nat) : Option FFmt :=
  match f with
  | 0x08 => some fp32
  | 0x09 => some bf16
  | 0x0A => some ⟨5, 10, 15, 0⟩
  | 0x0B => some ⟨4, 3, 7, 1⟩
  | 0x10 => some ⟨4, 3, 7, 1⟩
  | 0x0C => some ⟨5, 2, 15, 0⟩
  | 0x11 => some ⟨5, 2, 15, 0⟩
  | 0x12 => some ⟨3, 2, 3, 2⟩
  | 0x13 => some ⟨2, 3, 1, 2⟩
  | 0x14 => some ⟨2, 1, 1, 2⟩
  | _ => none

/-- 2 to an integer power as a ratio. -/
def pow2 (e : Int) : Nat × Nat := if 0 ≤ e then (2 ^ e.toNat, 1) else (1, 2 ^ (-e).toNat)

/-- Sign and ratio times a power of two. -/
def finPow (s : Bool) (m : Nat) (e : Int) : FV := let (a, c) := pow2 e; .fin s (m * a) c

/-- Value of a float encoding (R134). -/
def floatVal (f : FFmt) (x : Nat) : FV :=
  let s := bit x (f.eb + f.mb)
  let e := bits x (f.eb + f.mb - 1) f.mb
  let m := x % 2 ^ f.mb
  let top := 2 ^ f.eb - 1
  if f.kind = 0 ∧ e = top then (if m = 0 then .inf s else .nan s)
  else if f.kind = 1 ∧ e = top ∧ m = 2 ^ f.mb - 1 then .nan s
  else if e = 0 then finPow s m (1 - (f.bias : Int) - f.mb)
  else finPow s (2 ^ f.mb + m) ((e : Int) - f.bias - f.mb)

/-- Largest finite value of a float format, as a ratio. -/
def floatMax (f : FFmt) : Nat × Nat :=
  let top := 2 ^ f.eb - 1
  let (m, e) := if f.kind = 0 then (2 ^ (f.mb + 1) - 1, top - 1)
    else if f.kind = 1 then (2 ^ (f.mb + 1) - 2, top) else (2 ^ (f.mb + 1) - 1, top)
  let (a, c) := pow2 ((e : Int) - f.bias - f.mb)
  (m * a, c)

/-- ⌈log2 x⌉ of a natural number. -/
def clog2 (x : Nat) : Nat := if x ≤ 1 then 0 else Nat.log2 (x - 1) + 1

/-- ⌊log2 (n / d)⌋ of a positive ratio. -/
def flog2 (n d : Nat) : Int := if d ≤ n then (Nat.log2 (n / d) : Int) else -((clog2 (ceilDiv d n) : Nat) : Int)

/-- The exponent of the power of two nearest to a positive ratio; from halfway between two, the one that E8M0 encodes with an
even number (R137, R148). -/
def nearLog2 (n d : Nat) : Int :=
  let e := flog2 n d
  let (a, c) := if 0 ≤ e then (2 ^ e.toNat, 1) else (1, 2 ^ (-e).toNat)
  let x := 2 * n * c
  let y := 3 * d * a
  if x < y then e else if y < x then e + 1 else if (e + 127) % 2 = 0 then e else e + 1

/-- ⌈log2 (n / d)⌉ of a positive ratio. -/
def cLog2 (n d : Nat) : Int := -(flog2 d n)

/-- n / d rounded to an integer: 0 RNE, 1 RTZ, 2 RNA (R137). -/
def roundInt (mode n d : Nat) : Nat :=
  let q := n / d
  let r := n % d
  match mode with
  | 1 => q
  | 2 => if d ≤ 2 * r then q + 1 else q
  | _ => if d < 2 * r ∨ (2 * r = d ∧ q % 2 = 1) then q + 1 else q

/-- A positive ratio rounded to a float format's precision: significand and exponent of its last bit (R137). -/
def roundSig (f : FFmt) (mode n d : Nat) : Nat × Int :=
  let q := max (flog2 n d) (1 - (f.bias : Int)) - f.mb
  let (a, c) := pow2 (-q)
  (roundInt mode (n * a) (d * c), q)

/-- Encoding of a significand and exponent within the format's range. -/
def encodeFin (f : FFmt) (s : Bool) (r : Nat) (q : Int) : Nat :=
  let sg := b2n s * 2 ^ (f.eb + f.mb)
  let (r, q) := if r = 2 ^ (f.mb + 1) then (2 ^ f.mb, q + 1) else (r, q)
  if r < 2 ^ f.mb then sg + r
  else sg + (q + f.mb + f.bias).toNat * 2 ^ f.mb + (r - 2 ^ f.mb)

/-- n1/d1 < n2/d2. -/
def ratLt (a c : Nat × Nat) : Bool := a.1 * c.2 < c.1 * a.2

/-- The larger of two ratios. -/
def ratMax (a c : Nat × Nat) : Nat × Nat := if ratLt a c then c else a

/-- Encoding of infinity; of the largest finite value. -/
def encodeInf (f : FFmt) (s : Bool) : Nat := b2n s * 2 ^ (f.eb + f.mb) + (2 ^ f.eb - 1) * 2 ^ f.mb
def encodeMax (f : FFmt) (s : Bool) : Nat :=
  b2n s * 2 ^ (f.eb + f.mb) +
    (if f.kind = 0 then (2 ^ f.eb - 2) * 2 ^ f.mb + 2 ^ f.mb - 1
     else if f.kind = 1 then (2 ^ f.eb - 1) * 2 ^ f.mb + 2 ^ f.mb - 2 else 2 ^ (f.eb + f.mb) - 1)

/-- What rounding an element gave: its bits, whether it was clipped, NaN, infinite, or zeroed (R138, R139, R158). -/
structure Cast where
  bits : Nat
  clip : Bool
  nan  : Bool
  inf  : Bool
  zero : Bool
  deriving DecidableEq, Repr

/-- Round and saturate to a float destination (R137 to R139). -/
def castFloat (f : FFmt) (mode : Nat) (sat : Bool) : FV → Cast
  | .nan s =>
    let x := if f.kind = 0 then encodeInf f s + 2 ^ (f.mb - 1)
      else if f.kind = 1 then b2n s * 2 ^ (f.eb + f.mb) + 2 ^ (f.eb + f.mb) - 1 else 0
    ⟨x, false, true, false, false⟩
  | .inf s =>
    let x := if f.kind = 0 then encodeInf f s
      else if f.kind = 1 then (if sat then encodeMax f s else b2n s * 2 ^ (f.eb + f.mb) + 2 ^ (f.eb + f.mb) - 1)
      else encodeMax f s
    ⟨x, false, false, true, false⟩
  | .fin s n d =>
    if n = 0 then ⟨b2n s * 2 ^ (f.eb + f.mb), false, false, false, false⟩
    else
      let (r, q) := roundSig f mode n d
      let (a, c) := pow2 q
      if ratLt (floatMax f) (r * a, c) then
        ⟨if f.kind = 0 ∧ !sat then encodeInf f s else encodeMax f s, true, false, false, false⟩
      else ⟨encodeFin f s r q, false, false, false, r = 0⟩

/-- Two's complement of a signed magnitude in w bits. -/
def twos (w : Nat) (s : Bool) (m : Nat) : Nat := if s ∧ m ≠ 0 then 2 ^ w - m else m

/-- Round and saturate to an integer destination of w bits; `frac` fraction bits (6 for MXINT8), limit ±qmax. -/
def castInt (w frac qmax mode : Nat) : FV → Cast
  | .nan _ => ⟨0, false, true, false, false⟩
  | .inf s => ⟨twos w s qmax, false, false, true, false⟩
  | .fin s n d =>
    let r := roundInt mode (n * 2 ^ frac) d
    if qmax < r then ⟨twos w s qmax, true, false, false, false⟩
    else ⟨twos w s r, false, false, false, n ≠ 0 && r = 0⟩

/-- Qmax of a scaled destination (R148), as a ratio of the element's own value. -/
def qmaxOf (code : Nat) : Nat × Nat :=
  match code with
  | 0x15 => (127, 64)
  | 0x18 => (127, 1)
  | 0x19 => (7, 1)
  | _ => match floatFmt code with
    | some f => floatMax f
    | none => (1, 1)

/-- Exponent emax of an MX element format (R148). -/
def mxEmax (code : Nat) : Int :=
  match code with
  | 0x10 => 8
  | 0x11 => 15
  | 0x12 => 4
  | 0x13 => 2
  | 0x14 => 2
  | _ => 0

/-- Value of a source element (R134, R136). -/
def elemVal (code x : Nat) : FV :=
  match code with
  | 0x15 => let i := sgn 8 x; .fin (i < 0) i.natAbs 64
  | 0x18 => let i := sgn 8 x; .fin (i < 0) i.natAbs 1
  | 0x19 => let i := sgn 4 x; .fin (i < 0) i.natAbs 1
  | _ => match floatFmt code with
    | some f => floatVal f x
    | none => .fin false x 1

/-- Round a value to a destination code (R137 to R139). An MX element saturates whatever SAT holds (R138). -/
def castTo (code mode : Nat) (sat : Bool) (y : FV) : Cast :=
  match code with
  | 0x15 => castInt 8 6 127 mode y
  | 0x18 => castInt 8 0 127 mode y
  | 0x19 => castInt 4 0 7 mode y
  | _ => match floatFmt code with
    | some f => castFloat f mode (sat || code = 0x11) y
    | none => ⟨0, false, false, false, false⟩

/-- Round a value to FP32, RNE, overflowing to infinity as IEEE 754 does. -/
def toFp32 : FV → FV
  | .fin s n d => floatVal fp32 (castFloat fp32 0 false (.fin s n d)).bits
  | y => y

/-- FP32 product, RNE; `ns` is the sign of a NaN that an invalid product makes. -/
def mulF (ns : Bool) : FV → FV → FV
  | .nan s, _ => .nan s
  | _, .nan _ => .nan ns
  | .inf s, .inf t => .inf (s != t)
  | .inf s, .fin t n _ => if n = 0 then .nan ns else .inf (s != t)
  | .fin s n _, .inf t => if n = 0 then .nan ns else .inf (s != t)
  | .fin s n d, .fin t m c => toFp32 (.fin (s != t) (n * m) (d * c))

/-- FP32 sum, RNE; `ns` is the sign of a NaN that an invalid sum makes. -/
def addF (ns : Bool) : FV → FV → FV
  | .nan s, _ => .nan s
  | _, .nan t => .nan t
  | .inf s, .inf t => if s = t then .inf s else .nan ns
  | .inf s, _ => .inf s
  | _, .inf t => .inf t
  | .fin s n d, .fin t m c =>
    let x : Int := (if s then -1 else 1) * (n * c : Nat) + (if t then -1 else 1) * (m * d : Nat)
    if x = 0 then .fin (s && t) 0 1 else toFp32 (.fin (x < 0) x.natAbs (d * c))

def negF : FV → FV
  | .nan s => .nan s
  | .inf s => .inf (!s)
  | .fin s n d => .fin (!s) n d

/-- FP32 bits of a non-negative ratio, RNE. -/
def fp32Bits (r : Nat × Nat) : Nat := (castFloat fp32 0 false (.fin false r.1 r.2)).bits

/-- Ratio of FP32 bits; 0 for a NaN or an infinity. -/
def fp32Rat (x : Nat) : Nat × Nat :=
  match floatVal fp32 x with
  | .fin _ n d => (n, d)
  | _ => (0, 1)

/-! ## Cast matrix (R135) -/

/-- Kinds of cast: plain, scaled, identity, not admitted. -/
inductive CastKind
  | plain
  | scaled
  | ident
  | no
  deriving DecidableEq, Repr

/-- Rows and columns of the matrix: 0 FP32, BF16, FP16; 1 E4M3, E5M2; 2 MX; 3 INT8; 4 INT4. -/
def castClass (f : Nat) : Nat :=
  if f = 8 ∨ f = 9 ∨ f = 0xA then 0 else if f = 0xB ∨ f = 0xC then 1
  else if 0x10 ≤ f ∧ f ≤ 0x15 then 2 else if f = 0x18 then 3 else 4

def castKind (s d : Nat) : CastKind :=
  match castClass s, castClass d with
  | 0, 0 => .plain
  | 0, 1 => .plain
  | 0, _ => .scaled
  | 1, 0 => .plain
  | 1, 1 => .plain
  | 1, _ => .scaled
  | 2, 2 => if s = d then .ident else .no
  | 2, _ => .no
  | 3, 0 => .plain
  | 3, 3 => .ident
  | 3, 4 => .scaled
  | 3, _ => .no
  | _, 0 => .plain
  | _, 3 => .plain
  | _, 4 => .ident
  | _, _ => .no

end Sys2Proof.Machine
end

