-- ==== Sys2Proof/Machine/Shaper.lean ====
section
/-! DEFINITION. The shaper (R140 to R165): the side block's fields, the element path with smoothing, rotation, scales and
rounding, the side outputs, and what a MOVE adds to the statistics. -/
namespace Sys2Proof.Machine

/-! ## Side block fields (R140) -/

def sW (s k : Nat) : Nat := wordAt s k
def sMode (s : Nat) : Nat := bits (sW s 0) 2 0
def sGsize (s : Nat) : Nat := 32 * 2 ^ bits (sW s 0) 4 3
def sRnd (s : Nat) : Nat := bits (sW s 0) 6 5
def sSat (s : Nat) : Bool := bit (sW s 0) 7
def sScfmt (s : Nat) : Nat := bits (sW s 0) 9 8
def sSclay (s : Nat) : Bool := bit (sW s 0) 10
def sSidesp (s : Nat) : Space := if bit (sW s 0) 11 then .scratch else .mem
def sSmen (s : Nat) : Bool := bit (sW s 0) 12
def sHsize (s : Nat) : Nat := if bits (sW s 0) 14 13 = 0 then 0 else 16 * 2 ^ bits (sW s 0) 14 13
def sHnorm (s : Nat) : Bool := bit (sW s 0) 15
def sScen (s : Nat) : Bool := bit (sW s 0) 16
def sRsen (s : Nat) : Bool := bit (sW s 0) 17
def sCsen (s : Nat) : Bool := bit (sW s 0) 18
def sDlen (s : Nat) : Nat := bits (sW s 0) 22 19
def sHslot (s : Nat) : Nat := bits (sW s 0) 28 23
def sSeed (s : Nat) : Nat := bits (sW s 0) 63 32
def sMult (s : Nat) : Nat := bits (sW s 1) 31 0
def sMargin (s : Nat) : Int := sgn 4 (bits (sW s 1) 35 32)
def sScva (s : Nat) : Nat := bits (sW s 2) 56 0
def sRsva (s : Nat) : Nat := bits (sW s 3) 56 0
def sCsva (s : Nat) : Nat := bits (sW s 4) 56 0
def sSmva (s : Nat) : Nat := bits (sW s 5) 56 0
def sColstep (s : Nat) : Nat := bits (sW s 6) 31 0
def sScstep (s : Nat) : Int := sgn 32 (bits (sW s 6) 63 32)
def sRsstep (s : Nat) : Int := sgn 32 (bits (sW s 7) 31 0)
def sCsstep (s : Nat) : Int := sgn 32 (bits (sW s 7) 63 32)

/-- Reserved bits and values of S0 to S11. A reserved value is illegal whether or not its feature is switched on.
[DESIGN CHOICE: log 126] -/
def sideReserved (s : Nat) : Bool :=
  bits (sW s 0) 31 29 ≠ 0 || bits (sW s 1) 63 36 ≠ 0 || bits (sW s 2) 63 57 ≠ 0 || bits (sW s 3) 63 57 ≠ 0 ||
    bits (sW s 4) 63 57 ≠ 0 || bits (sW s 5) 63 57 ≠ 0 || sW s 8 ≠ 0 || sW s 9 ≠ 0 || sW s 10 ≠ 0 || sW s 11 ≠ 0 ||
    4 < sMode s || bits (sW s 0) 4 3 = 3 || sRnd s = 3 || sScfmt s = 3

/-- Bytes of a scale entry (R155). -/
def scBytes (s : Nat) : Nat := if sScfmt s = 0 then 4 else if sScfmt s = 1 then 2 else 1

/-- A MOVE that passes its elements' bits unchanged: raw pairs (R110), identity pairs and equal plain pairs under NONE,
neither with smoothing or rotation (R135). -/
def passThrough (d side : Nat) : Bool :=
  let s := dSfmt d
  let t := dDfmt d
  if fmtRaw s || fmtRaw t then true
  else
    let bare := !dShp d || (!sSmen side && sHsize side = 0)
    bare && (castKind s t = .ident || (castKind s t = .plain && s == t && (!dShp d || sMode side = 0)))

/-- The pair of formats is not admitted (R110, R130, R135). -/
def pairIllegal (d : Nat) : Bool :=
  let s := dSfmt d
  let t := dDfmt d
  if fmtRaw s || fmtRaw t then fmtW s ≠ fmtW t
  else match castKind s t with
    | .no => true
    | .scaled => !dShp d
    | _ => false

/-- The scale mode is not admitted for the destination (R147). The table has no row for a raw destination: only NONE is
admitted there. [DESIGN CHOICE: log 127] -/
def modeIllegal (d side : Nat) : Bool :=
  let t := dDfmt d
  let m := sMode side
  if fmtRaw t then m ≠ 0
  else match castClass t with
    | 0 => 1 < m
    | 1 => 4 < m
    | 2 => !(m = 3 && sScfmt side = 2 && sScen side)
    | _ => m = 0 && castKind (dSfmt d) t ≠ .ident

/-- INT8, INT4 and MXINT8 destinations take sums (R156). -/
def sumDst (t : Nat) : Bool := t = 0x18 || t = 0x19 || t = 0x15

/-- Plan columns of a row: E0 − P0. -/
def planCols (d : Nat) : Nat := dExt d 0 - dPad d 0

/-- MULT is zero, subnormal, infinite or NaN (R163). -/
def multBad (s : Nat) : Bool := bits (sMult s) 30 23 = 0 || bits (sMult s) 30 23 = 255

/-- The conditions of R163 and R147 on a MOVE with SHP = 1. -/
def shapeIllegal (d side : Nat) : Bool :=
  let k := blockSide (fmtWidth (dDfmt d))
  let m := sMode side
  sideReserved side || modeIllegal d side ||
    ((m = 1 || m = 4) && multBad side) ||
    ((m = 2 || m = 3) && !sScen side) ||
    (m = 2 && (dTdim d ≠ 0 || 65536 * 8 < planCols d * fmtWidth (dSfmt d))) ||
    (dTdim d ≠ 0 && ((m = 3 && k < sGsize side) || k < sHsize side)) ||
    (sRsen side && (dTdim d ≠ 0 || !sumDst (dDfmt d))) ||
    (sCsen side && (!sumDst (dDfmt d) || 16384 < planCols d)) ||
    (sSmen side && 32768 < planCols d) ||
    (sScen side && sScva side % scBytes side ≠ 0) || (sRsen side && sRsva side % 4 ≠ 0) ||
    (sCsen side && sCsva side % 4 ≠ 0) || (sSmen side && sSmva side % 2 ≠ 0)

/-! ## Rows, groups and ordinals (R150, R151, R155) -/

/-- Row ordinal of source coordinates s1, …: plan extents per dimension. -/
def rowOrd : List Dim → List Nat → Nat
  | x :: xs, s :: ss => s + (x.ext - x.pad) * rowOrd xs ss
  | _, _ => 0

/-- Plan rows R_p. -/
def planRows (dims : List Dim) : Nat := ((dims.drop 1).map (fun x => x.ext - x.pad)).foldl (· * ·) 1

/-- Groups of a row, Q. -/
def planGroups (m : Mv) : Nat := ceilDiv (planCols m.d) (sGsize m.side)

/-- Source coordinates of all rows in bounds; of all plan rows. -/
def rowsIn (m : Mv) : List (List Nat) := positions ((m.dims.drop 1).map (·.val))
def rowsPlan (m : Mv) : List (List Nat) := positions ((m.dims.drop 1).map (fun x => x.ext - x.pad))

/-- V0. -/
def val0 (m : Mv) : Nat := (m.dims.headD ⟨0, 0, 1, 0, 1⟩).val

/-! ## Element path (R142 to R146) -/

/-- Data that has arrived for a source coordinate: raw bits and poison; none while it has not. -/
abbrev SrcData := List Nat → Option (Nat × Bool)

/-- Sign of a rotation column: true for −1 (R144). -/
def rotNeg (c seed : Nat) : Bool :=
  let m := 2 ^ 32
  let h := (seed ^^^ ((c / 32) * 0x9E3779B9 % m)) % m
  let h := h ^^^ (h >>> 16)
  let h := h * 0x85EBCA6B % m
  let h := h ^^^ (h >>> 13)
  let h := h * 0xC2B2AE35 % m
  let h := h ^^^ (h >>> 16)
  bit h (c % 32)

/-- Rotation constant N (R144). -/
def rotNorm (s : Nat) : FV :=
  if !sHnorm s then .fin false 1 1
  else floatVal fp32 (if sHsize s = 32 then 0x3E3504F3 else if sHsize s = 64 then 0x3E000000 else 0x3DB504F3)

/-- Sum of a list in an order that no rule fixes: pairs are added as free choices say, until one value is left (R145).
[DEDUCED: log 8] -/
def freeSum (seed : Nat) : Nat → List FV → FV
  | 0, l => l.headD (.fin false 0 1)
  | _, [] => .fin false 0 1
  | f + 1, x :: t =>
    match t with
    | [] => x
    | _ :: _ =>
      let i := Config.freeChoice seed (2 * f) t.length % t.length
      let y := t.getD i (.fin false 0 1)
      let ns := Config.freeChoice seed (2 * f + 1) 2 % 2 = 1
      freeSum seed f (t.eraseIdx i ++ [addF ns x y])

/-- Steps 1 and 2 of R142 for source coordinate (s0, row): FP32 value and poison. -/
def smoothed (m : Mv) (src : SrcData) (smv : Nat → Option (Nat × Bool)) (row : List Nat) (s0 : Nat) : Option (FV × Bool) :=
  match src (s0 :: row) with
  | none => none
  | some (x, p) =>
    let v := elemVal (dSfmt m.d) x
    if sSmen m.side then
      match smv s0 with
      | none => none
      | some (y, p') =>
        let ns := Config.freeChoice m.seed (s0 + 65536 * rowOrd (m.dims.drop 1) row) 2 % 2 = 1
        some (mulF ns v (floatVal bf16 y), p || p')
    else some (v, p)

/-- Step 3 of R142: the rotation of the block that holds s0; a block with a poisoned element is poisoned whole (R165).
[DEDUCED: log 8] -/
def rotated (m : Mv) (src : SrcData) (smv : Nat → Option (Nat × Bool)) (row : List Nat) (s0 : Nat) : Option (FV × Bool) :=
  let h := sHsize m.side
  if h = 0 then smoothed m src smv row s0
  else
    let b := s0 / h * h
    let terms := (List.range h).map (fun i =>
      if val0 m ≤ b + i then some (FV.fin false 0 1, false)
      else match smoothed m src smv row (b + i) with
        | none => none
        | some (v, p) =>
          let neg := (popCount 8 (i &&& (s0 - b)) % 2 = 1) != rotNeg (b + i + m.k * sColstep m.side) (sSeed m.side)
          some (if neg then negF v else v, p))
    if terms.any (·.isNone) then none
    else
      let vs := terms.filterMap (fun t => t.map (·.1))
      let p := terms.any (fun t => (t.map (·.2)).getD false)
      let seed := Config.freeChoice m.seed (s0 + 65536 * rowOrd (m.dims.drop 1) row) 0
      some (mulF false (freeSum seed h vs) (rotNorm m.side), p)

/-- Largest finite magnitude of a list, and whether any of it is poisoned (R149, R165). -/
def amaxOf : List (FV × Bool) → (Nat × Nat) × Bool
  | [] => ((0, 1), false)
  | (v, p) :: t =>
    let (a, q) := amaxOf t
    (match v with
     | .fin _ n d => if p then a else ratMax a (n, d)
     | _ => a, p || q)

/-- All values of a list, none while one is missing. -/
def allSome {α : Type} (l : List (Option α)) : Option (List α) :=
  if l.any (·.isNone) then none else some (l.filterMap id)

/-- Stored scale bits and multiplier of an amax (R148, R149). -/
def scaleOf (m : Mv) (a : Nat × Nat) : Nat × FV :=
  let t := dDfmt m.d
  let (qn, qd) := qmaxOf t
  let one : Nat := if sScfmt m.side = 0 then 0x3F800000 else if sScfmt m.side = 1 then 0x3F80 else 0x7F
  if a.1 = 0 then (one, .fin false 1 1)
  else if sScfmt m.side = 2 then
    let e := if castClass t = 2 then flog2 a.1 a.2 - mxEmax t else cLog2 (a.1 * qd) (a.2 * qn)
    let e := max (-127) (min 127 e)
    ((e + 127).toNat, finPow false 1 (-e))
  else
    let f := if sScfmt m.side = 0 then fp32 else bf16
    let least := 2 ^ f.mb
    let s := max least (castFloat f 0 true (.fin false (a.1 * qd) (a.2 * qn))).bits
    match floatVal f s with
    | .fin _ n d => (s, toFp32 (.fin false d n))
    | _ => (s, .fin false 1 1)

/-- Stored scale and multiplier of CONST, and of DELAYED with an empty history (R148, R153). E8M0 has no sign: that of a
negative MULT is not stored. [DESIGN CHOICE: log 131] -/
def constScale (m : Mv) : Nat × FV :=
  let (n, d) := fp32Rat (sMult m.side)
  let neg := bit (sMult m.side) 31
  let inv : FV := .fin neg d n
  let s := if sScfmt m.side = 2 then (max (-127) (min 127 (nearLog2 d n)) + 127).toNat
    else (castFloat (if sScfmt m.side = 0 then fp32 else bf16) 0 true inv).bits
  (s, .fin neg n d)

/-- The elements over which a scale is formed: a row, or a group of it. -/
def scaleSet (m : Mv) (s0 : Nat) : List Nat :=
  if sMode m.side = 2 then List.range (val0 m)
  else (List.range (val0 m)).filter (fun i => i / sGsize m.side = s0 / sGsize m.side)

/-- Scale of the row or group of (s0, row): stored bits, multiplier, and whether it is poisoned (R148 to R152). A pair that
skips the amax (R142) stores scale 1, that of an amax of 0. [DESIGN CHOICE: log 128] -/
def scaleAt (m : Mv) (src : SrcData) (smv : Nat → Option (Nat × Bool)) (row : List Nat) (s0 : Nat) :
    Option (Nat × FV × Bool) :=
  match sMode m.side with
  | 0 => some (0, .fin false 1 1, false)
  | 1 => let (s, r) := constScale m; some (s, r, false)
  | 4 => match m.hist with
    | none => let (s, r) := constScale m; some (s, r, false)
    | some h => let (s, r) := scaleOf m (fp32Rat h); some (s, r, false)
  | _ =>
    if passThrough m.d m.side then let (s, r) := scaleOf m (0, 1); some (s, r, false)
    else match allSome ((scaleSet m s0).map (rotated m src smv row)) with
      | none => none
      | some l => let (a, p) := amaxOf l; let (s, r) := scaleOf m a; some (s, r, p)

/-- What the shaper gives for one in-bounds element: destination bits, whether they are written poisoned, whether its own x' is
poisoned and so left out of every maximum, sum and statistic (R165), what it counts, and its x' (R142). -/
structure Elem where
  cast   : Cast
  poison : Bool
  bad    : Bool
  x      : FV
  deriving DecidableEq, Repr

/-- The element path of source coordinate (s0, row). In ROW and GROUP mode a poisoned element poisons its whole row or group,
whose multiplier depends on it (R165). -/
def element (m : Mv) (src : SrcData) (smv : Nat → Option (Nat × Bool)) (row : List Nat) (s0 : Nat) : Option Elem :=
  if passThrough m.d m.side then
    (src (s0 :: row)).map (fun e => ⟨⟨e.1, false, false, false, false⟩, e.2, e.2, .fin false 0 1⟩)
  else if !dShp m.d then
    (src (s0 :: row)).map (fun e =>
      let v := elemVal (dSfmt m.d) e.1
      if castKind (dSfmt m.d) (dDfmt m.d) = .plain ∧ castClass (dSfmt m.d) = 4 ∧ castClass (dDfmt m.d) = 3 then
        ⟨⟨wrapInt 8 (sgn 4 e.1), false, false, false, false⟩, e.2, e.2, v⟩
      else ⟨castTo (dDfmt m.d) 0 true v, e.2, e.2, v⟩)
  else match rotated m src smv row s0, scaleAt m src smv row s0 with
    | some (x, p), some (_, r, sp) =>
      let y := if sMode m.side = 0 then x else mulF (Config.freeChoice m.seed s0 2 % 2 = 1) x r
      let c := castTo (dDfmt m.d) (sRnd m.side) (sSat m.side) y
      let z := match x with
        | .fin _ n _ => n ≠ 0 && c.bits % 2 ^ (mvWd m - 1) = 0 && !c.clip
        | _ => false
      some ⟨{ c with zero := z }, p || (sp && (sMode m.side = 2 || sMode m.side = 3)), p, x⟩
    | _, _ => none

/-- Integer result of an element that enters the sums (R156): NaN and infinity count as 0, poisoned elements are left out
(R165), and a pair that skips the sums adds nothing (R142). -/
def sumInt (m : Mv) (e : Elem) : Int :=
  if passThrough m.d m.side ∨ e.bad ∨ e.cast.nan ∨ e.cast.inf then 0 else sgn (mvWd m) e.cast.bits

/-- A sum includes a poisoned element (R165). -/
def sumBad (m : Mv) (l : List Elem) : Bool := !passThrough m.d m.side && l.any (·.poison)

/-! ## Side outputs (R155 to R157) -/

/-- One side entry: operand 3 scales, 4 row sums, 5 column sums; byte address, width, row, s0 or group. -/
structure SideEnt where
  opd  : Nat
  addr : Int
  len  : Nat
  row  : List Nat
  s0   : Nat
  live : Bool
  deriving DecidableEq, Repr

/-- Whether every plan entry is written, or only those with in-bounds positions (R157). -/
def sideWhole (m : Mv) : Bool := sSidesp m.side = .scratch || !dClip m.d

/-- A row has in-bounds positions. -/
def rowLive (m : Mv) (row : List Nat) : Bool := ((m.dims.drop 1).zip row).all (fun e => e.2 < e.1.val)

/-- Scale entries of a MOVE, in order. The table of R155 has none under NONE, whatever SCEN. [DESIGN CHOICE: log 130] -/
def scaleEnts (m : Mv) : List SideEnt :=
  let b := scBytes m.side
  let at_ := fun (i : Int) => (sScva m.side : Int) + b * (m.k * sScstep m.side + i)
  if !sScen m.side ∨ sMode m.side = 0 then []
  else if sMode m.side = 1 ∨ sMode m.side = 4 then [⟨3, at_ 0, b, [], 0, true⟩]
  else
    let rows := (if sideWhole m then rowsPlan m else rowsIn m)
    let o := fun (r : List Nat) => rowOrd (m.dims.drop 1) r
    if sMode m.side = 2 then rows.map (fun r => ⟨3, at_ (o r), b, r, 0, rowLive m r⟩)
    else
      let q := planGroups m
      let g := sGsize m.side
      rows.flatMap (fun r => ((List.range q).filter (fun i => sideWhole m || i * g < val0 m)).map (fun i =>
        ⟨3, at_ (if sSclay m.side then (i * planRows m.dims + o r : Nat) else (o r * q + i : Nat)), b, r, i * g,
         rowLive m r && decide (i * g < val0 m)⟩))

def rsumEnts (m : Mv) : List SideEnt :=
  if !sRsen m.side then []
  else (if sideWhole m then rowsPlan m else rowsIn m).map (fun r =>
    ⟨4, (sRsva m.side : Int) + 4 * (m.k * sRsstep m.side + rowOrd (m.dims.drop 1) r), 4, r, 0, rowLive m r⟩)

def csumEnts (m : Mv) : List SideEnt :=
  if !sCsen m.side then []
  else (List.range (if sideWhole m then planCols m.d else val0 m)).map (fun (s0 : Nat) =>
    ⟨5, (sCsva m.side : Int) + 4 * (m.k * sCsstep m.side + (s0 : Int)), 4, [], s0, decide (s0 < val0 m)⟩)

def sideEnts (m : Mv) : List SideEnt := if dShp m.d then scaleEnts m ++ rsumEnts m ++ csumEnts m else []

/-- First and last byte of entries; none when there are none. -/
def entsFoot : List SideEnt → Option (Int × Int)
  | [] => none
  | e :: t => match entsFoot t with
    | none => some (e.addr, e.addr + e.len - 1)
    | some (lo, hi) => some (min lo e.addr, max hi (e.addr + e.len - 1))

/-- A 32-bit signed saturated sum, and whether it saturated (R156). -/
def satSum (x : Int) : Nat × Bool :=
  if 2147483647 < x then (0x7FFFFFFF, true) else if x < -2147483648 then (0x80000000, true) else (wrapInt 32 x, false)

/-- Integer results of a column over every in-bounds row. -/
def colElems (m : Mv) (src : SrcData) (smv : Nat → Option (Nat × Bool)) (s0 : Nat) : Option (List Elem) :=
  allSome ((rowsIn m).map (fun r => element m src smv r s0))

/-- A running sum that saturates at each step, over the rows by rising ordinal (R156). [DESIGN CHOICE: log 129] -/
def satFold (l : List Int) : Nat × Bool :=
  let (x, s) := l.foldl (fun (acc : Int × Bool) v =>
    let y := acc.1 + v
    if 2147483647 < y then (2147483647, true) else if y < -2147483648 then (-2147483648, true) else (y, acc.2)) (0, false)
  (wrapInt 32 x, s)

/-- Value and poison of a side entry; none while an element it depends on has not arrived. -/
def sideVal (m : Mv) (src : SrcData) (smv : Nat → Option (Nat × Bool)) (e : SideEnt) : Option (Nat × Bool) :=
  if !e.live then some (if e.opd = 3 then (scaleOf m (0, 1)).1 else 0, false)
  else match e.opd with
    | 3 => (scaleAt m src smv e.row e.s0).map (fun x => (x.1, x.2.2))
    | 4 => (allSome ((List.range (val0 m)).map (element m src smv e.row))).map (fun l =>
        ((satSum ((l.map (sumInt m)).foldl (· + ·) 0)).1, sumBad m l))
    | _ => (colElems m src smv e.s0).map (fun l => ((satFold (l.map (sumInt m))).1, sumBad m l))

/-! ## Statistics (R158, R164) -/

/-- All in-bounds elements of a MOVE; none while one is missing. -/
def allElems (m : Mv) (src : SrcData) (smv : Nat → Option (Nat × Bool)) : Option (List Elem) :=
  allSome ((rowsIn m).flatMap (fun r => (List.range (val0 m)).map (fun s0 => element m src smv r s0)))

/-- Saturating addition to an accumulator of w bits, and whether it saturated. -/
def accAdd (w x d : Nat) : Nat × Bool := (min (2 ^ w - 1) (x + d), decide (2 ^ w - 1 < x + d))

/-- The statistics after a MOVE's elements, poisoned ones left out (R158, R165). -/
def statAdd (s : Stats) (pass : Bool) (l : List Elem) : Stats :=
  let l := if pass then [] else l.filter (fun e => !e.bad)
  let n := fun (f : Elem → Bool) => (l.filter f).length
  let (e, a1) := accAdd 64 s.elems l.length
  let (c, a2) := accAdd 64 s.clipped (n (fun e => e.cast.clip))
  let (na, a3) := accAdd 32 s.nans (n (fun e => e.cast.nan))
  let (i, a4) := accAdd 32 s.infs (n (fun e => e.cast.inf))
  let (z, a5) := accAdd 32 s.zeroed (n (fun e => e.cast.zero))
  let (mv, a6) := accAdd 32 s.moves 1
  let a := (amaxOf (l.map (fun e => (e.x, false)))).1
  { s with elems := e, clipped := c, nans := na, infs := i, zeroed := z, moves := mv, amax := max s.amax (fp32Bits a),
           sat := s.sat || a1 || a2 || a3 || a4 || a5 || a6 }

/-- The marker of an empty MOVE (R160). -/
def statEmpty (s : Stats) : Stats :=
  let (mv, a) := accAdd 32 s.moves 1
  let (e, c) := accAdd 32 s.empty 1
  { s with moves := mv, empty := e, sat := s.sat || a || c }

/-- A content fault of the shaper counts (R158). -/
def statFault (s : Stats) : Stats :=
  let (f, a) := accAdd 32 s.faults 1
  { s with faults := f, sat := s.sat || a }

/-- The lowest column whose sum saturated (R164). [DESIGN CHOICE: log 129] -/
def satColumn (m : Mv) (src : SrcData) (smv : Nat → Option (Nat × Bool)) : Option Nat :=
  if !sCsen m.side then none
  else (List.range (val0 m)).find? (fun s0 => ((colElems m src smv s0).map (fun l => (satFold (l.map (sumInt m))).2)).getD false)

/-- The statistics record (R159): eight words. -/
def statRecord (s : Stats) (k : Nat) (adv : Bool) (hist : Nat) (seq : Word) : List Nat :=
  [s.elems, s.clipped, s.nans + 2 ^ 32 * s.infs, s.zeroed + 2 ^ 32 * s.amax, s.moves + 2 ^ 32 * s.empty, s.faults,
   k + b2n s.sat * 2 ^ 16 + b2n adv * 2 ^ 17 + (if adv then hist else 0) * 2 ^ 18 + seq.toNat * 2 ^ 32, 0]

/-! ## History (R153) -/

/-- The captured maximum of a DELAYED MOVE; none with an empty history. The product with 2^MARGIN is rounded RNE to FP32, and
stops at the largest finite value. [DESIGN CHOICE: log 132] -/
def histCapture (h : Hist) (dlen : Nat) (margin : Int) : Option Nat :=
  if h.count = 0 then none
  else
    let top := ((h.entries.take (min (dlen + 1) h.count)).foldl max 0)
    let (n, d) := fp32Rat top
    let (a, c) := pow2 margin
    some (castFloat fp32 0 true (.fin false (n * a) (d * c))).bits

/-- Push the accumulator into entry 0. -/
def histPush (h : Hist) : Hist :=
  { entries := (h.acc :: h.entries).take 16, count := min 16 (h.count + 1), acc := 0 }

end Sys2Proof.Machine
end

