-- ==== Sys2Proof/Machine/Codec.lean ====
section
/-! DEFINITION. The codec (R168 to R194): side block fields, block headers, decoding a block, decode tables, encoding. -/
namespace Sys2Proof.Machine

/-! ## Side block fields (R182) -/

def cChva (s : Nat) : Nat := bits (sW s 12) 56 0
def cDlva (s : Nat) : Nat := bits (sW s 13) 56 0
def cDhva (s : Nat) : Nat := bits (sW s 14) 56 0
def cTmask (s : Nat) : Nat := bits (sW s 15) 3 0
def cDelta (s : Nat) : Bool := bit (sW s 15) 4
def cEmode (s : Nat) : Nat := bits (sW s 15) 6 5

/-- A decode MOVE, a delta MOVE, an encode MOVE. -/
def mvDec (m : Mv) : Bool := dCodec m.d = 1
def mvDelta (m : Mv) : Bool := mvDec m && cDelta m.side
def mvEnc (m : Mv) : Bool := dCodec m.d = 2

/-- Width and space of the compressed side; under DELTA that of the base (R182, R183). -/
def cW (m : Mv) : Nat := if mvEnc m then mvWd m else mvWs m
def cSpace (m : Mv) : Space := if mvEnc m then mvDspace m else mvSspace m

/-- Origin O (R168). -/
def cO (m : Mv) : Nat := if mvEnc m then dDbase m.d else dSbase m.d

/-- Place that holds a byte (R168). -/
def placeOf (a : Nat) : Nat := a / 4096 * 4096

/-- A − O as a signed value. -/
def placeOff (m : Mv) (a : Nat) : Int := sgn 64 (wrapInt 64 ((a : Int) - cO m))

/-- Address of a block's header (R168, R172). -/
def hdrAddr (m : Mv) (a : Nat) : Int :=
  (if mvDelta m then cDhva m.side else cChva m.side : Nat) + 8 * (placeOff m a / 4096)

/-- Address of the place that a block's payload starts at: under DELTA the delta block's (R172). -/
def payAddr (m : Mv) (a : Nat) : Int := if mvDelta m then (cDlva m.side : Int) + placeOff m a else a

/-- Reserved bits and values of S12 to S15. -/
def codecReserved (s : Nat) : Bool :=
  bits (sW s 12) 63 57 ≠ 0 || bits (sW s 13) 63 57 ≠ 0 || bits (sW s 14) 63 57 ≠ 0 || bits (sW s 15) 63 7 ≠ 0 ||
    cEmode s = 3

/-- The layout conditions on a compressed side (R183): base after offsets, O, width, strides. -/
def layoutBad (base o w : Nat) (str : List Int) : Bool :=
  str.headD 1 ≠ 1 || base % 4096 ≠ 0 || o % 4096 ≠ 0 || (str.drop 1).any (fun x => x * w % 32768 ≠ 0)

/-- The conditions of R183. -/
def codecIllegal (d side sb db : Nat) : Bool :=
  let enc := dCodec d = 2
  let w := if enc then fmtWidth (dDfmt d) else fmtWidth (dSfmt d)
  let sp := spaceOf (if enc then dDspace d else dSspace d)
  let str := (List.range (dN d)).map (fun i => if enc then dDstr d i else dSstr d i)
  codecReserved side || sp = .scratch || !([4, 8, 16, 32].contains w) ||
    layoutBad (if enc then db else sb) (if enc then dDbase d else dSbase d) w str ||
    (!cDelta side && cChva side % 8 ≠ 0) || (cDelta side && cDhva side % 8 ≠ 0) || cDlva side % 4096 ≠ 0 ||
    (cDelta side && (enc || cTmask side = 0 || (dShp d && sSmen side))) || (cTmask side ≠ 0 && !cDelta side) ||
    (enc && (dClip d || dExt d 0 * w % 1024 ≠ 0))

/-! ## Blocks (R169, R184, R190) -/

/-- Keep the first of equal elements. -/
def dedup (l : List Nat) : List Nat := (l.foldl (fun acc x => if acc.contains x then acc else x :: acc) []).reverse

/-- Places of the blocks that a decode MOVE reads, in the order they are first needed (R184). -/
def decPlaces (m : Mv) : List Nat := dedup ((mvReadOrder m).map (fun j => placeOf (srcBit m j / 8 % 2 ^ 64)))

/-- The blocks that an encode MOVE writes, in order: place, row, first element, declared lines (R190). -/
structure EncSpec where
  place  : Nat
  row    : List Nat
  first  : Nat
  lines  : Nat
  deriving DecidableEq, Repr

def encSpecs (m : Mv) : List EncSpec :=
  let e0 := (m.dims.headD ⟨0, 0, 1, 0, 1⟩).ext
  let bytes := e0 * mvWd m / 8
  let per := 32768 / mvWd m
  (positions ((m.dims.drop 1).map (·.ext))).flatMap (fun r =>
    (List.range (ceilDiv bytes 4096)).map (fun i =>
      { place := (dstBit m (0 :: r) / 8 + 4096 * i) % 2 ^ 64, row := r, first := i * per,
        lines := if bytes - 4096 * i < 4096 then (bytes - 4096 * i) / 128 else 32 }))

def hKind (h : Nat) : Nat := bits h 1 0
def hEw (h : Nat) : Nat := bits h 3 2
def hClen (h : Nat) : Nat := bits h 16 4
def hOlines (h : Nat) : Nat := bits h 22 17
def hMerge (h : Nat) : Bool := bit h 23
def hTslot (h : Nat) : Nat := bits h 25 24
def hTgen (h : Nat) : Nat := bits h 33 26

/-- Code of an element width (R169). -/
def ewCode (w : Nat) : Nat := if w = 4 then 0 else if w = 8 then 1 else if w = 16 then 2 else 3

/-- BAD_BLOCK (R187). -/
def blockBad (w : Nat) (delta : Bool) (h : Nat) : Bool :=
  bits h 63 34 ≠ 0 || hOlines h = 0 || 32 < hOlines h || hClen h % 16 ≠ 0 || 128 * hOlines h < hClen h ||
    hEw h ≠ ewCode w || (if delta then hKind h = 1 else hKind h = 2) || (hKind h = 3 && hClen h ≠ 0) ||
    (hKind h = 2 && hClen h < 16)

/-- The bound state of a slot. -/
def boundOf (m : Mv) (slot : Nat) : Option Bound := m.bound.find? (fun b => b.slot = slot)

/-- STALE_TABLE (R180). -/
def blockStale (m : Mv) (h : Nat) : Bool :=
  hKind h = 2 && (match boundOf m (hTslot h) with
    | none => true
    | some b => !(bit (cTmask m.side) (hTslot h)) || !b.valid || b.gen ≠ hTgen h)

/-- A block whose payload is read (R184). -/
def blockRead (m : Mv) (h : Nat) : Bool := !blockBad (cW m) (mvDelta m) h && !blockStale m h && hKind h ≠ 3

/-- A block whose base is read (R172, R184). -/
def blockBase (m : Mv) (h : Nat) : Bool :=
  mvDelta m && !blockBad (cW m) true h && !blockStale m h && (hKind h = 2 || hKind h = 3)

/-! ## Decode tables (R174 to R176) -/

/-- Canonical code words: symbol, length, code word (R175). -/
def canonGo (tab : List (Nat × Nat)) : Nat → Nat → Nat → List (Nat × Nat × Nat)
  | 0, _, _ => []
  | f + 1, len, c =>
    let syms := (List.range tab.length).filter (fun s => (tab.getD s (0, 0)).1 = len)
    (syms.zipIdx).map (fun e => (e.1, len, c + e.2)) ++ canonGo tab f (len + 1) ((c + syms.length) * 2)

def canon (tab : List (Nat × Nat)) : List (Nat × Nat × Nat) := canonGo tab 16 1 0

/-- Table bytes: NSYM lengths, their padding, NSYM values, their padding. -/
def tabNsym (t0 : Nat) : Nat := bits t0 24 16
def tabLen (t0 : Nat) : Nat := bits t0 15 0
def tabEsc (t0 : Nat) : Option Nat := if bit t0 33 then some (bits t0 32 25) else none

/-- T0 and T1 meet R174. -/
def tabHeadOk (t0 t1 : Nat) : Bool :=
  bits t0 63 34 = 0 && t1 = 0 && 1 ≤ tabNsym t0 && tabNsym t0 ≤ 256 &&
    tabLen t0 = 16 + roundUp (tabNsym t0) 16 + roundUp (2 * tabNsym t0) 16

/-- The table's symbols from its bytes: length and value. -/
def tabSyms (t0 : Nat) (byte : Nat → Nat) : List (Nat × Nat) :=
  let v := 16 + roundUp (tabNsym t0) 16
  (List.range (tabNsym t0)).map (fun s => (byte (16 + s), byte (v + 2 * s) + 256 * byte (v + 2 * s + 1)))

/-- The table is valid (R176). -/
def tabValid (t0 t1 : Nat) (byte : Nat → Nat) : Bool :=
  let n := tabNsym t0
  let v := 16 + roundUp n 16
  let syms := tabSyms t0 byte
  tabHeadOk t0 t1 &&
    (List.range (v - 16 - n)).all (fun i => byte (16 + n + i) = 0) &&
    (List.range (tabLen t0 - v - 2 * n)).all (fun i => byte (v + 2 * n + i) = 0) &&
    syms.all (fun s => s.1 ≤ 16) && syms.any (fun s => s.1 ≠ 0) &&
    ((syms.filter (fun s => s.1 ≠ 0)).map (fun s => 2 ^ (16 - s.1))).foldl (· + ·) 0 ≤ 65536 &&
    (match tabEsc t0 with
     | none => true
     | some e => decide (e < n) && (syms.getD e (0, 0)).1 ≠ 0)

/-! ## Decoding one block (R171, R173, R186) -/

/-- Payload bytes as they arrived: value and poison; bytes at or beyond CLEN are none. -/
abbrev Payload := Nat → Option (Nat × Bool)

/-- Bits [a, a + n) of a byte string, and whether any of it is poisoned; none past the end. -/
def takeBits (pay : Payload) (a n : Nat) : Option (Nat × Bool) :=
  let idx := (List.range ((a + n - 1) / 8 + 1 - a / 8)).map (fun i => a / 8 + i)
  let l := idx.map pay
  if n = 0 then some (0, false)
  else if l.any (·.isNone) then none
  else
    let bs := l.filterMap id
    let x := (bs.zipIdx).foldl (fun acc e => acc + e.1.1 * 256 ^ e.2) 0
    some (bits x (a % 8 + n - 1) (a % 8), bs.any (·.2))

/-- Result of decoding: the elements of the declared output, and the faults: kind and first poisoned line. -/
structure Decoded where
  elems  : List (Nat × Bool)
  faults : List (Nat × Nat)
  deriving DecidableEq, Repr

/-- All elements of a block poisoned. -/
def allPoison (n : Nat) : List (Nat × Bool) := List.replicate n (0, true)

/-- Poison every element from the first poisoned one on (R189). -/
def poisonRest : List (Nat × Bool) → List (Nat × Bool)
  | [] => []
  | (x, true) :: t => (x, true) :: t.map (fun e => (e.1, true))
  | (x, false) :: t => (x, false) :: poisonRest t

/-- RAW: the payload verbatim; elements past CLEN poisoned with UNDERRUN. -/
def decRaw (w h : Nat) (pay : Payload) : Decoded :=
  let n := 1024 / w * hOlines h
  let l := (List.range n).map (fun i => (takeBits pay (w * i) w).getD (0, true))
  { elems := poisonRest l,
    faults := if hClen h < 128 * hOlines h then [(0x06, hClen h / 128)] else [] }

/-- SPARSE (R171): walk the elements with the rank of the next set bit. -/
def sparseGo (w vb : Nat) (pay : Payload) : Nat → Nat → Nat → List (Option (Nat × Bool))
  | 0, _, _ => []
  | f + 1, p, r =>
    match takeBits pay p 1 with
    | none => [none]
    | some (b, q) =>
      if b = 0 then some (0, q) :: sparseGo w vb pay f (p + 1) r
      else match takeBits pay (8 * vb + w * r) w with
        | none => [none]
        | some (v, q') => some (v, q || q') :: sparseGo w vb pay f (p + 1) (r + 1)

def decSparse (w h : Nat) (pay : Payload) : Decoded :=
  let n := 1024 / w * hOlines h
  let bm := 128 * hOlines h / w
  let l := sparseGo w (roundUp bm 16) pay n 0 0
  let good := l.filterMap id
  if good.length < n then
    { elems := poisonRest (good ++ allPoison (n - good.length)), faults := [(0x06, good.length * w / 1024)] }
  else
    let cnt := ((List.range n).filter (fun p => ((takeBits pay p 1).getD (0, false)).1 = 1)).length
    { elems := poisonRest good,
      faults := if roundUp bm 16 + roundUp (ceilDiv (cnt * w) 8) 16 < hClen h then [(0x05, 0)] else [] }

/-- Read a code word of a table at a stream position: symbol, next position, poison; none when the stream ends or no
symbol matches. -/
def readCode (codes : List (Nat × Nat × Nat)) (pay : Payload) (stop : Nat) : Nat → Nat → Nat → Nat → Bool →
    Option (Nat × Nat × Bool)
  | 0, _, _, _, _ => none
  | f + 1, pos, len, c, q =>
    if stop ≤ pos then none
    else match takeBits pay (128 + pos) 1 with
      | none => none
      | some (b, q') =>
        let c := 2 * c + b
        let len := len + 1
        match codes.find? (fun e => e.2.1 = len && e.2.2 = c) with
        | some e => some (e.1, pos + 1, q || q')
        | none => readCode codes pay stop f (pos + 1) len c (q || q')

/-- One token of a line (R173): the line's elements after it, next position, poison; none when the stream ends. -/
def deltaToken (w : Nat) (merge : Bool) (b : Bound) (pay : Payload) (stop pos : Nat) (line : List Nat) :
    Option (List Nat × Nat × Bool) :=
  let pb := Nat.log2 (1024 / w)
  if stop < pos + pb then none
  else match takeBits pay (128 + pos) pb with
    | none => none
    | some (p, q) => match readCode (canon b.table) pay stop 16 (pos + pb) 0 0 false with
      | none => none
      | some (sym, pos1, q1) =>
        let lit := if b.esc = some sym then
            (if stop < pos1 + w then none else (takeBits pay (128 + pos1) w).map (fun x => (x.1, pos1 + w, x.2)))
          else some ((b.table.getD sym (0, 0)).2 % 2 ^ w, pos1, false)
        match lit with
        | none => none
        | some (v, pos2, q2) =>
          let old := line.getD p 0
          some (line.set p (if merge then old ^^^ v else v), pos2, q || q1 || q2)

/-- The tokens of one line. -/
def deltaLine (w : Nat) (merge : Bool) (b : Bound) (pay : Payload) (stop : Nat) : Nat → Nat → List Nat → Bool →
    Option (List Nat × Nat × Bool)
  | 0, pos, line, q => some (line, pos, q)
  | f + 1, pos, line, q => match deltaToken w merge b pay stop pos line with
    | none => none
    | some (line', pos', q') => deltaLine w merge b pay stop f pos' line' (q || q')

/-- The lines of a DELTA block from line l on. A poisoned token, or a poisoned count, poisons its line and every later one
(R189). The base gives each line's elements and whether the line is poisoned. -/
def deltaGo (w : Nat) (merge : Bool) (bd : Bound) (pay : Payload) (stop : Nat) (base : Nat → List Nat × Bool) :
    Nat → Nat → Nat → Bool → List (Nat × Bool) × List (Nat × Nat)
  | 0, _, pos, _ => ([], if 128 ≤ stop - pos then [(0x05, 0)] else [])
  | f + 1, l, pos, q =>
    let per := 1024 / w
    let (els, bq) := base l
    match takeBits pay (4 * l) 4 with
    | none => (allPoison (per * (f + 1)), [(0x06, l)])
    | some (cnt, cq) => match deltaLine w merge bd pay stop cnt pos els false with
      | none => (allPoison (per * (f + 1)), [(0x06, l)])
      | some (els', pos', tq) =>
        let q' := q || cq || tq
        let (rest, fs) := deltaGo w merge bd pay stop base f (l + 1) pos' q'
        (els'.map (fun x => (x, q' || bq)) ++ rest, fs)

def decDelta (w h : Nat) (bd : Bound) (pay : Payload) (base : Nat → List Nat × Bool) : Decoded :=
  let (l, fs) := deltaGo w (hMerge h) bd pay (8 * (hClen h - 16)) base (hOlines h) 0 0 false
  { elems := l, faults := fs }

/-- Decode a block of a MOVE: its declared elements and its content faults; a bad or stale block and one whose header is
poisoned is poisoned whole (R180, R187, R189). -/
def decodeBlock (m : Mv) (h : Nat) (hq : Bool) (pay : Payload) (base : Nat → List Nat × Bool) : Decoded :=
  let w := cW m
  let whole := 32768 / w
  if hq then { elems := allPoison whole, faults := [] }
  else if blockBad w (mvDelta m) h then { elems := allPoison whole, faults := [(0x08, 0)] }
  else if blockStale m h then { elems := allPoison whole, faults := [(0x07, 0)] }
  else match hKind h with
    | 0 => decRaw w h pay
    | 1 => decSparse w h pay
    | 2 => match boundOf m (hTslot h) with
      | some bd => decDelta w h bd pay base
      | none => { elems := allPoison whole, faults := [(0x07, 0)] }
    | _ =>
      let per := 1024 / w
      { elems := (List.range (hOlines h)).flatMap (fun l =>
          let (els, q) := if mvDelta m then base l else (List.replicate per 0, false)
          els.map (fun x => (x, q))), faults := [] }

/-- In-bounds elements of a MOVE that lie in a block at or beyond its declared lines (R186). -/
def beyondLines (m : Mv) (place elems : Nat) : Bool :=
  (mvReadOrder m).any (fun j => let a := srcBit m j; placeOf (a / 8 % 2 ^ 64) = place &&
    elems ≤ (a - 8 * place) / cW m)

/-- First line of a block at or beyond its declared lines that holds an in-bounds element. -/
def beyondLine (m : Mv) (place elems : Nat) : Nat :=
  match ((mvReadOrder m).map (fun j => srcBit m j)).filter (fun a =>
      placeOf (a / 8 % 2 ^ 64) = place && elems ≤ (a - 8 * place) / cW m) with
  | [] => 0
  | a :: t => (t.foldl min a - 8 * place) / 1024

/-! ## Encoding (R190) -/

/-- Bytes of a list of w-bit elements from bit 0, each byte with the poison of the elements in it. -/
def packElems (w : Nat) (l : List (Nat × Bool)) : List (Byte × Bool) :=
  let x := (l.zipIdx).foldl (fun acc e => acc + e.1.1 % 2 ^ w * 2 ^ (w * e.2)) 0
  (List.range (ceilDiv (w * l.length) 8)).map (fun i =>
    (BitVec.ofNat 8 (byteAt x i),
     (List.range ((8 * i + 7) / w + 1 - 8 * i / w)).any (fun k => (l.getD (8 * i / w + k) (0, false)).2)))

/-- Pad a byte list with zeros to a multiple of 16. -/
def pad16 (l : List (Byte × Bool)) : List (Byte × Bool) :=
  l ++ List.replicate (roundUp l.length 16 - l.length) (0, false)

/-- SPARSE payload. -/
def sparsePay (w : Nat) (l : List (Nat × Bool)) : List (Byte × Bool) :=
  pad16 (packElems 1 (l.map (fun e => (b2n (e.1 % 2 ^ w ≠ 0), false)))) ++
    pad16 (packElems w (l.filter (fun e => e.1 % 2 ^ w ≠ 0)))

/-- A block's header word. -/
def mkHeader (w kind clen lines : Nat) : Nat := kind + ewCode w * 2 ^ 2 + clen * 2 ^ 4 + lines * 2 ^ 17

/-- Encode one block. Where the kind depends on the elements, a poisoned one poisons payload and header, all of which
derive from it (R132); under RAW_ONLY only its own bytes. -/
def encodeBlock (w emode place lines : Nat) (l : List (Nat × Bool)) : EncBlk :=
  let q := l.any (·.2) && emode ≠ 1
  let mark := fun (p : List (Byte × Bool)) => if q then p.map (fun e => (e.1, true)) else p
  let raw : EncBlk := { place := place, payload := mark (packElems w l), header := mkHeader w 0 (128 * lines) lines, hpois := q }
  let sp := sparsePay w l
  let zero := l.all (fun e => e.1 % 2 ^ w = 0)
  if emode = 1 then raw
  else if zero ∧ emode = 0 then { place := place, payload := [], header := mkHeader w 3 0 lines, hpois := q }
  else if sp.length < 128 * lines then
    { place := place, payload := mark sp, header := mkHeader w 1 sp.length lines, hpois := q }
  else raw

end Sys2Proof.Machine
end

