-- ==== Sys2Proof/Machine/Datapath.lean ====
section
/-! DEFINITION. The data path of an operation: what has arrived, the values it delivers, and the plans of its read bursts
and of its write lines. Operand numbers: 0 source, 1 destination, 2 smoothing vector, 3 scales, 4 row sums, 5 column sums
(the coding of R129), 6 payload or delta places, 7 codec headers, 8 list line, 9 an instruction's own operand. -/
namespace Sys2Proof.Machine

/-! ## Arrived bytes -/

def gotKey (opd a : Nat) : Nat := opd * 2 ^ 57 + a % 2 ^ 64 / 128

/-- A byte of an operand that has arrived. -/
def gotByte (g : Tab Arr) (opd a : Nat) : Option (Nat × Bool) :=
  match tget g (gotKey opd a) with
  | none => none
  | some x => if x.mask.testBit (a % 128) then some (byteAt x.data (a % 128), x.pois.testBit (a % 128)) else none

/-- The number that n arrived bytes hold, little-endian. -/
def gotNum (g : Tab Arr) (opd a n : Nat) : Option (Nat × Bool) :=
  let l := (List.range n).map (fun i => gotByte g opd (a + i))
  if l.any (·.isNone) then none
  else
    let bs := l.filterMap id
    some ((bs.zipIdx).foldl (fun acc e => acc + e.1.1 * 256 ^ e.2) 0, bs.any (·.2))

/-- w bits at bit address x of an operand. -/
def gotBits (g : Tab Arr) (opd x w : Nat) : Option (Nat × Bool) :=
  (gotNum g opd (x / 8) ((x + w - 1) / 8 + 1 - x / 8)).map (fun e => (bits e.1 (x % 8 + w - 1) (x % 8), e.2))

/-- All ones in every byte of a mask. -/
def byteMask (mask : Nat) : Nat := (setBits 128 mask).foldl (fun acc i => acc + 255 * 256 ^ i) 0

/-- Bytes of one line that arrive beside those that are there. -/
def arrive (x : Arr) (mask data pois : Nat) : Arr :=
  let m := byteMask mask
  { mask := x.mask ||| mask, data := clearBits x.data m ||| (data &&& m), pois := clearBits x.pois mask ||| (pois &&& mask) }

/-- Store the masked bytes of a line that has returned; `q` says which are poisoned. -/
def storeBytes (g : Tab Arr) (opd base mask n data : Nat) (q : Nat → Bool) : Tab Arr :=
  (List.range (n / 128)).foldl (fun g h =>
    let part := bits mask (128 * h + 127) (128 * h)
    if part = 0 then g
    else
      let k := gotKey opd (base + 128 * h)
      let x := tgetD g k { mask := 0, data := 0, pois := 0 }
      tput g k (arrive x part (data >>> (1024 * h)) (maskOf ((setBits 128 part).filter (fun i => q (128 * h + i)))))) g

/-! ## Elements -/

/-- Source swap (R128). -/
def srcSwap (d w x : Nat) : Nat := if dSwapDst d then x else swapElem (dSwap d) w x

/-- The source elements of an operation that have arrived, after swap and decoding (R121). Under DELTA the swap acts on the
base before the tokens merge (`blockBaseLine`) and on nothing of the delta blocks; the blocks of a compressed source carry
their elements unswapped, and swapping before or after the decoder is one. [DEDUCED: log 124] -/
def mvSrc (m : Mv) (o : Op) : SrcData := fun s =>
  let a := wrapInt 67 (8 * (m.sb : Int) + mvWs m * dot (m.dims.map (·.ss)) s)
  if mvDec m then
    let pl := placeOf (a / 8 % 2 ^ 64)
    match tget o.decoded (pl / 4096) with
    | none => none
    | some l =>
      let e := l.getD ((a - 8 * pl) / mvWs m) (0, true)
      some (if mvDelta m then e.1 else srcSwap m.d (mvWs m) e.1, e.2)
  else (gotBits o.got 0 a (mvWs m)).map (fun e => (srcSwap m.d (mvWs m) e.1, e.2))

/-- The smoothing factor of source coordinate s0 (R143). -/
def mvSmv (m : Mv) (o : Op) : Nat → Option (Nat × Bool) := fun s0 =>
  gotNum o.got 2 (sSmva m.side + 2 * (s0 + m.k * sColstep m.side)) 2

/-- Value of a position in bounds. -/
def inVal (m : Mv) (o : Op) (j : List Nat) : Option (Nat × Bool) :=
  let c := srcCoord m.dims j
  (element m (mvSrc m o) (mvSmv m o) (c.drop 1) (c.headD 0)).map (fun e => (e.cast.bits, e.poison))

/-- The in-bounds position nearest to a position (R119). -/
def edgePos (m : Mv) (j : List Nat) : List Nat :=
  List.zipWith (fun (x : Dim) i => max x.pad (min i (x.pad + x.val - 1))) m.dims j

/-- Destination value of a position, after pad insertion and destination swap (R119, R128). -/
def posVal (m : Mv) (o : Op) (j : List Nat) : Option (Nat × Bool) :=
  let wd := mvWd m
  let v : Option (Nat × Bool) :=
    if inBounds m.dims j then inVal m o j
    else match dPadmode m.d with
      | 0 => some (0, false)
      | 1 => some (if wd = 64 then dPadc m.d + 2 ^ 32 * dPadc m.d else dPadc m.d % 2 ^ wd, false)
      | _ => inVal m o (edgePos m j)
  v.map (fun e => (if dSwapDst m.d then swapElem (dSwap m.d) wd e.1 else e.1, e.2))

/-! ## PACKED vault sources (R332, R333) -/

/-- H of the expanded view. -/
def packH (cl : List Nat) : Nat := roundUp (8 * cl.length) 4096

/-- A byte of the expanded view that is present. -/
def packHas (cl : List Nat) (x : Nat) : Bool :=
  x < 8 * cl.length || (packH cl ≤ x && decide ((x - packH cl) % 4096 < cl.getD ((x - packH cl) / 4096) 0))

/-- A position whose source bytes are present, a pad position that shows an edge element among them (R119); every position of
any other source, and of a constant pad. -/
def posHas (m : Mv) (j : List Nat) : Bool :=
  match m.pack with
  | none => true
  | some cl =>
    if inBounds m.dims j || decide (2 ≤ dPadmode m.d) then
      (bytesOf (srcBit m (edgePos m j)) (mvWs m)).all (fun a => packHas cl (a % 2 ^ 44))
    else true

/-! ## Read plan (R118, R124, R143, R184) -/

/-- Read bursts of an operand's bytes in order. -/
def readBursts (opd : Nat) (sp : Space) (l : List Nat) : List Burst := formBursts opd sp l []

/-- Smoothing vector elements read at the start stage (R143). -/
def smoothBursts (m : Mv) : List Burst :=
  if dShp m.d && sSmen m.side then
    readBursts 2 (sSidesp m.side) ((List.range (2 * val0 m)).map (fun i => (sSmva m.side + 2 * m.k * sColstep m.side + i) % 2 ^ 64))
  else []

/-- Header of a block that has arrived. -/
def hdrGot (m : Mv) (o : Op) (a : Nat) : Option (Nat × Bool) := gotNum o.got 7 (wrapInt 64 (hdrAddr m a)) 8

/-- Bursts of one block after its header: its payload, and the base bytes of its in-bounds elements (R184). -/
def blockBursts (m : Mv) (a h : Nat) : List Burst :=
  (if blockRead m h then
    readBursts 6 (cSpace m) ((List.range (hClen h)).map (fun (i : Nat) => wrapInt 64 (payAddr m a + i))) else []) ++
  (if blockBase m h then
    readBursts 0 (cSpace m) (((mvReadOrder m).filter (fun j => placeOf (srcBit m j / 8 % 2 ^ 64) = a)).flatMap (fun j =>
      bytesOf (srcBit m j) (mvWs m))) else [])

/-- The bursts of the blocks of a group as far as their headers are known, and whether they all are. -/
def decPlanGo (m : Mv) (o : Op) : List Nat → List Burst → List Burst × Bool
  | [], acc => (acc, true)
  | a :: t, acc => match hdrGot m o a with
    | none => (acc, false)
    | some (h, q) => decPlanGo m o t (acc ++ (if q then [] else blockBursts m a h))

/-- Blocks grouped by the line that holds their headers. -/
def hdrGroups (m : Mv) : List Nat → List (List Nat) → List (List Nat)
  | [], acc => acc.reverse
  | a :: t, acc => match acc with
    | (c :: cs) :: rest =>
      if wrapInt 64 (hdrAddr m a) / 128 = wrapInt 64 (hdrAddr m c) / 128 then hdrGroups m t ((c :: cs ++ [a]) :: rest)
      else hdrGroups m t ([a] :: acc)
    | _ => hdrGroups m t ([a] :: acc)

/-- The read of a group's headers. -/
def hdrBursts (m : Mv) (g : List Nat) : List Burst :=
  readBursts 7 (cSpace m) (g.flatMap (fun a => (List.range 8).map (fun (i : Nat) => wrapInt 64 (hdrAddr m a + i))))

/-- The groups whose headers are read next, and those left: headers run up to 64 blocks ahead of a block that the decoder has
yet to take (R184). `room` is what is left of the 64. -/
def hdrAhead : Nat → List (List Nat) → List (List Nat) × List (List Nat)
  | _, [] => ([], [])
  | room, g :: gs => if g.length ≤ room then ((hdrAhead (room - g.length) gs).1.cons g, (hdrAhead (room - g.length) gs).2)
    else ([], g :: gs)

/-- The rest of a decode MOVE's plan. `read` are the groups whose headers the plan has read and whose blocks it has not, `left`
the others. After a group's blocks the headers go on as far as the blocks behind it allow. -/
def decPlan (m : Mv) (o : Op) : Nat → List (List Nat) → List (List Nat) → List Burst → List Burst × Bool
  | 0, _, _, acc => (acc, true)
  | f + 1, read, left, acc =>
    let (new, left) := hdrAhead (64 - read.flatten.length) left
    let read := read ++ new
    let acc := acc ++ new.flatMap (hdrBursts m)
    match read with
    | [] => (acc, true)
    | g :: gs => match decPlanGo m o g acc with
      | (l, false) => (l, false)
      | (l, true) => decPlan m o f gs left l

/-- Blocks whose headers a decode MOVE has asked for: those of every header burst issued, and of the next read if it is one. -/
def hdrAsked (m : Mv) (plan : List Burst) (o : Op) : Nat :=
  let iss := (plan.take (o.rIss + 1)).filter (fun br => br.opd = 7)
  ((decPlaces m).filter (fun a => iss.any (fun br => br.line = wrapInt 64 (hdrAddr m a) / 128))).length

/-- Read bursts of a MOVE as far as they are known, and whether that is all. -/
def mvReadPlan (m : Mv) (o : Op) : List Burst × Bool :=
  if mvDec m then
    let g := hdrGroups m (decPlaces m) []
    decPlan m o (g.length + 1) [] g (smoothBursts m)
  else (smoothBursts m ++ readBursts 0 (mvSspace m)
    (((mvReadOrder m).filter (posHas m)).flatMap (fun j => bytesOf (srcBit m j) (mvWs m))), true)

/-- The next read of an operation is no header that would run more than 64 blocks ahead of the decoder (R184). -/
def hdrRoom (o : Op) : Bool :=
  match o.mv with
  | none => true
  | some m =>
    if !mvDec m then true
    else
      let plan := (mvReadPlan m o).1
      match plan[o.rIss]? with
      | some br => br.opd ≠ 7 || decide (hdrAsked m plan o ≤ o.decoded.length + 64)
      | none => true

/-- Lines of a TLOAD: the first 16 bytes, then the rest of TLEN (R176). -/
def tloadPlan (o : Op) : List Burst × Bool :=
  let va := o.desc
  let first := readBursts 9 .mem ((List.range 16).map (· + va))
  match gotNum o.got 9 va 8, gotNum o.got 9 (va + 8) 8 with
  | some (t0, q), some (t1, q1) =>
    if q || q1 || !tabHeadOk t0 t1 then (first, true)
    else (first ++ readBursts 9 .mem ((List.range (tabLen t0 - 16)).map (· + (va + 16))), true)
  | _, _ => (first, false)

/-- Length in bytes of a FILL or COPY (R95). -/
def unitLen (o : Op) : Nat := bits o.w0.toNat 39 16
def fillDst (o : Op) : Nat := bits o.w1.toNat 31 0
def copySrc (o : Op) : Nat := bits o.w1.toNat 31 0
def copyDst (o : Op) : Nat := bits o.w1.toNat 63 32

/-- A whole scratch line as a burst. -/
def wholeLine (opd a : Nat) : Burst := { opd := opd, space := .scratch, line := a / 256, mask := 2 ^ 256 - 1 }

/-- Read plan of an operation. -/
def readPlan (o : Op) : List Burst × Bool :=
  match o.kind with
  | .move => match o.mv with
    | some m => mvReadPlan m o
    | none => ([], false)
  | .fill => ([], true)
  | .copy => ((List.range (unitLen o)).map (fun i => wholeLine 0 (copySrc o + 256 * i)), true)
  | .setx => (readBursts 9 .mem ((List.range 8).map (· + o.desc)), true)
  | .tload => tloadPlan o
  | .stat => ([], true)

/-! ## Write plan (R125, R157, R191) -/

/-- Lines of the side outputs: one packer each (R157). -/
def sideLines (m : Mv) : List Burst :=
  [3, 4, 5].flatMap (fun opd => readBursts opd (sSidesp m.side)
    (((sideEnts m).filter (fun e => e.opd = opd)).flatMap (fun e => (List.range e.len).map (fun (i : Nat) => wrapInt 64 (e.addr + i)))))

/-- Lines of the blocks encoded so far: payloads, and each header line when it changes (R191). -/
def encLines (m : Mv) : List EncBlk → List Burst → List Burst
  | [], hdr => hdr
  | e :: t, hdr =>
    let pay := readBursts 1 (mvDspace m) ((List.range e.payload.length).map (fun i => (e.place + i) % 2 ^ 64))
    let hb := readBursts 7 (mvDspace m) ((List.range 8).map (fun (i : Nat) => wrapInt 64 (hdrAddr m e.place + i)))
    match hdr, hb with
    | [h], b :: _ => if h.line = b.line then pay ++ encLines m t [{ h with mask := h.mask ||| b.mask }]
        else pay ++ h :: encLines m t hb
    | _, _ => pay ++ hdr ++ encLines m t hb

/-- Lines of the destination. -/
def dataLines (m : Mv) : List Burst :=
  packLines 1 (mvDspace m) (((mvWritten m).filter (posHas m)).flatMap (fun j => bytesOf (dstBit m j) (mvWd m)))

/-- Write plan of an operation as far as it is known, and whether that is all. Encoded lines but the last header line are
known as their blocks are. -/
def writePlan (o : Op) : List Burst × Bool :=
  match o.kind with
  | .move => match o.mv with
    | none => ([], false)
    | some m =>
      if mvEnc m then
        let all := o.encoded.length = (encSpecs m).length
        let l := encLines m o.encoded []
        if all then (l ++ sideLines m, true) else (l.dropLast, false)
      else (dataLines m ++ sideLines m, true)
  | .fill => ((List.range (unitLen o)).map (fun i => wholeLine 1 (fillDst o + 256 * i)), true)
  | .copy => ((List.range (unitLen o)).map (fun i => wholeLine 1 (copyDst o + 256 * i)), true)
  | .stat => (if bit o.w0.toNat 10 then readBursts 1 .mem ((List.range 64).map (· + o.desc)) else [], true)
  | .setx | .tload => ([], true)

/-! ## Line data -/

/-- One of the positions that share a destination bit (R117). [DEDUCED: log 7] -/
def pickPos (m : Mv) (l : List (Nat × List Nat)) : Option (Nat × List Nat) :=
  match l with
  | [] => none
  | [x] => some x
  | x :: _ => some (l.getD (Config.freeChoice m.seed x.1 l.length % l.length) x)

/-- Positions with their destination bit address that touch bytes [lo, hi]. -/
def posIn (m : Mv) (l : List (List Nat)) (lo hi : Nat) : List (Nat × List Nat) :=
  (l.map (fun j => (dstBit m j, j))).filter (fun e => e.1 < 8 * hi + 8 && 8 * lo < e.1 + mvWd m)

/-- Those of them that touch a byte. -/
def posAt (m : Mv) (l : List (Nat × List Nat)) (a : Nat) : List (Nat × List Nat) :=
  l.filter (fun e => e.1 < 8 * a + 8 && 8 * a < e.1 + mvWd m)

/-- Value and poison of a destination byte: each bit is the value of one of the positions written there, or of a pad
position of the byte (R115, R117, R120). `wr` and `all` are the written positions and all positions of the byte's line.
[DEDUCED: log 7] -/
def dstByte (m : Mv) (o : Op) (wr all : List (Nat × List Nat)) (a : Nat) : Option (Nat × Bool) :=
  let wr := posAt m wr a
  let all := posAt m all a
  let one := fun (i : Nat) =>
    let x := 8 * a + i
    let cover := fun (l : List (Nat × List Nat)) => l.filter (fun e => e.1 ≤ x && x < e.1 + mvWd m)
    match pickPos m (if cover wr = [] then cover all else cover wr) with
    | none => some (0, false)
    | some (b, j) => (posVal m o j).map (fun v => (bits v.1 (x - b) (x - b), v.2))
  let l := (List.range 8).map one
  if l.any (·.isNone) then none
  else
    let bs := l.filterMap id
    some ((bs.zipIdx).foldl (fun acc e => acc + e.1.1 * 2 ^ e.2) 0, bs.any (·.2))

/-- Value and poison of a side output's byte (R155). -/
def sideByte (m : Mv) (o : Op) (opd a : Nat) : Option (Nat × Bool) :=
  match (sideEnts m).find? (fun e => e.opd = opd && wrapInt 64 e.addr ≤ a && a < wrapInt 64 e.addr + e.len) with
  | none => some (0, false)
  | some e => (sideVal m (mvSrc m o) (mvSmv m o) e).map (fun v => (byteAt v.1 (a - wrapInt 64 e.addr), v.2))

/-- Value and poison of a byte that an encode MOVE writes. -/
def encByte (m : Mv) (o : Op) (opd a : Nat) : Option (Nat × Bool) :=
  if opd = 7 then
    match o.encoded.filter (fun e => wrapInt 64 (hdrAddr m e.place) = a / 8 * 8) with
    | [] => none
    | e :: t =>
      let l := e :: t
      let e' := if t = [] then e else l.getD (Config.freeChoice m.seed a l.length % l.length) e
      some (byteAt e'.header (a % 8), e'.hpois)
  else
    match o.encoded.filter (fun e => e.place ≤ a && a < e.place + e.payload.length) with
    | [] => none
    | e :: t =>
      let l := e :: t
      let e' := if t = [] then e else l.getD (Config.freeChoice m.seed (placeOf a) l.length % l.length) e
      let v := e'.payload.getD (a - e'.place) (0, false)
      some (v.1.toNat, v.2)

/-- Whether a write line carries elements of a MOVE's destination, position by position. -/
def elemLine (o : Op) (opd : Nat) : Option Mv :=
  match o.kind, o.mv with
  | .move, some m => if (3 ≤ opd && decide (opd ≤ 5)) || mvEnc m then none else some m
  | _, _ => none

/-- Value and poison of a byte that an operation writes, for all lines but those of elements. -/
def writeByte (o : Op) (opd a : Nat) : Option (Nat × Bool) :=
  match o.kind with
  | .move => match o.mv with
    | none => none
    | some m => if 3 ≤ opd ∧ opd ≤ 5 then sideByte m o opd a else encByte m o opd a
  | .fill => some (byteAt (bits o.w1.toNat 63 32) (a % 4), false)
  | .copy => gotByte o.got 0 (copySrc o + (a - copyDst o))
  | .stat => o.elem.map (fun x => (byteAt x (a - o.desc), false))
  | .setx | .tload => none

/-! ## The corner-turn buffer (R127) -/

/-- The corner-turn block of a position. -/
def turnOf (m : Mv) (j : List Nat) : List Nat :=
  let k := blockSide (mvWd m)
  (j.set 0 (j.getD 0 0 / k)).set (dTdim m.d) (j.getD (dTdim m.d) 0 / k)

/-- The blocks of a transposition in generation order (R126). -/
def turnBlocks (m : Mv) : List (List Nat) :=
  ((mvPositions m).foldl (fun acc j => if acc.contains (turnOf m j) then acc else turnOf m j :: acc) []).reverse

/-- Whether a position lies in one of the first c blocks. -/
def turnIn (m : Mv) (c : Nat) (j : List Nat) : Bool := ((turnBlocks m).take c).contains (turnOf m j)

/-- The source bursts of the first c blocks. -/
def turnReads (m : Mv) (c : Nat) : List Burst :=
  formBursts 0 (mvSspace m) (((mvReadOrder m).filter (turnIn m c)).flatMap (fun j => bytesOf (srcBit m j) (mvWs m))) []

/-- How many blocks must have begun for source burst i: those up to the last that it serves. -/
def turnServes (m : Mv) (i : Nat) : Nat :=
  (((List.range (turnBlocks m).length).filter (fun c => (turnReads m c)[i]? ≠ (turnReads m (c + 1))[i]?)).map (· + 1)).foldl max 0

/-- Lines written out once the elements of the first c blocks have left the buffer for the holding register. -/
def turnOuts (m : Mv) (c : Nat) : Nat :=
  (packGo 1 (mvDspace m) (((mvWritten m).filter (turnIn m c)).flatMap (fun j => bytesOf (dstBit m j) (mvWd m)))).2.length

/-- Blocks that the buffer holds: one per half, and one in both halves for elements of 4 bits. [DEDUCED: log 125] -/
def turnHalves (m : Mv) : Nat := if mvWd m = 4 then 1 else 2

/-! ## The bytes of a line -/

/-- All positions of the corner-turn blocks that positions of a line belong to (R127). -/
def turnBlock (m : Mv) (l : List (Nat × List Nat)) : List (List Nat) :=
  if dTdim m.d = 0 then []
  else
    let hit := l.foldl (fun (acc : List (List Nat)) e => if acc.contains (turnOf m e.2) then acc else turnOf m e.2 :: acc) []
    (mvReadOrder m).filter (fun j => hit.contains (turnOf m j))

/-- The bytes of a write line, one for each of the indices, and whether the line waits for other elements. -/
def lineBytesOf (o : Op) (br : Burst) (idx : List Nat) : List (Option (Nat × Bool)) × Bool :=
  let n := lineBytes br.space
  match elemLine o br.opd with
  | some m =>
    let lo := n * br.line + idx.headD 0
    let hi := n * br.line + idx.getLastD 0
    let wr := posIn m (mvWritten m) lo hi
    let all := posIn m (mvPositions m) lo hi
    (idx.map (fun i => dstByte m o wr all (n * br.line + i)), !((turnBlock m all).all (fun j => (inVal m o j).isSome)))
  | none => (idx.map (fun i => writeByte o br.opd (n * br.line + i)), false)

/-- Data and poison mask (per byte) of a write line; none while a byte of it depends on data that has not arrived. -/
def lineData (o : Op) (br : Burst) : Option (Nat × Nat) :=
  let idx := setBits (lineBytes br.space) br.mask
  let (l, waits) := lineBytesOf o br idx
  if l.any (·.isNone) || waits then none
  else
    let bs := idx.zip (l.filterMap id)
    some (bs.foldl (fun acc e => acc + e.2.1 * 256 ^ e.1) 0, maskOf ((bs.filter (fun e => e.2.2)).map (·.1)))

/-- The buffer has room for the next source burst of a transposing MOVE: the block that fills takes the half whose block has
drained. Where nothing is outstanding and the next line still waits for later elements that share its bytes (R117), it
goes on. [DEDUCED: log 125] -/
def turnRoom (st : Station) (k : Nat) (o : Op) : Bool :=
  match o.mv with
  | none => true
  | some m =>
    if dTdim m.d = 0 || mvDec m || decide (o.rIss < (smoothBursts m).length) then true
    else
      let c := turnServes m (o.rIss - (smoothBursts m).length)
      decide (c ≤ turnHalves m) || decide (turnOuts m (c - turnHalves m) ≤ o.wIss) || 
        (!opReading st k o.id && (((writePlan o).1[o.wIss]?).bind (lineData o)).isNone)

/-- The 64-byte words of a line that hold a poisoned byte, and the data with those words driven as 0 (R429). -/
def poisonWords (n mask : Nat) : Nat :=
  maskOf ((List.range (n / 64)).filter (fun w => bits mask (64 * w + 63) (64 * w) ≠ 0))

def driveLine (n data words : Nat) : Nat :=
  (List.range (n / 64)).foldl (fun acc w =>
    if words.testBit w then acc else acc + bits data (512 * w + 511) (512 * w) * 2 ^ (512 * w)) 0

/-! ## Destination bytes for HALF and FULL (R99) -/

/-- Distinct destination bytes of an operation in the order first written. -/
def dstOrder (o : Op) : List Nat :=
  match o.kind, o.mv with
  | .move, some m => dedup (((mvWritten m).filter (posHas m)).flatMap (fun j => bytesOf (dstBit m j) (mvWd m)))
  | .fill, _ => (List.range (256 * unitLen o)).map (· + fillDst o)
  | .copy, _ => (List.range (256 * unitLen o)).map (· + copyDst o)
  | _, _ => []

/-- Whether a burst carries a byte of a list. -/
def carries (br : Burst) (l : List Nat) : Bool :=
  l.any (fun a => a / lineBytes br.space = br.line && br.mask.testBit (a % lineBytes br.space))

/-- Whether every write that carries the first ⌈B/2⌉ (or all) destination bytes has departed (R99). For an encode MOVE both mean
every payload and header write (R191), and no side output (R157). -/
def bytesDeparted (st : Station) (k : Nat) (o : Op) (half : Bool) : Bool :=
  match o.kind, o.mv with
  | .move, some m =>
    if mvEnc m then o.encoded.length = (encSpecs m).length && decide ((encLines m o.encoded []).length ≤ o.wIss)
    else
      let all := dstOrder o
      let l := if half then all.take ((all.length + 1) / 2) else all
      ((((writePlan o).1.zipIdx).filter (fun e => e.1.opd = 1 && carries e.1 l)).all (fun e =>
        e.2 < o.wIss)) &&
      !(st.staged.any (fun x => x.strand = k && x.op = o.id && x.opd = 1 && x.link.isNone &&
        carries { opd := 1, space := .scratch, line := x.line, mask := x.mask } l))
  | _, _ =>
    let n := unitLen o
    let need := if half then (n + 1) / 2 else n
    need ≤ o.wIss && !(st.staged.any (fun x => x.strand = k && x.op = o.id && x.link.isNone &&
      decide (x.line < (if o.kind = .fill then fillDst o else copyDst o) / 256 + need)))

/-! ## What blocks a strand (R79, R80, R101) -/

/-- The data of every read of an operation has returned (R101): its reads have been issued and none is outstanding. FILL and
STAT read nothing. -/
def opReadsDone (st : Station) (k : Nat) (o : Op) : Bool :=
  if o.kind = .fill ∨ o.kind = .stat then true
  else
    let (l, whole) := readPlan o
    (o.phase = .issue || o.phase = .issued) && whole && decide (l.length ≤ o.rIss) && !opReading st k o.id

/-- The condition of a FENCE kind over the operations retired before it (R101). -/
def fenceMet (st : Station) (k : Nat) (s : Strand) (kind : Nat) : Bool :=
  match kind with
  | 0 => s.ops.all (opDeparted st k)
  | 1 => s.ops.all (opLanded st k)
  | 2 => s.ops.all (opReadsDone st k)
  | _ => s.ops.all (fun o => opLanded st k o && opReadsDone st k o)

/-- What blocks a strand now (R80). -/
def isBlocked (st : Station) (k : Nat) (s : Strand) : Bool :=
  2 ≤ inFlight s || 4 ≤ s.sigs.length ||
  (match s.blocked with
   | .no => false
   | .fence kind _ => !fenceMet st k s kind
   | _ => true)

/-- A strand ready for the sequencer (R79). -/
def seqReady (st : Station) (k : Nat) (s : Strand) : Bool :=
  s.st = .run && (unitAt s s.pc).isSome && !isBlocked st k s

/-- The strand that the sequencer takes (R79). -/
def seqPick (b : Block) (n : Nat) : Option Cand :=
  let st := getStn b n
  rrPick st.rrSeq (((stnStrands b n).filter (fun e => seqReady st e.1 e.2 && !strdFenced b n e.1)).map (fun e =>
    { chan := e.2.chan, strand := e.1, prio := chPrio b n e.2.chan }))

end Sys2Proof.Machine
end

