-- ==== Sys2Proof/Machine/Start.lean ====
section
/-! DEFINITION. The start stage of an operation (R85, R129 to R133, R207, R212): content and access faults, the checks of a
descriptor, footprints, offside operands, hazard entries and guards. -/
namespace Sys2Proof.Machine

/-! ## Operations of a strand -/

/-- The operation whose start stage is next: the first that has not requested its data entries (R93, R220). -/
def frontOp (s : Strand) : Option Op := s.ops.find? (fun o => o.phase = .desc || o.phase = .list)

/-- Address that an operation's DATA records carry (R353). -/
def recAddr (o : Op) : Nat := if o.kind = .move then o.desc else o.pc

/-- A strand stops at an operation's instruction (R106, R131). -/
def stopAt (b : Block) (n k pc code : Nat) : Block :=
  let s := getStrand b n k
  if s.st = .run ∨ s.st = .drain then stopStrand (modStrand b n k (fun s => { s with pc := pc })) n k code else b

/-! ## Faults (R107, R132) -/

/-- The count register that a content fault increments besides. -/
def faultCount (b : Block) (n k kind : Nat) : Option Nat :=
  match kind with
  | 0x03 | 0x04 => some (shpB n + 0x50)
  | 0x05 | 0x06 | 0x07 | 0x08 | 0x09 => some (codecB n + 0x54)
  | 0x0A => some (xpR (strandPart b n k) 0x4C)
  | 0x0B | 0x0C => some (nearB n + 0x60)
  | 0x0F => some (vaultB + 0x98)
  | _ => none

/-- A content fault of an operation: its record and counts; the strand notes it and stops when the policy says so. -/
def contentFault (b : Block) (n k kind : Nat) (o : Op) (detail : Nat) (stop : Bool) : Block :=
  let b := dataRec b n kind k (recAddr o) detail
  let b := match faultCount b n k kind with
    | some a => rcount b a 1
    | none => b
  let b := countCh b n (getStrand b n k).chan 0x1A 1
  let b := modStrand b n k (fun s => { s with dataFault := true,
                                              stats := if kind = 0x03 ∨ kind = 0x04 then statFault s.stats else s.stats })
  if stop then stopAt b n k o.pc 0x15 else b

/-- Policy of an operation's data-class faults (R109, R213). -/
def opPolicy (o : Op) : Bool :=
  match o.kind, o.mv with
  | .move, some m => dPolicy m.d
  | .move, none => false
  | _, _ => true

/-- The record of an access fault on the STRD page that holds the strand, and its event of the station source unless
`quiet` (R107, R132, R328). -/
def accessRec (b : Block) (n k : Nat) (write : Bool) (addr cause : Nat) (quiet : Bool) : Block :=
  let info := errInfo k (strandPart b n k) 0 (b2n write) 0 (if write then 2 else 1)
  let base := strdB n (k / 128)
  if quiet then pageErr b base 9 addr info
  else memErr b n (if write then 0x41 else 0x40) k base addr info cause

/-- An access fault on an operation's data: the strand notes it, and stops when the policy says so. -/
def accessFault (b : Block) (n k : Nat) (o : Op) (write : Bool) (addr cause : Nat) (quiet : Bool) : Block :=
  let b := accessRec b n k write addr cause quiet
  let b := modStrand b n k (fun s => { s with dataFault := true })
  if opPolicy o then stopAt b n k o.pc 0x15 else b

/-- Corrected wide rows of a station, its buffers' among them, are counted (R198). -/
def nearCorrected (b : Block) (n corrected : Nat) : Block :=
  count (rcount b (nearB n + 0x5C) corrected) (.station n) 0x17 corrected none

/-- A row of an operation's line lies beyond correction in a station buffer: an access fault, treated as that of a read
(R198, R214). [DEDUCED: log 136] -/
def bufferFault (b : Block) (n k id addr : Nat) : Block :=
  match findOp b n k id with
  | some o => accessFault b n k o false addr 2 false
  | none => b

/-- Detail of an OFFSIDE record (R266). -/
def offDetail (first : Int) (write high : Bool) : Nat :=
  wrapInt 64 first % 2 ^ 57 + b2n write * 2 ^ 57 + b2n high * 2 ^ 58

/-- OFFSIDE of a data operation: at most one record. -/
def offside (b : Block) (n k : Nat) (o : Op) (first : Int) (write high : Bool) : Block :=
  match findOp b n k o.id with
  | none => b
  | some o' =>
    if o'.offRec then b
    else
      let b := modOp b n k o.id (fun x => { x with offRec := true })
      contentFault b n k 0x0A o (offDetail first write high) (opPolicy o')

/-- A TLOAD fails: its slot is left without a valid generation, and out of LOADING if this TLOAD had marked it (R107, R177,
R179). -/
def tloadFail (b : Block) (n k : Nat) (o : Op) : Block :=
  if o.kind = .tload then modStn b n (fun st =>
      { st with slots := st.slots.modify (bits o.w0.toNat 9 8) (fun c => { c with valid := false, loading := c.loading && !o.marked }),
                tloads := st.tloads.filter (fun e => e.2 ≠ (k, o.id)) }) else b

/-- OFFSIDE of an instruction's own access: the strand stops whatever the policy; a TLOAD leaves its slot INVALID. -/
def instrOffside (b : Block) (n k : Nat) (o : Op) (first : Int) (write high : Bool) : Block :=
  let b := contentFault b n k 0x0A o (offDetail first write high) true
  dropOp (tloadFail b n k o) n k o.id

/-! ## Translations (R263) -/

def xlPa (l : List Xl) (va : Nat) : Option Nat := (xlOf l va).map (fun x => (x.pbase + (va - x.vstart)) % 2 ^ 64)

/-- Whether an address lies in a granule that a retry found offside. -/
def granOff (o : Op) (va : Nat) : Bool := o.offside.contains (va / 65536 * 65536)

/-! ## Geometry checks (R129, R266, R294, R325) -/

/-- A footprint before its range is checked. -/
structure RFoot where
  opd   : Nat
  space : Space
  write : Bool
  lo    : Int
  hi    : Int
  deriving DecidableEq, Repr

/-- A footprint over a range of byte addresses (R129). [DEDUCED: log 23] -/
def rangeFoot (opd : Nat) (sp : Space) (wr : Bool) (r : Int × Int) : RFoot :=
  { opd := opd, space := sp, write := wr, lo := r.1, hi := r.2 }

/-- Bounding range of a list of addresses. -/
def boundOfAddrs : List Int → Option (Int × Int)
  | [] => none
  | a :: t => match boundOfAddrs t with
    | none => some (a, a)
    | some (lo, hi) => some (min lo a, max hi a)

/-- A bounding range of units of n bytes. -/
def footUnits (opd : Nat) (sp : Space) (wr : Bool) (n : Nat) (l : List Int) : List RFoot :=
  match boundOfAddrs l with
  | none => []
  | some (lo, hi) => [rangeFoot opd sp wr (lo, hi + n - 1)]

/-- Footprints of a MOVE that is not empty (R129, R157, R185), in the order of R129. [DEDUCED: log 23] -/
def mvFoots (m : Mv) : List RFoot :=
  let src := if mvDec m && !mvDelta m then
      footUnits 0 (mvSspace m) false 4096 ((decPlaces m).map (fun (a : Nat) => (a : Int)))
    else [rangeFoot 0 (mvSspace m) false (srcFoot m)]
  let dst := if mvEnc m then
      footUnits 1 (mvDspace m) true 4096 ((encSpecs m).map (fun e => (e.place : Int)))
    else [rangeFoot 1 (mvDspace m) true (dstFoot m)]
  let sm := if dShp m.d && sSmen m.side then
      let a : Int := ((sSmva m.side + 2 * m.k * sColstep m.side : Nat) : Int)
      [rangeFoot 2 (sSidesp m.side) false (a, a + 2 * val0 m - 1)] else []
  let sides := [3, 4, 5].flatMap (fun opd => match entsFoot ((sideEnts m).filter (fun e => e.opd = opd)) with
    | none => []
    | some r => [rangeFoot opd (sSidesp m.side) true r])
  let dl := if mvDelta m then footUnits 6 (mvSspace m) false 4096 ((decPlaces m).map (payAddr m)) else []
  let hd := if mvDec m then footUnits 7 (mvSspace m) false 8 ((decPlaces m).map (hdrAddr m))
    else if mvEnc m then footUnits 7 (mvDspace m) true 8 ((encSpecs m).map (fun e => hdrAddr m e.place)) else []
  src ++ dst ++ sm ++ sides ++ dl ++ hd

/-- A footprint leaves [0, 2^64) or reaches 2^57 (R266). -/
def footHigh (f : RFoot) : Bool := f.lo < 0 || 2 ^ 57 ≤ f.hi

/-- SCRATCH_BOUND of a footprint (R129). -/
def scratchBad (p : Params) (n : Nat) (f : RFoot) : Bool :=
  f.space = .scratch && (f.lo < 0 || (p.tileSize.getD n 0 : Int) ≤ f.hi)

/-- Detail of SCRATCH_BOUND. -/
def scratchDetail (f : RFoot) : Nat :=
  wrapInt 48 (max (-(2 ^ 47 : Int)) (min (2 ^ 47 - 1) f.lo)) + f.opd * 2 ^ 48

/-- A WINDOW footprint is offside (R294). -/
def windowOff (b : Block) (part : Nat) (f : RFoot) : Bool :=
  if f.lo < 0 ∨ 2 ^ 56 ≤ f.hi then true
  else
    let lo := f.lo.toNat
    let hi := f.hi.toNat
    let o := lo / 2 ^ 48
    let x := hi % 2 ^ 48
    let c := rget b (owR o 0)
    o ≠ hi / 2 ^ 48 || !(bit c 0) || !(bit (rget b (owR o 4)) part) || !(if f.write then bit c 1 else bit c 2) ||
      rget64 b (owR o 8) ≤ x || 2 ^ 48 ≤ rget64 b (owR o 0x10) + x

/-- What a window names for a footprint: receiving chip, inbound window, offset (R294). -/
def windowLatch (b : Block) (f : RFoot) : Nat × Nat × Nat :=
  let o := f.lo.toNat / 2 ^ 48
  (rbits b (owR o 0) 25 16, rbits b (owR o 0) 15 8, rget64 b (owR o 0x10))

/-- Length that a read of an object sees (R332). -/
def objReadLen (o : Obj) : Nat :=
  if o.packed then roundUp (8 * o.blocks) 4096 + 4096 * o.blocks else o.len

/-- A VAULT footprint is offside (R325). [DEDUCED: log 51] -/
def vaultOff (b : Block) (part : Nat) (f : RFoot) : Bool :=
  if f.lo < 0 ∨ 2 ^ 56 ≤ f.hi then true
  else
    let lo := f.lo.toNat
    let hi := f.hi.toNat
    let o := getObj b (lo / 2 ^ 44)
    lo / 2 ^ 44 ≠ hi / 2 ^ 44 || b.vault.st ≠ .ready || !pageEnable b vaultB || (if f.write then o.st ≠ .open else o.st ≠ .ready) ||
      !(bit o.parts.toNat part) || (if f.write then o.len else objReadLen o) ≤ hi % 2 ^ 44

/-- Offside without a walk (R266, R294, R325). -/
def footOff (b : Block) (part : Nat) (f : RFoot) : Bool :=
  match f.space with
  | .mem => footHigh f || !partOn b part
  | .window => windowOff b part f
  | .vault => vaultOff b part f
  | .scratch => false

/-- A checked footprint, cut to [0, 2^64). -/
def footOf (f : RFoot) : Foot :=
  { opd := f.opd, space := f.space, write := f.write, lo := (max 0 f.lo).toNat, hi := (max 0 (min (2 ^ 64 - 1) f.hi)).toNat }

/-! ## Regions of the scratch tile (R209, R211) -/

def overlap (lo hi base len : Nat) : Bool := len ≠ 0 && lo < base + len && base ≤ hi

/-- Resident region that refuses channel c a write footprint: the lowest. -/
def residentHit (b : Block) (n c : Nat) (f : Foot) : Option Nat :=
  if f.space = .scratch ∧ f.write then
    (List.range 8).find? (fun r =>
      let a := nearB n + 0x80 + 16 * r
      overlap f.lo f.hi (rget b a) (rget b (a + 4)) && !(bit (rget b (a + 8)) c))
  else none

/-- Sentinel region that a footprint fails: the lowest. `gs`, `gd`: the guards enabled. -/
def sentinelHit (b : Block) (n : Nat) (f : Foot) (gs gd : Option Nat) : Option Nat :=
  if f.space = .scratch ∧ rbit b (nearB n + 0x54) 0 then
    (List.range 16).find? (fun r =>
      let a := nearB n + 0x100 + 16 * r
      overlap f.lo f.hi (rget b a) (rget b (a + 4)) &&
        (if f.write then gd ≠ some (rbits b (a + 8) 30 16) else gs ≠ some (rbits b (a + 8) 14 0)))
  else none

/-- The region checks of an operation: records, and whether it is suppressed. -/
def regionChecks (b : Block) (n k : Nat) (o : Op) (foots : List Foot) (gs gd : Option Nat) (policy : Bool) : Block × Bool :=
  let c := (getStrand b n k).chan
  let res := foots.filterMap (fun f => (residentHit b n c f).map (fun r => (f, r)))
  let r1 := !res.isEmpty
  let b := match res with
    | [] => b
    | (f, r) :: _ => contentFault b n k 0x0C o (f.lo % 2 ^ 32 + r * 2 ^ 32) policy
  let sen := foots.filterMap (fun f => (sentinelHit b n f gs gd).map (fun r => (f, r)))
  match sen with
  | [] => (b, r1)
  | (f, r) :: _ =>
    (contentFault b n k 0x0B o (f.lo % 2 ^ 32 + r * 2 ^ 32 + b2n f.write * 2 ^ 36) policy,
     r1 || rbit b (nearB n + 0x54) 1)

/-! ## Descriptor checks (R130) -/

/-- A guard names no tally; it names a local tally of another station (R130). -/
def guardMissing (p : Params) (en : Bool) (t : Nat) : Bool := en && !talExists p t
def guardForeign (n : Nat) (en : Bool) (t : Nat) : Bool :=
  en && (match talStn t with
    | some m => m ≠ n
    | none => false)

/-- The conditions of R130 that need no side block. [DEDUCED: log 24] -/
def descIllegal (p : Params) (n : Nat) (o : Op) (d sb db : Nat) : Bool :=
  let dims := List.range (dN d)
  let ws := fmtWidth (dSfmt d)
  let wd := fmtWidth (dDfmt d)
  let sw := if dSwapDst d then wd else ws
  let off := dSideOff d
  let side := dShp d || dCodec d ≠ 0
  descReserved d || descReservedValue d || pairIllegal d ||
    !(sideAligned sb ws (dims.map (dSstr d))) || !(sideAligned db wd (dims.map (dDstr d))) ||
    (wd < 8 && dExt d 0 * wd % 8 ≠ 0) || dims.any (fun i => dExt d i ≤ dPad d i) ||
    (dEen d && (dN d ≤ dEdim d || dPad d (dEdim d) ≠ 0 || dDen d (dEdim d))) ||
    dims.any (fun i => dDen d i && (o.x.getD (dDreg d i) none).isNone) ||
    !(tdimOk d) || !(swapOk (dSwap d) sw) || off % 8 ≠ 0 || (side && off = 0) || (!side && off ≠ 0) ||
    (dSspace d = 3 && dDspace d = 3) || (dSspace d = 2 && dDspace d = 2) ||
    guardMissing p (dGsEn d) (dGsTally d) || guardMissing p (dGdEn d) (dGdTally d) ||
    guardForeign n (dGsEn d) (dGsTally d) || guardForeign n (dGdEn d) (dGdTally d) ||
    ((dGsEn d || dGdEn d) && o.loops.length ≤ dGlvl d)

/-- The side block's conditions. -/
def sideIllegal (d side sb db : Nat) : Bool :=
  (dShp d && shapeIllegal d side) || (dCodec d ≠ 0 && codecIllegal d side sb db)

/-- Tally misuse records of a descriptor's guards (R253). -/
def guardMisuse (p : Params) (b : Block) (n k : Nat) (o : Op) (d : Nat) : Block :=
  let b := if guardMissing p (dGsEn d) (dGsTally d) then talMisuse b n k (recAddr o) (dGsTally d) k false none else b
  if guardMissing p (dGdEn d) (dGdTally d) then talMisuse b n k (recAddr o) (dGdTally d) k false none else b

/-- Offsets of MOVE and MOVEB, and the edge index (R91, R92, R114). -/
def moveOffsets (s : Strand) (o : Op) : Int × Int × Nat :=
  let w0 := o.w0.toNat
  let w1 := o.w1.toNat
  let so := sgn 32 (bits w1 31 0)
  let dof := sgn 32 (bits w1 63 32)
  if opcode w0 = 0x10 then
    let a : Int := s.arg.toNat
    (so + (if bit w0 8 then a else 0), dof + (if bit w0 9 then a else 0), 0)
  else
    let i := o.loops.getD (bits w0 12 10) 0
    let v := o.elem.getD 0
    match bits w0 9 8 with
    | 0 => let x := bits w0 63 48; (x * so * 64, x * dof * 64, x)
    | 1 => (i * so * 64, i * dof * 64, i)
    | _ => if bit w0 14 then (i * so * 64, v * dof * 64, i) else (v * so * 64, i * dof * 64, v)

/-- Guard thresholds (R206). -/
def guardThr (o : Op) (d : Nat) (off : Int) : Nat :=
  wrapInt 48 ((dGstep d * o.loops.getD (dGlvl d) 0 : Nat) + off)

/-- The MOVE of a descriptor and side block; `hist` is captured as the start stage checks them (R153).
[DESIGN CHOICE: log 132] -/
def mvOf (b : Block) (n : Nat) (s : Strand) (o : Op) (d side seed : Nat) : Mv :=
  let (so, dof, k) := moveOffsets s o
  let st := getStn b n
  { d := d, side := side, sb := wrapInt 64 (dSbase d + so), db := wrapInt 64 (dDbase d + dof),
    dims := dimsOf d k o.x, k := k,
    hist := if dShp d ∧ sMode side = 4 then
        histCapture (tgetD st.hist (sHslot side) Hist.reset) (sDlen side) (sMargin side) else none,
    bound := [], pack := none, wins := [], seed := seed }

/-- VAULT_FORM: the source is a PACKED object and the MOVE is no raw copy (R333). -/
def packedForm (m : Mv) : Bool :=
  let d := m.d
  !(fmtRaw (dSfmt d) && dSfmt d = dDfmt d && !dShp d && dCodec d = 0 && dTdim d = 0 && dSwap d = 0 && dSstr d 0 = 1 &&
    dDstr d 0 = 1)

/-- The object a VAULT operand names. -/
def objOfFoot (b : Block) (f : RFoot) : Obj := getObj b (f.lo.toNat / 2 ^ 44)

/-! ## Requesting hazard entries (R220, R221) -/

/-- An operation requests its entries: it takes its place in station order. -/
def request (b : Block) (n k id : Nat) (foots : List Foot) (ph : Phase) : Block :=
  let ord := (getStn b n).nextOrd
  let b := modStn b n (fun st => { st with nextOrd := ord + 1 })
  modOp b n k id (fun o => { o with foots := foots, ord := ord, phase := ph })

/-- Ask the prefetcher for a descriptor or side block that the cache does not hold, under a key of its own: 2^60 above a
descriptor's address, 2^61 above a side block's (R84, R112). -/
def blockAsk (b : Block) (n k va key : Nat) : Block :=
  let st := getStn b n
  match (getStrand b n k).entry with
  | none => b
  | some e =>
    let hit := match xlPa e.xl va with
      | some pa => st.dcache.any (fun l => l.pa = pa)
      | none => false
    if hit || pfHas st k key then b
    else countCh (setStn b n { st with pfQ := st.pfQ ++ [(k, key)] }) n (getStrand b n k).chan 0x0D 1

/-- Ask for a descriptor. -/
def descAsk (b : Block) (n k va : Nat) : Block := blockAsk b n k va (va + 2 ^ 60)

/-- The list line's footprint (R93). -/
def listFoot (a : Nat) : Foot := { opd := 8, space := .mem, write := false, lo := a / 128 * 128, hi := a / 128 * 128 + 127 }

/-- Footprint of an instruction's own access (R221). A TLOAD's table is taken at its greatest length (R174), below 2^57: its own
length is known only with its first bytes. [DEDUCED: log 25] -/
def instrFoot (o : Op) : List Foot :=
  match o.kind with
  | .setx => [{ opd := 9, space := .mem, write := false, lo := o.desc, hi := o.desc + 7 }]
  | .tload => [{ opd := 9, space := .mem, write := false, lo := o.desc, hi := min (o.desc + 783) (2 ^ 57 - 1) }]
  | .stat => if bit o.w0.toNat 10 then [{ opd := 1, space := .mem, write := true, lo := o.desc, hi := o.desc + 63 }] else []
  | .fill => [{ opd := 1, space := .scratch, write := true, lo := fillDst o, hi := fillDst o + 256 * unitLen o - 1 }]
  | .copy => [{ opd := 0, space := .scratch, write := false, lo := copySrc o, hi := copySrc o + 256 * unitLen o - 1 },
              { opd := 1, space := .scratch, write := true, lo := copyDst o, hi := copyDst o + 256 * unitLen o - 1 }]
  | .move => []

/-- Offside of an instruction's own access without a walk. -/
def instrOff (b : Block) (part : Nat) (f : Foot) : Bool := f.space = .mem && (2 ^ 57 ≤ f.hi || !partOn b part)

/-- The strand's next start stage, when its turn has come: a MOVE asks for its descriptor, a list MOVEB first requests its
list line's entry, and every other operation requests its entries (R93, R220, R221). -/
def turnOne (b : Block) (n k : Nat) : Block :=
  let s := getStrand b n k
  match frontOp s with
  | none => b
  | some o => match o.kind with
    | .move =>
      if o.phase = .list then
        match o.listVa with
        | some a =>
          if o.foots ≠ [] then b
          else if 2 ^ 57 ≤ a ∨ !partOn b (strandPart b n k) then instrOffside b n k o a false (2 ^ 57 ≤ a)
          else request b n k o.id [listFoot a] .list
        | none => modOp b n k o.id (fun x => { x with phase := .desc })
      else descAsk b n k o.desc
    | .fill | .copy =>
      let fs := instrFoot o
      let (b, sup) := regionChecks b n k o fs none none true
      if sup then dropOp b n k o.id else request b n k o.id fs .haz
    | _ =>
      let fs := instrFoot o
      match fs.find? (instrOff b (strandPart b n k)) with
      | some f => instrOffside b n k o f.lo f.write (2 ^ 57 ≤ f.hi)
      | none =>
        if fs = [] then modOp b n k o.id (fun x => { x with phase := .res, ord := (getStn b n).nextOrd })
        else request b n k o.id fs .haz

/-- Start stages begin as far as they can: one pass per operation. -/
def turnN (n k : Nat) : Nat → Block → Block
  | 0, b => b
  | f + 1, b => turnN n k f (turnOne b n k)

def turn (b : Block) (n k : Nat) : Block := turnN n k ((getStrand b n k).ops.length + 1) b

/-! ## Hazard entries (R222, R223) -/

def hazOf (b : Block) (n k : Nat) (o : Op) : List Haz :=
  o.foots.map (fun f => { strand := k, op := o.id, ord := o.ord, space := f.space, write := f.write, lo := f.lo, hi := f.hi,
                          part := strandPart b n k, opd := f.opd, done := false, landing := false })

/-- Entries of the hazard table, landing records apart. -/
def hazUsed (st : Station) : Nat := (st.haz.filter (fun h => !h.landing)).length
def landUsed (st : Station) : Nat := (st.haz.filter (·.landing)).length

/-- Two entries conflict. -/
def hazConflict (a c : Haz) : Bool :=
  a.space = c.space && (a.space ≠ .mem || a.part = c.part) && a.lo ≤ c.hi && c.lo ≤ a.hi && (a.write || c.write)

/-- A proxy read of a station's tile overlaps a write entry of SCRATCH (R222, R236). -/
def linkOverlap (e : LinkAcc) (h : Haz) : Bool :=
  winScratch e.win && pktType e.pkt ≠ 0 && h.space = .scratch && h.write && linkAddr e.pkt e.win ≤ h.hi &&
    h.lo ≤ linkAddr e.pkt e.win + 127

/-- Proxy reads that a station has taken and whose data has not come back. -/
def linkReads (st : Station) : List LinkAcc := st.inQ ++ st.nearRd.filterMap (·.link)

/-- An operation waits on an entry of an earlier one, or on a proxy read that came before it (R222, R236). -/
def opConflict (st : Station) (k : Nat) (o : Op) : Bool :=
  (st.haz.filter (fun h => h.strand = k && h.op = o.id && h.ord = o.ord)).any (fun h =>
    st.haz.any (fun g => g.ord < o.ord && hazConflict h g) ||
    (linkReads st).any (fun e => e.ord < o.ord && linkOverlap e h))

/-- Whether an operation has requested entries and not been granted them. -/
def hazWaits (st : Station) (k : Nat) (o : Op) : Bool :=
  (o.phase = .haz || (o.phase = .list && o.foots ≠ [] && o.elem.isNone)) &&
    !(st.haz.any (fun h => h.strand = k && h.op = o.id && h.ord = o.ord))

/-- No operation that requested earlier still waits for entries. -/
def hazTurn (b : Block) (n k : Nat) (o : Op) : Bool :=
  let st := getStn b n
  (stnStrands b n).all (fun e => e.2.ops.all (fun x => !hazWaits st e.1 x || o.ord ≤ x.ord || (e.1 = k && x.id = o.id)))

/-- All reads of an operand have returned. -/
def opdRead (st : Station) (k : Nat) (o : Op) (opd : Nat) : Bool :=
  let (l, whole) := readPlan o
  if opd = 8 then o.elem.isSome
  else (o.phase = .issue || o.phase = .issued) && whole &&
    ((l.zipIdx).all (fun e => e.1.opd ≠ opd || e.2 < o.rIss)) &&
    !((st.rdTags ++ st.wRdTags ++ st.vRdTags).any (fun e => match e.2.agent with
      | .op k' id' opd' => k' = k && id' = o.id && opd' = opd
      | .link .. => false)) &&
    !(st.nearRd.any (fun x => x.strand = k && x.op = o.id && x.opd = opd && x.link.isNone))

/-- All writes of an operand have been issued and have departed; none is unlanded. -/
def opdIssued (st : Station) (k : Nat) (o : Op) (opd : Nat) : Bool :=
  let (l, whole) := writePlan o
  (o.phase = .issue || o.phase = .issued) && whole && ((l.zipIdx).all (fun e => e.1.opd ≠ opd || e.2 < o.wIss)) &&
    !(st.staged.any (fun x => x.strand = k && x.op = o.id && x.opd = opd && x.link.isNone))

def opdUnlanded (st : Station) (k id opd : Nat) : Bool :=
  (liveWr st.wrTags ++ st.wWrTags ++ st.vWrTags).any (fun e => match e.2.agent with
    | .op k' id' opd' => k' = k && id' = id && opd' = opd
    | .link .. => false) ||
  st.nearWr.any (fun x => x.strand = k && x.op = id && x.opd = opd && x.link.isNone)

/-- A proxy read of the tile may go: no operation before it in station order waits for entries, and no overlapping write
entry of one is held (R224, R236). A proxy read of MEM has a physical address, which no footprint of the station has: it
conflicts with none (R222). [DEDUCED: log 137] -/
def linkClear (b : Block) (n : Nat) (e : LinkAcc) : Bool :=
  let st := getStn b n
  !(winScratch e.win && pktType e.pkt ≠ 0) ||
    ((stnStrands b n).all (fun x => x.2.ops.all (fun o => !hazWaits st x.1 o || decide (e.ord ≤ o.ord))) &&
      !(st.haz.any (fun h => h.ord < e.ord && linkOverlap e h)))

/-- An operation has issued its last write (R223). -/
def lastWrite (st : Station) (k : Nat) (o : Op) : Bool :=
  let (l, whole) := writePlan o
  (o.phase = .issue || o.phase = .issued) && whole && decide (l.length ≤ o.wIss) &&
    !(st.staged.any (fun x => x.strand = k && x.op = o.id && x.link.isNone))

/-- Release the entries of a station whose reads have returned or whose writes have landed, and move write entries whose
operation has issued its last write into free landing records: those that already waited for one come first (R223). -/
def relHaz (b : Block) (n : Nat) : Block :=
  let st := getStn b n
  let fin := fun (h : Haz) => match (getStrand b n h.strand).ops.find? (fun o => o.id = h.op) with
    | none => (h.done || !h.write, !h.write || !opdUnlanded st h.strand h.op h.opd)
    | some o => if h.write then (lastWrite st h.strand o,
          opdIssued st h.strand o h.opd && !opdUnlanded st h.strand h.op h.opd)
        else (false, opdRead st h.strand o h.opd)
  let kept := (st.haz.filter (fun h => !(fin h).2)).map (fun h => { h with done := h.done || (h.write && (fin h).1) })
  let land := kept.filter (·.landing)
  let waited := (st.haz.filter (·.done)).map (fun h => (h.ord, h.opd))
  let wait := kept.filter (fun h => h.done && !h.landing && waited.contains (h.ord, h.opd)) ++
    kept.filter (fun h => h.done && !h.landing && !waited.contains (h.ord, h.opd))
  let rest := kept.filter (fun h => !h.done && !h.landing)
  let room := 256 - land.length
  setStn b n { st with haz := rest ++ (wait.drop room) ++ land ++ ((wait.take room).map (fun h => { h with landing := true })) }

/-! ## Guards (R206, R207) -/

/-- Register a guard's waiter, or stop the strand when its tally is poisoned (R255). The scope is STATION for a local tally
and CHIP otherwise. -/
def armGuard (b : Block) (n k : Nat) (kind : WKind) (g : Option (Nat × Nat)) : Block :=
  match g with
  | none => b
  | some (t, thr) =>
    let sc : Scope := if talStn t = none then .chip else .station
    let set := fun (w : WaitSt) (s : Strand) => if kind = .gsrc then { s with guardS := w } else { s with guardD := w }
    let b := modStrand b n k (set (.armed t thr (scopeRank sc)))
    addWaiter b t { kind := kind, stn := n, strand := k, thr := thr, scope := sc }

/-- A guard names a poisoned tally. [DEDUCED: log 27] -/
def guardPoisoned (b : Block) (g : Option (Nat × Nat)) : Bool :=
  match g with
  | none => false
  | some (t, _) => (getTal b t).poison

/-- Whether an operation's start stage may pass to the next phase that needs the near port (R201). -/
def usesNear (o : Op) : Bool := o.foots.any (fun f => f.space = .scratch)
def nearOk (b : Block) (n : Nat) (o : Op) : Bool :=
  !usesNear o || (pageEnable b (nearB n) && !pageFence b (nearB n) && stnActive b n)

/-- An operation that a fence of a page holds where it is: of the strand's own page, of the shaper's or of the codec's when it
uses them, of the near port's when it moves scratch lines (R28). [DEDUCED: log 81] -/
def opHeld (b : Block) (n k : Nat) (o : Op) : Bool :=
  let shp := match o.mv with
    | some m => dShp m.d
    | none => decide (o.kind = .stat)
  let cod := match o.mv with
    | some m => decide (dCodec m.d ≠ 0)
    | none => decide (o.kind = .tload)
  strdFenced b n k || (shp && pageFence b (shpB n)) || (cod && pageFence b (codecB n)) || (usesNear o && pageFence b (nearB n))

/-- Every data operation of the strand before this one has issued its last burst (R81). -/
def aheadIssued (s : Strand) (o : Op) : Bool :=
  (s.ops.takeWhile (fun x => x.id ≠ o.id)).all (fun x => !isData x || decide (x.phase = .issued))

/-- After guards: codec binding, resources, or straight to the resource phase (R178, R161). -/
def afterGuards (b : Block) (n k : Nat) (o : Op) : Block :=
  let bind := match o.mv with
    | some m => mvDec m && cTmask m.side ≠ 0
    | none => false
  modOp (modStrand b n k (fun s => { s with guardS := .none, guardD := .none })) n k o.id
    (fun x => { x with phase := if bind then .bind else .res })

/-- The conflicts of an operation are over: guard waits begin, or the next phase does. -/
def afterConflict (b : Block) (n k : Nat) (o : Op) : Block :=
  match o.kind with
  | .setx => modOp b n k o.id (fun x => { x with phase := .issue })
  | .tload => modOp b n k o.id (fun x => { x with phase := .bind })
  | .stat => modOp b n k o.id (fun x => { x with phase := .res })
  | _ =>
    if o.gsrc = none ∧ o.gdst = none then afterGuards b n k o
    else if guardPoisoned b o.gsrc || guardPoisoned b o.gdst then
      stopAt (dropOp b n k o.id) n k o.pc 0x15
    else
      let b := modOp b n k o.id (fun x => { x with phase := .guard })
      armGuard (armGuard b n k .gsrc o.gsrc) n k .gdst o.gdst

end Sys2Proof.Machine
end

