-- ==== Sys2Proof/Machine/Move.lean ====
section
/-! DEFINITION. The progress of operations: range cache, bursts on offside bytes, the shaper's and codec's closing work, the
far-port arbiters (R56 to R58, R83, R264, R409), read returns and write completions (R132, R227 to R229). -/
namespace Sys2Proof.Machine

/-! ## Range cache (R263, R264) -/

/-- A burst of strand k that has been issued and not served lies in a range. -/
def xlNeeded (st : Station) (k : Nat) (x : Xl) : Bool :=
  let hit := fun (a : Agent) (va : Nat) => match a with
    | .op k' _ _ => k' = k && x.vstart ≤ va && va < x.vstart + x.len
    | .link .. => false
  st.rdTags.any (fun e => hit e.2.agent e.2.va) || (liveWr st.wrTags).any (fun e => hit e.2.agent e.2.va)

/-- Install one range: in a free place, else in the least recently used place that nothing needs. -/
def installXl (keep : Xl → Bool) (l : List Xl) (x : Xl) : List Xl :=
  let l := l.filter (fun y => y.vstart ≠ x.vstart)
  if l.length < 8 then x :: l
  else match l.reverse.find? (fun y => !keep y) with
    | none => l
    | some y => x :: l.erase y

/-- Install the ranges that a walk returns, the covering one first: none takes the place of one that this walk installed, or
that a burst needs; those for which no place is left are not installed (R264). -/
def installAll (st : Station) (k : Nat) (l new : List Xl) : List Xl :=
  new.foldl (installXl (fun y => xlNeeded st k y || new.any (fun x => x.vstart = y.vstart))) l

/-- A range becomes the most recently used. -/
def touchXl (l : List Xl) (va : Nat) : List Xl :=
  match xlOf l va with
  | none => l
  | some x => x :: l.erase x

/-! ## Waiting walks (R264, R265) -/

/-- A walk or fault record that an operation waits for and that holds back a burst of an operand: any walk, and a record of
that operand. -/
def walkHolds (b : Block) (n k id opd : Nat) : Bool :=
  b.walks.any (fun w => w.reqs.any (fun r => match r with
    | .op n' k' id' _ => n' = n && k' = k && id' = id
    | _ => false)) ||
  b.parts.any (fun e => e.2.recs.any (fun f => f.reqs.contains (.op n k id opd)))

/-- A MEM footprint of the start stage that still waits for its translation. -/
def footNeeds (s : Strand) (o : Op) (f : Foot) : Bool :=
  f.space = .mem && f.opd ≠ 8 && !o.walked.contains f.opd && !o.offOpds.contains f.opd && !granOff o f.lo &&
    (xlOf s.ranges f.lo).isNone

/-- The walks of the start stage have returned (R263). -/
def startWalked (s : Strand) (o : Op) : Bool := o.foots.all (fun f => !footNeeds s o f)

/-- Footprints whose first byte is translated, or offside, need no further start walk. -/
def latchWalked (s : Strand) (o : Op) : Op :=
  if o.phase = .list ∨ o.phase = .desc then o
  else { o with walked := (o.foots.filter (fun f => f.space = .mem && !footNeeds s o f)).map (·.opd) }

/-! ## Bursts on offside bytes (R266) -/

/-- First address of a burst. -/
def burstVa (br : Burst) : Nat := lineBytes br.space * br.line

def burstOff (o : Op) (br : Burst) : Bool := o.offOpds.contains br.opd || (br.space = .mem && granOff o (burstVa br))

/-- Offside bytes of reads are delivered poisoned. -/
def skipReads : Nat → Op → Op
  | 0, o => o
  | f + 1, o =>
    let pre := ((readPlan o).1.drop o.rIss).takeWhile (burstOff o)
    if pre = [] then o
    else skipReads f { o with
      rIss := o.rIss + pre.length,
      got := pre.foldl (fun g br => storeBytes g br.opd (burstVa br) br.mask (lineBytes br.space) 0 (fun _ => true)) o.got }

/-- Offside writes are dropped as their lines are written out. -/
def skipWrites (o : Op) : Op :=
  let pre := ((writePlan o).1.drop o.wIss).takeWhile (fun br => burstOff o br && (lineData o br).isSome)
  { o with wIss := o.wIss + pre.length }

/-- Blocks of a decode MOVE; 0 otherwise. -/
def blockCount (o : Op) : Nat :=
  match o.mv with
  | some m => if mvDec m then (decPlaces m).length else 0
  | none => 0

/-! ## Closing work of a MOVE (R150, R153, R158, R164, R188) -/

/-- All reads issued, none outstanding. -/
def readsOver (st : Station) (k : Nat) (o : Op) : Bool :=
  let (l, whole) := readPlan o
  whole && decide (l.length ≤ o.rIss) && !opReading st k o.id

/-- The last element of a MOVE has left the codec and the shaper. -/
def shapeReady (st : Station) (k : Nat) (o : Op) : Bool :=
  match o.mv with
  | none => false
  | some m => !o.shaped && readsOver st k o && (!mvDec m || o.decoded.length = (decPlaces m).length) &&
      (!mvEnc m || o.encoded.length = (encSpecs m).length)

/-- Codec fault kinds in the order in which they are queued: BAD_BLOCK, STALE_TABLE, UNDERRUN, OVERRUN (R188). -/
def codecKinds : List Nat := [0x08, 0x07, 0x06, 0x05]

/-- Places of a decode MOVE's compressed operand in generation order. -/
def genPlaces (m : Mv) : List Nat :=
  dedup (((mvPositions m).filter (inBounds m.dims)).map (fun j => wrapInt 64 (payAddr m (placeOf (srcBit m j / 8 % 2 ^ 64)))))

/-- Detail of a codec record: the first affected block, the operand, and the number of blocks. -/
def codecDetail (m : Mv) (l : List CFault) : Nat :=
  match l with
  | [] => 0
  | c :: _ => c.place / 4096 % 2 ^ 45 + (if mvDelta m then 1 else 0) * 2 ^ 45 + c.detail % 2 * 2 ^ 47 + c.line % 256 * 2 ^ 48 +
      min 255 (dedup (l.map (·.place))).length * 2 ^ 56

/-- Queue the codec's records of a MOVE (R188). -/
def codecRecords (b : Block) (n k : Nat) (o : Op) (m : Mv) : Block :=
  forEach codecKinds b (fun b kind =>
    let l := (genPlaces m).flatMap (fun a => o.cfaults.filter (fun c => c.kind = kind && c.place = a))
    if l = [] then b else contentFault b n k kind o (codecDetail m l) (dPolicy m.d))

/-- The elements of a MOVE that have passed the shaper, in the order in which they arrive. -/
def passedElems (m : Mv) (o : Op) : List Elem :=
  (((mvReadOrder m).map (fun j =>
    let c := srcCoord m.dims j
    element m (mvSrc m o) (mvSmv m o) (c.drop 1) (c.headD 0))).takeWhile (·.isSome)).filterMap id

/-- Merge the elements of a DELAYED MOVE that have newly passed into its history slot (R153, R154). -/
def histMerge (b : Block) (n k : Nat) (o : Op) : Block :=
  match o.mv with
  | none => b
  | some m =>
    if !dShp m.d || sMode m.side ≠ 4 || o.shaped || passThrough m.d m.side then b
    else
      let l := passedElems m o
      let a := fp32Bits (amaxOf (((l.drop o.histN).filter (fun e => !e.bad)).map (fun e => (e.x, false)))).1
      let b := modOp b n k o.id (fun x => { x with histN := l.length })
      modStn b n (fun st => { st with hist := tmod st.hist (sHslot m.side) Hist.reset (fun h => { h with acc := max h.acc a }) })

/-- The shaper's closing work: statistics and faults (R158, R164). -/
def shapeClose (b : Block) (n k : Nat) (o : Op) (m : Mv) : Block :=
  match allElems m (mvSrc m o) (mvSmv m o) with
  | none => b
  | some l =>
    let c := (getStrand b n k).chan
    let good := l.filter (fun e => !e.bad)
    let clip := (good.filter (fun e => e.cast.clip)).length
    let pass := passThrough m.d m.side
    let b := modStrand b n k (fun s => { s with stats := statAdd s.stats pass l })
    let b := if pass then b else countCh (countCh b n c 0x12 good.length) n c 0x13 clip
    let lim := rbits b (shpB n + 0x40) 15 0
    let b := if lim ≠ 0 ∧ lim * l.length < clip * 65536 then
        contentFault b n k 0x03 o (clip + l.length * 2 ^ 32) (dPolicy m.d) else b
    match satColumn m (mvSrc m o) (mvSmv m o) with
    | none => b
    | some s0 => contentFault b n k 0x04 o s0 (dPolicy m.d)

/-- The last element has left: codec records, then the shaper's; contexts and bindings go (R161, R178, R192). -/
def shapeDone (b : Block) (n k : Nat) (o : Op) : Block :=
  match o.mv with
  | none => b
  | some m =>
    let b := modOp b n k o.id (fun x => { x with shaped := true })
    let b := codecRecords b n k o m
    let b := if dShp m.d then shapeClose b n k o m else b
    modStn b n (fun st => freeRes st k o.id)

/-! ## Progress of an operation -/

/-- A MOVE that needs shaper or codec resources (R161, R192). -/
def needsCtx (o : Op) : Bool :=
  match o.mv with
  | some m => dShp m.d || dCodec m.d ≠ 0
  | none => false

/-- The start stage is over: bursts may issue (event 0x0C). -/
def beginIssue (b : Block) (n k id : Nat) : Block :=
  countCh (modOp b n k id (fun o => { o with phase := .issue })) n (getStrand b n k).chan 0x0C 1

/-- Every burst of an operation has been issued. -/
def allIssued (o : Op) : Bool :=
  let (r, rw) := readPlan o
  let (w, ww) := writePlan o
  rw && ww && decide (r.length ≤ o.rIss) && decide (w.length ≤ o.wIss)

/-- An operation with nothing left to do. A TLOAD and a SETX end by their own commands. -/
def opOver (st : Station) (k : Nat) (o : Op) : Bool :=
  o.kind ≠ .tload && o.kind ≠ .setx && opLanded st k o && opReadsDone st k o && (o.kind ≠ .move || o.shaped)

/-- An operation that is over leaves its strand; its hazard entries are released with what it still has to land (R223). -/
def opRemove (b : Block) (n k id : Nat) : Block :=
  let b := modStrand b n k (fun s => { s with ops := s.ops.filter (fun o => o.id ≠ id) })
  modStn b n (fun st => freeRes st k id)

/-- An operation has come to its first burst: its walks have returned, no earlier operation of its strand issues before it, and
the near port that it needs runs (R81, R178, R201, R265). Before that it binds nothing and requests no context. -/
def burstNext (b : Block) (n k : Nat) (o : Op) : Bool :=
  let s := getStrand b n k
  startWalked s o && aheadIssued s o && nearOk b n o && !opHeld b n k o

/-- Bring one operation up to date. -/
def opTick (b : Block) (n k id : Nat) : Block :=
  let b := modOp b n k id (latchWalked (getStrand b n k))
  match findOp b n k id with
  | none => b
  | some o => match o.phase with
    | .res =>
      if !isData o || !nearOk b n o then b
      else if !needsCtx o then beginIssue b n k id
      else if !burstNext b n k o then b
      else if (getStn b n).resQ.contains (k, id) then b
      else modStn b n (fun st => { st with resQ := st.resQ ++ [(k, id)] })
    | .issue | .issued =>
      let o := skipWrites (skipReads (blockCount o + 2) o)
      let b := histMerge (modOp b n k id (fun _ => o)) n k o
      let b := if shapeReady (getStn b n) k o then shapeDone b n k o else b
      let b := modOp b n k id (fun x => if x.phase = .issue ∧ allIssued x ∧ (x.kind ≠ .tload) then { x with phase := .issued } else x)
      let b := if o.kind = .stat ∧ ((findOp b n k id).map (·.phase)) = some Phase.issued then
          modStrand b n k (fun s => { s with blocked := if s.blocked = .stat then .no else s.blocked }) else b
      match findOp b n k id with
      | none => b
      | some o => if opOver (getStn b n) k o then opRemove b n k id else b
    | _ => b

/-- Bring a strand up to date: its operations, the station's hazard entries, its next start stage. -/
def tick (b : Block) (n k : Nat) : Block :=
  let b := forEach ((getStrand b n k).ops.map (·.id)) b (fun b id => opTick b n k id)
  turn (relHaz b n) n k

/-- Bring every strand of a station up to date, lowest first. [DEDUCED: log 114] -/
def tickStn (b : Block) (n : Nat) : Block := forEach ((stnStrands b n).map (·.1)) b (fun b k => tick b n k)

/-! ## Rate limiters and ages (R57, R58) -/

/-- Token buckets gain RATE/256 in one sclk, up to DEPTH; without a limit the bucket is full. Units of 1/512 token.
[DEDUCED: log 114] -/
def refill (b : Block) (n c tok : Nat) : Nat :=
  let cap := 512 * chDepth b n c
  if chRate b n c = 0 then cap else min cap (tok + 2 * chRate b n c)

def refillAll (b : Block) (n : Nat) (write : Bool) : Block :=
  { b with chans := b.chans.map (fun e => if e.1 / 32 = n then
      (e.1, if write then { e.2 with tokW := refill b n (e.1 % 32) e.2.tokW } else { e.2 with tokR := refill b n (e.1 % 32) e.2.tokR })
    else e) }

/-- A channel's limiter holds a token in a direction. -/
def hasToken (b : Block) (n c : Nat) (write : Bool) : Bool :=
  chRate b n c = 0 || 512 ≤ (if write then (getChan b n c).tokW else (getChan b n c).tokR)

/-- A burst or line takes a token, unless the limiter is off. -/
def takeToken (b : Block) (n c : Nat) (write : Bool) : Block :=
  if chRate b n c = 0 then b
  else modChan b n c (fun x => if write then { x with tokW := x.tokW - 512 } else { x with tokR := x.tokR - 512 })

def ageLimit (b : Block) (n : Nat) : Nat := rbits b (chanB n + 0x40) 15 0

/-- Wait age of a contender in a direction; strand 256 is the link agent. -/
def ageOf (b : Block) (n k : Nat) (write : Bool) : Nat :=
  if k = 256 then (if write then (getStn b n).ageLW else (getStn b n).ageLR)
  else (if write then (getStrand b n k).ageW else (getStrand b n k).ageR)

def setAge (b : Block) (n k : Nat) (write : Bool) (v : Nat) : Block :=
  if k = 256 then modStn b n (fun st => if write then { st with ageLW := v } else { st with ageLR := v })
  else modStrand b n k (fun s => if write then { s with ageW := v } else { s with ageR := v })

/-- Eligible contenders that are not served grow older; the one served starts again. -/
def ageAll (b : Block) (n : Nat) (write : Bool) (l : List Cand) (won : Option Nat) : Block :=
  forEach l b (fun b c => setAge b n c.strand write (if won = some c.strand then 0 else ageOf b n c.strand write + 1))

/-- The contender whose age has reached AGE_LIMIT: the oldest, then the lowest number (R58). -/
def agedPick (b : Block) (n : Nat) (write : Bool) (l : List Cand) : Option Cand :=
  let old := l.filter (fun c => ageLimit b n ≤ ageOf b n c.strand write)
  let top := (old.map (fun c => ageOf b n c.strand write)).foldl max 0
  argmin (·.strand) (old.filter (fun c => ageOf b n c.strand write = top))

/-- An aged selection or tag reservation is counted (R58, R409). -/
def countAged (b : Block) (n k : Nat) : Block :=
  let b := rcount b (chanB n + 0x48) 1
  if k = 256 then count b (.station n) 0x10 1 none else countCh b n (getStrand b n k).chan 0x10 1

/-- Selection of one arbiter: an aged contender first, then the order of R56. The flag says that it was aged. -/
def selectOne (b : Block) (n : Nat) (write : Bool) (r : Rr) (l : List Cand) : Option (Cand × Bool) :=
  match agedPick b n write l with
  | some c => some (c, true)
  | none => (rrPick r l).map (fun c => (c, false))

/-! ## Candidates of the far-port arbiters -/

/-- An operation that may issue: a data operation behind one that still issues may not (R81). -/
def mayIssue (s : Strand) (o : Op) : Bool := o.phase = .issue && (!isData o || aheadIssued s o)

/-- The list line read of a MOVEB (R93): its entry is granted and it waits on no conflict. -/
def listBurst (st : Station) (k : Nat) (o : Op) : Option Burst :=
  match o.listVa with
  | some a =>
    if o.phase = .list && o.foots ≠ [] && o.elem.isNone && !hazWaits st k o && !opConflict st k o && !opReading st k o.id then
      some { opd := 8, space := .mem, line := a / 128, mask := 2 ^ 128 - 1 } else none
  | none => none

/-- Next read of an operation that does not go through the near port. -/
def nextFar (l : List Burst) (i : Nat) : Option Burst :=
  match l[i]? with
  | some br => if br.space = .scratch then none else some br
  | none => none

/-- Blocks of a decode MOVE whose payload has been asked for. -/
def askedBlocks (o : Op) : List Nat :=
  match o.mv with
  | none => []
  | some m =>
    if !mvDec m then []
    else
      let iss := (readPlan o).1.take o.rIss
      (decPlaces m).filter (fun a => match hdrGot m o a with
        | none => false
        | some (h, q) => q || (blockBursts m a h).all (fun br => iss.contains br))

/-- Lines of the locked stream issued and not delivered by an operation: those that its issued reads make up (R203). -/
def streamAhead (o : Op) : Nat :=
  let o' := { o with
    got := ((readPlan o).1.take o.rIss).foldl (fun g br =>
      storeBytes g br.opd (burstVa br) br.mask (lineBytes br.space) 0 (fun _ => false)) o.got
    decoded := (askedBlocks o).map (fun a => (a / 4096, List.replicate 4096 (0, false))) }
  (((writePlan o).1.drop o.wIss).filter (fun br => br.space = .scratch && (lineData o' br).isSome)).length

/-- The window W of the locked stream in lines: at most 768 (R196, R203). -/
def lockWindow (b : Block) (n : Nat) : Nat :=
  min 768 (rbits b (nearB n + 0x4C) 9 0 * popCount 8 (rbits b (nearB n + 0x40) 23 16))

/-- The window W of the locked stream admits another burst (R203). -/
def lockRoom (b : Block) (n k : Nat) (o : Op) : Bool :=
  let s := getStrand b n k
  if lockChan b n = some s.chan && o.foots.any (fun f => f.space = .scratch && f.write) then
    decide (streamAhead o + (getStn b n).staged.length < lockWindow b n)
  else true

/-- A burst has its translation, is held by no walk, and its path is open. -/
def burstReady (b : Block) (n k : Nat) (s : Strand) (o : Op) (br : Burst) : Bool :=
  !opHeld b n k o && match br.space with
  | .mem => (xlPa s.ranges (burstVa br)).isSome && startWalked s o && !walkHolds b n k o.id br.opd
  | .window => !b.linkReset && !pageFence b linkB && startWalked s o && !walkHolds b n k o.id br.opd
  | .vault => startWalked s o && !walkHolds b n k o.id br.opd
  | .scratch => false

/-- A strand's next far read: operation and burst. -/
def readOf (b : Block) (n k : Nat) (s : Strand) : Option (Op × Burst) :=
  s.ops.findSome? (fun o =>
    match listBurst (getStn b n) k o with
    | some br => if burstReady b n k s o br then some (o, br) else none
    | none => if mayIssue s o && lockRoom b n k o && turnRoom (getStn b n) k o && hdrRoom o then
        match nextFar (readPlan o).1 o.rIss with
        | some br => if burstReady b n k s o br then some (o, br) else none
        | none => none
      else none)

/-- A strand's next far write: operation, burst, data and poison by byte. -/
def writeOf (b : Block) (n k : Nat) (s : Strand) : Option (Op × Burst × Nat × Nat) :=
  s.ops.findSome? (fun o =>
    if mayIssue s o then
      match nextFar (writePlan o).1 o.wIss with
      | some br => if burstReady b n k s o br then (lineData o br).map (fun d => (o, br, d.1, d.2)) else none
      | none => none
    else none)

/-- Read tags outstanding on the far port, those of the prefetcher and those that a soft reset left among them (R74, R83). -/
def rdUsed (st : Station) : Nat := st.rdTags.length + st.pfOut.length + st.oldRd.length + st.oldPf.length

/-- The lowest read tag that is not outstanding. -/
def rdTagNew (st : Station) : Option Nat :=
  (List.range 1024).find? (fun i => (tget st.rdTags i).isNone && (tget st.oldRd i).isNone)

/-- A read tag is free for a contender: far port (less one that is reserved for another), window, vault (R409, R424). -/
def rdTagFree (st : Station) (sp : Space) (k : Nat) : Bool :=
  match sp with
  | .window => st.wRdTags.length < 1024
  | .vault => st.vRdTags.length < 256
  | _ => rdUsed st + (if st.tagFor.isSome && st.tagFor ≠ some k then 1 else 0) < 1024

def wrTagFree (st : Station) (sp : Space) : Bool :=
  match sp with
  | .window => st.wWrTags.length < 1024
  | .vault => (st.vWrTags.filter (fun e => decide (e.1 < 256))).length < 256
  | _ => st.wrTags.length < 1024

/-- The link agent as a contender (R296). -/
def linkCand (b : Block) : Cand := { chan := 32, strand := 256, prio := rbits b (linkB + 0x44) 2 0 }

def strandCand (b : Block) (n k : Nat) (s : Strand) : Cand := { chan := s.chan, strand := k, prio := chPrio b n s.chan }

/-! ## Issue -/

/-- One more read burst of an operation has been issued. -/
def bumpRead (b : Block) (n k : Nat) (o : Op) (br : Burst) : Block :=
  if br.opd = 8 then b else modOp b n k o.id (fun x => { x with rIss := x.rIss + 1 })

/-- Issue a far-port, window or vault read burst (R294, R300, R326, R424). -/
def issueRead (b : Block) (n k : Nat) (s : Strand) (o : Op) (br : Burst) : Block :=
  let st := getStn b n
  let va := burstVa br
  let a : Agent := .op k o.id br.opd
  let q := strandPart b n k
  let b := takeToken (bumpRead b n k o br) n s.chan false
  match br.space with
  | .mem =>
    match xlPa s.ranges va, rdTagNew st with
    | some pa, some t =>
      let b := setStn b n { st with rdTags := tput st.rdTags t { agent := a, part := q, va := va, line := pa / 128, mask := br.mask },
                                    tagFor := if st.tagFor = some k then none else st.tagFor }
      let b := modStrand b n k (fun s => { s with ranges := touchXl s.ranges va, ageTag := 0 })
      countCh (countCh b n s.chan 0x02 1) n s.chan 0x03 (popCount 128 br.mask)
    | _, _ => b
  | .window =>
    match tfree st.wRdTags 0 1024 with
    | some t =>
      let (chip, win, doff) := match o.mv with
        | some m => tgetD m.wins br.opd (0, 0, 0)
        | none => (0, 0, 0)
      let pk := mkRequest b false n chip win (doff + va % 2 ^ 48) t br.mask 0 0
      let b := setStn b n { st with wRdTags := tput st.wRdTags t { agent := a, part := q, va := va, line := va / 128, mask := br.mask } }
      sendPkt b 4 0 { pk with h0 := mkH0 1 (br.mask ≠ 2 ^ 128 - 1) b.colour chip (myChip b) win n (t + 1024) 0 0 }
    | none => b
  | _ =>
    match tfree st.vRdTags 0 256 with
    | some t => setStn b n { st with vRdTags := tput st.vRdTags t { agent := a, part := q, va := va, line := va / 128, mask := br.mask } }
    | none => b

/-- Lines whose shared-cache copies a write invalidates, by the settings in force when it departs (R229, R242). -/
def invalOf (b : Block) (line : Nat) : List Nat :=
  let hit := (List.range 4).any (fun r => rbit b (hubB + 0x80) (1 + r) &&
    decide (rget64 b (hubB + 0x90 + 0x10 * r) / 128 ≤ line) && decide (line ≤ rget64 b (hubB + 0x98 + 0x10 * r) / 128))
  if rbit b (hubB + 0x80) 0 || hit then [line] else []

/-- Issue a far-port, window or vault write burst; it departs at once (R59, R299, R329). The words that a station buffer lost
are poisoned as well (R198). -/
def issueWrite (b : Block) (n k : Nat) (s : Strand) (o : Op) (br : Burst) (data pois rows : Nat) : Block :=
  let va := burstVa br
  let a : Agent := .op k o.id br.opd
  let words := poisonWords 128 pois ||| rows
  let line := driveLine 128 data words
  let b := takeToken (modOp b n k o.id (fun x => { x with wIss := x.wIss + 1 })) n s.chan true
  let (wid, b) := newId b
  let st := getStn b n
  let w : WrReq := { agent := a, part := strandPart b n k, wid := wid, va := va, line := va / 128, mask := br.mask, data := BitVec.ofNat 1024 line,
                     poison := words, acked := false, inval := [], failed := false }
  match br.space with
  | .mem =>
    match xlPa s.ranges va, tfree st.wrTags 0 1024 with
    | some pa, some t =>
      let b := setStn b n { st with wrTags := tput st.wrTags t { w with line := pa / 128, inval := invalOf b (pa / 128) } }
      let b := modStrand b n k (fun s => { s with ranges := touchXl s.ranges va })
      countCh (countCh b n s.chan 0x04 1) n s.chan 0x05 (popCount 128 br.mask)
    | _, _ => b
  | .window =>
    match tfree st.wWrTags 0 1024 with
    | some t =>
      let (chip, win, doff) := match o.mv with
        | some m => tgetD m.wins br.opd (0, 0, 0)
        | none => (0, 0, 0)
      let b := setStn b n { st with wWrTags := tput st.wWrTags t w }
      let b := count b (.station n) 0x19 (popCount 128 br.mask) none
      sendPkt b 4 0 (mkRequest b true n chip win (doff + va % 2 ^ 48) t br.mask line words)
    | none => b
  | _ =>
    match tfree st.vWrTags 0 256 with
    | some t => count (setStn b n { st with vWrTags := tput st.vWrTags t w }) (.station n) 0x19 (popCount 128 br.mask) none
    | none => b

/-- The link agent issues an inbound access of MEM (R296). -/
def issueLink (b : Block) (n : Nat) (e : LinkAcc) : Block :=
  let st := getStn b n
  let k := e.pkt
  let line := linkAddr k e.win / 128
  let a : Agent := .link e.src k e.win
  let st' := { st with inQ := st.inQ.erase e }
  if pktType k = 0 then
    match tfree st.wrTags 0 1024 with
    | none => b
    | some t =>
      let (wid, b) := newId (poolFree b e.src e.pools)
      let w : WrReq := { agent := a, part := 16, wid := wid, va := 128 * line, line := line, mask := pktMask k, data := k.data,
                         poison := pktPoison k, acked := false, inval := invalOf b line, failed := false }
      setStn b n { st' with wrTags := tput st.wrTags t w }
  else
    match rdTagNew st with
    | none => b
    | some t => setStn (poolFree b e.src e.pools) n { st' with rdTags := tput st.rdTags t { agent := a, part := 16, va := 128 * line, line := line, mask := pktMask k } }

/-! ## The read arbiter (R56, R58, R83, R409) -/

/-- Read bursts ready, with their strands. -/
def readsReady (b : Block) (n : Nat) : List (Nat × Strand × Op × Burst) :=
  (stnStrands b n).filterMap (fun e => (readOf b n e.1 e.2).map (fun x => (e.1, e.2, x.1, x.2)))

/-- Physical line address of a prefetch that may be issued; descriptor prefetches stand above 2^60. -/
def pfPa (b : Block) (n k va : Nat) : Option Nat :=
  match (getStrand b n k).entry with
  | none => none
  | some e => xlPa e.xl (va % 2 ^ 60)

/-- The prefetch that the station issues in a permitted sclk. -/
def pfNext (b : Block) (n : Nat) : Option (Nat × Nat) :=
  let st := getStn b n
  if st.pfGap = 0 && st.pfOut.length + st.oldPf.length < 32 && decide (rdUsed st < 1024) then
    st.pfQ.find? (fun e => (pfPa b n e.1 e.2).isSome)
  else none

/-- Strands that hold a ready burst and a token, and no free tag, wait for one (R409). -/
def ageTags (b : Block) (n : Nat) (l : List (Nat × Strand × Op × Burst)) : Block :=
  forEach l b (fun b e => modStrand b n e.1 (fun s => { s with ageTag := s.ageTag + 1 }))

/-- One sclk of the far-port read arbiter. [DEDUCED: log 112] -/
def readIssue (b : Block) (n : Nat) : Block :=
  let b := refillAll b n false
  let st := getStn b n
  let ready := readsReady b n
  let tok := ready.filter (fun e => hasToken b n e.2.1.chan false)
  let b := if ready.any (fun e => !hasToken b n e.2.1.chan false) then count b (.station n) 0x11 1 none else b
  let wait := tok.filter (fun e => !rdTagFree st e.2.2.2.space e.1)
  let b := if wait ≠ [] then count b (.station n) 0x06 1 none else b
  let b := ageTags b n wait
  let go := tok.filter (fun e => rdTagFree st e.2.2.2.space e.1)
  let link := (linkNext st false false).filter (fun _ => rdTagFree st .mem 256)
  let cands := go.map (fun e => strandCand b n e.1 e.2.1) ++ (if link.isSome then [linkCand b] else [])
  match pfNext b n with
  | some e =>
    let b := ageAll b n false cands none
    let pa := (pfPa b n e.1 e.2).getD 0
    modStn b n (fun st => { st with pfQ := st.pfQ.erase e, pfGap := 3,
                                    pfOut := st.pfOut ++ [{ k := e.1, part := strandPart b n e.1, va := e.2, pa := pa, live := true }] })
  | none =>
    let b := modStn b n (fun st => { st with pfGap := st.pfGap - 1 })
    match selectOne b n false st.rrRd cands with
    | none => b
    | some (c, aged) =>
      let b := ageAll b n false cands (some c.strand)
      let b := if aged then countAged b n c.strand else b
      let b := modStn b n (fun st => { st with rrRd := rrPast st.rrRd c })
      if c.strand = 256 then
        match link with
        | some e => issueLink b n e
        | none => b
      else match go.find? (fun e => e.1 = c.strand) with
        | some e => issueRead b n e.1 (getStrand b n e.1) e.2.2.1 e.2.2.2
        | none => b

/-! ## The write arbiter -/

/-- One sclk of the far-port write arbiter. `corrected` and `rows` are what the corrector of the station's buffers finds in the
line that departs (R198). [DEDUCED: log 112] -/
def writeIssue (b : Block) (n corrected rows : Nat) : Block :=
  let b := refillAll b n true
  let st := getStn b n
  let ready := (stnStrands b n).filterMap (fun e => (writeOf b n e.1 e.2).map (fun x => (e.1, e.2, x)))
  let b := if ready.any (fun e => !hasToken b n e.2.1.chan true) then count b (.station n) 0x11 1 none else b
  let go := ready.filter (fun e => hasToken b n e.2.1.chan true && wrTagFree st e.2.2.2.1.space)
  let link := (linkNext st true false).filter (fun _ => wrTagFree st .mem)
  let cands := go.map (fun e => strandCand b n e.1 e.2.1) ++ (if link.isSome then [linkCand b] else [])
  match selectOne b n true st.rrWr cands with
  | none => b
  | some (c, aged) =>
    let b := ageAll b n true cands (some c.strand)
    let b := if aged then countAged b n c.strand else b
    let b := modStn b n (fun st => { st with rrWr := rrPast st.rrWr c })
    if c.strand = 256 then
      match link with
      | some e => issueLink b n e
      | none => b
    else match go.find? (fun e => e.1 = c.strand) with
      | some (k, s, o, br, data, pois) =>
        let rows := rows &&& poisonWords 128 br.mask
        let b := nearCorrected (issueWrite b n k s o br data pois rows) n corrected
        tick (if rows = 0 then b else bufferFault b n k o.id (burstVa br)) n k
      | none => b

/-- A far-port write burst may be issued (R56). -/
def execWriteBurstIssue (n corrected : Nat) (beyond : BitVec 2) (s : State) : Host.Outcome State Fault Refusal :=
  effect (fun _ b => if stnRuns b n then writeIssue (tickStn b n) n corrected beyond.toNat else b) s

/-! ## Read returns -/

/-- An instruction whose own access failed: its strand stops; a TLOAD leaves its slot INVALID (R107). -/
def instrFail (b : Block) (n k : Nat) (o : Op) : Block :=
  stopAt (dropOp (tloadFail b n k o) n k o.id) n k o.pc 0x15

/-- The value that SETX loads (R94). -/
def setxVal (w0 v : Nat) : Nat := ceilDiv v (2 ^ bits w0 21 16)

/-- SETX takes its word: the register is loaded and the strand goes on (R80, R94). -/
def setxDone (b : Block) (n k : Nat) (o : Op) (v : Nat) : Block :=
  let w0 := o.w0.toNat
  let b := modStrand b n k (fun s => { s with
    x := s.x.set (bits w0 10 8) (some (BitVec.ofNat 64 (setxVal w0 v))),
    blocked := if s.blocked = .setx then .no else s.blocked })
  opRemove b n k o.id

/-- Element width of a list MOVEB in bytes (R92). -/
def listWidth (o : Op) : Nat := if bit o.w0.toNat 13 then 8 else 4

/-- A write entry overlaps a list line of a strand (R224). -/
def listStale (b : Block) (n k va : Nat) : Bool :=
  (getStn b n).haz.any (fun h => h.write && h.space = .mem && h.part = strandPart b n k && h.lo ≤ va + 127 && va ≤ h.hi)

/-- A list MOVEB takes its element from the held line: its entry goes and its second step begins (R93). The line stays held
unless a later operation is already to write it (R224). -/
def listDone (b : Block) (n k : Nat) (o : Op) (a : Nat) (data : Line) : Block :=
  let w := listWidth o
  let v := bits data.toNat (8 * (a % 128) + 8 * w - 1) (8 * (a % 128))
  let va := a / 128 * 128
  let b := modStrand b n k (fun s => { s with listLine := if listStale b n k va then none else some (va, data) })
  modOp b n k o.id (fun x => { x with elem := some v, phase := .desc, foots := [] })

/-- An access fault on a header, payload, delta or base burst of the codec spoils the whole burst (R189). -/
def codecBurst (o : Op) (opd : Nat) : Bool :=
  match o.mv with
  | some m => mvDec m && (opd = 6 || opd = 7 || (opd = 0 && mvDelta m))
  | none => false

/-- A TLOAD whose header has arrived and whose table reaches 2^57 (R176, R266). -/
def tableHigh (o : Op) : Bool :=
  o.kind = .tload && (match gotNum o.got 9 o.desc 8, gotNum o.got 9 (o.desc + 8) 8 with
    | some (t0, q), some (t1, q1) => !q && !q1 && tabHeadOk t0 t1 && decide (2 ^ 57 < o.desc + tabLen t0)
    | _, _ => false)

/-- Data of a read burst of an operation come back: a fault is recorded, the bytes are held, and the operation goes on.
[DEDUCED: log 28] -/
def opReadBack (b : Block) (n k id opd : Nat) (sp : Space) (va mask : Nat) (data : Nat) (bad : Nat → Bool)
    (fault : Option (Nat × Nat × Bool)) : Block :=
  match findOp b n k id with
  | none => b
  | some o =>
    let instr := opd = 8 || opd = 9
    let b := match fault with
      | some (addr, cause, quiet) =>
        if instr then accessRec b n k false addr cause quiet else accessFault b n k o false addr cause quiet
      | none => b
    if instr && fault.isSome then tick (instrFail b n k o) n k
    else if opd = 8 then
      match o.listVa with
      | some a => tick (listDone b n k o a (BitVec.ofNat 1024 data)) n k
      | none => b
    else
      let bad := if fault.isSome && codecBurst o opd then fun _ => true else bad
      let b := modOp b n k id (fun x => { x with got := storeBytes x.got opd va mask (lineBytes sp) data bad })
      let b := match findOp b n k id with
        | some o' => if tableHigh o' then instrOffside b n k o' (2 ^ 57) false true else b
        | none => b
      let b := match o.kind, findOp b n k id with
        | .setx, some o' => match gotNum o'.got 9 o.desc 8 with
          | some (v, _) => setxDone b n k o v
          | none => b
        | _, _ => b
      tick b n k

/-- A freed read tag is reserved for the lowest strand that has waited AGE_LIMIT for one (R409). -/
def reserveTag (b : Block) (n : Nat) : Block :=
  let st := getStn b n
  if st.tagFor.isSome then b
  else match ((stnStrands b n).filter (fun e => ageLimit b n ≤ e.2.ageTag)).map (·.1) with
    | [] => b
    | k :: _ => countAged (setStn b n { st with tagFor := some k }) n k

/-- Poisoned bytes of a 128-byte return and the fault it makes: completion code, poison marks and words beyond correction,
of the words that the request asks for (R425 to R427). [DEDUCED: log 28] [DEDUCED: log 111] -/
def retBad (ret : Ret) (i : Nat) : Bool := ret.code ≠ 0 || ret.poison.toNat.testBit (i / 64) || ret.beyond.toNat.testBit (i / 64)

def retCause (p : Params) (words : Nat) (ret : Ret) : Option Nat :=
  if ret.code ≠ 0 then some 0 else if ret.poison.toNat &&& words ≠ 0 then some 1
  else if p.fpCheckEn ∧ ret.beyond.toNat &&& words ≠ 0 then some 2 else none

/-- A response that arrives after a fence, or in lull or off, is discarded and counted (R67, R420). -/
def discardRsp (b : Block) (n : Nat) : Block :=
  let b := rcount b (stnB n + 0x54) 1
  if (getStn b n).power = .lull ∨ (getStn b n).power = .off then signalEv b n 0x55 noUnit 0 (5 * 2 ^ 32) else b

/-- A response whose tag is not outstanding is discarded with an event of cause 5 (R440); in lull or off as R420 states. -/
def strayRsp (b : Block) (n : Nat) (write : Bool) : Block :=
  if stnActive b n then
    signalEv b n (if write then 0x41 else 0x40) noUnit 0 (errInfo 0xFFF 0 0 (b2n write) 0 (if write then 2 else 1) + 5 * 2 ^ 32)
  else discardRsp b n

/-- Bursts issued under stale translations that a revoking commit waits for (R268): a read by its tag, a write by its
number, a prefetch by strand and line. -/
def drainRd (t : Nat) : Nat := 3 * t
def drainWr (wid : Nat) : Nat := 3 * wid + 1
def drainPf (k va : Nat) : Nat := 3 * (va * 512 + k) + 2

def drained (b : Block) (n key : Nat) : Block :=
  { b with parts := b.parts.map (fun e => (e.1, { e.2 with drain := e.2.drain.filter (fun d => d ≠ (n, key)) })) }

/-- A far-port read returns (R132, R425, R427). -/
def readBack (p : Params) (b : Block) (n tag : Nat) (data : Line) (ret : Ret) : Block :=
  let st := getStn b n
  match tget st.rdTags tag with
  | none =>
    if (tget st.oldRd tag).isSome then
      discardRsp (drained (setStn b n { st with oldRd := tdel st.oldRd tag }) n (drainRd tag)) n
    else strayRsp b n false
  | some rq =>
    let b := drained (setStn b n { st with rdTags := tdel st.rdTags tag }) n (drainRd tag)
    let b := reserveTag b n
    let bad := fun i => retBad { ret with beyond := if p.fpCheckEn then ret.beyond else 0 } i
    match rq.agent with
    | .link port k _ =>
      let words := maskOf ((List.range 2).filter (fun w => bad (64 * w) && (poisonWords 128 rq.mask).testBit w))
      let d := (setBits 128 rq.mask).foldl (fun acc i => if bad i then acc else acc + byteAt data.toNat i * 256 ^ i) 0
      linkReadDone b port k (ret.code = 0) d words (128 * rq.line) 0
    | .op k id opd =>
      if st.stopCode ≠ 0 ∨ st.power ≠ .active then discardRsp b n
      else opReadBack b n k id opd .mem rq.va rq.mask data.toNat bad ((retCause p (poisonWords 128 rq.mask) ret).map (fun c => (128 * rq.line, c, false)))

/-- READ_RETURN (R425): A far-port read return arrives with its tag, data, poison and completion code. -/
def execReadReturn (n tag : Nat) (data : Line) (ret : Ret) (s : State) : Host.Outcome State Fault Refusal :=
  effect (fun p b => readBack p b n tag data ret) s

/-! ## Write completions (R227, R228) -/

/-- A departed write of an operation has failed: an access fault on a write; it counts as landed. -/
def opWriteFail (b : Block) (n k id addr cause : Nat) (quiet : Bool) : Block :=
  match findOp b n k id with
  | some o =>
    if isData o then accessFault b n k o true addr cause quiet
    else stopAt (accessRec b n k true addr cause quiet) n k o.pc 0x15
  | none => accessRec b n k true addr cause quiet

/-- What follows the landing or failure of a write: entries, barriers and start stages. -/
def afterLand (b : Block) (n : Nat) (a : Agent) : Block :=
  match a with
  | .op k _ _ => tick b n k
  | .link .. => relHaz b n

/-- A far-port write has landed. -/
def wrLanded (p : Params) (b : Block) (n : Nat) (w : WrReq) : Block :=
  let b := drained b n (drainWr w.wid)
  match w.agent with
  | .link port k l => linkWriteDone p b port k l true 0 0
  | a => afterLand b n a

/-- A far-port or window write has failed (R228). -/
def wrFailed (p : Params) (b : Block) (n : Nat) (w : WrReq) (addr cause : Nat) : Block :=
  let b := drained b n (drainWr w.wid)
  match w.agent with
  | .link port k l => linkWriteDone p b port k l false addr cause
  | .op k id _ => afterLand (opWriteFail b n k id addr cause false) n w.agent

/-- A far-port write completes: it lands, or waits for its invalidations, or fails (R227 to R229). -/
def writeBack (p : Params) (b : Block) (n tag : Nat) (ok : Bool) : Block :=
  let st := getStn b n
  match tget st.wrTags tag with
  | none => strayRsp b n true
  | some w =>
    if w.acked then strayRsp b n true
    else if w.failed then setStn b n { st with wrTags := tdel st.wrTags tag }
    else if !ok then wrFailed p (setStn b n { st with wrTags := tdel st.wrTags tag }) n w (128 * w.line) 0
    else if w.inval = [] then wrLanded p (setStn b n { st with wrTags := tdel st.wrTags tag }) n w
    else
      let b := setStn b n { st with wrTags := tput st.wrTags tag { w with acked := true } }
      { b with invQ := b.invQ ++ w.inval.map (fun l => (n, w.wid, l)) }

/-- A write has not landed within LAND_TMO: tags from 1,024 up are window tags (R228, R299). -/
def landTmo (p : Params) (b : Block) (n tag : Nat) : Block :=
  let st := getStn b n
  if tag < 1024 then
    match tget st.wrTags tag with
    | none => b
    | some w =>
      if w.failed then b
      else
        let t := if w.acked then tdel st.wrTags tag else tput st.wrTags tag { w with failed := true }
        wrFailed p (rcount (setStn b n { st with wrTags := t }) (ordB n + 0x54) 1) n w (128 * w.line) 3
  else
    match tget st.wWrTags (tag - 1024) with
    | none => b
    | some w => wrFailed p (rcount (setStn b n { st with wWrTags := tdel st.wWrTags (tag - 1024) }) (ordB n + 0x54) 1) n w w.va 3

/-- LAND_TIMEOUT (R228): A write not landed within LAND_TMO is failed as an access fault. -/
def execLandTimeout (n tag : Nat) (s : State) : Host.Outcome State Fault Refusal := effect (fun p b => landTmo p b n tag) s

/-! ## Invalidations (R229, R432) -/

/-- The next invalidation takes a free identifier. -/
def execInvalidationSend (s : State) : Host.Outcome State Fault Refusal :=
  effect (fun _ b =>
    match b.invQ, tfree b.invals 0 256 with
    | (n, wid, line) :: t, some id =>
      if hubOn b then
        count (rcount { b with invQ := t, invals := tput b.invals id { stn := n, wid := wid, line := line, timed := false } }
          (hubB + 0x88) 1) .hub 0x09 1 none
      else b
    | _, _ => b) s

/-- The write that an invalidation belongs to, by its number. -/
def wrByWid (st : Station) (wid : Nat) : Option (Nat × WrReq) := st.wrTags.find? (fun e => e.2.wid = wid && !e.2.failed)

/-- An invalidation is acknowledged: the last one lands its write. -/
def invalAck (p : Params) (b : Block) (id : Nat) : Block :=
  match tget b.invals id with
  | none => rcount b (hubB + 0x8C) 1
  | some x =>
    let b := { b with invals := tdel b.invals id }
    if x.timed then b
    else
      let st := getStn b x.stn
      match wrByWid st x.wid with
      | none => b
      | some (t, w) =>
        let w' := { w with inval := w.inval.filter (fun l => l ≠ x.line) }
        if w'.inval = [] then wrLanded p (setStn b x.stn { st with wrTags := tdel st.wrTags t }) x.stn w
        else setStn b x.stn { st with wrTags := tput st.wrTags t w' }

/-- INVALIDATION_ACK (R432): The shared cache acknowledges an invalidation identifier. -/
def execInvalidationAck (id : BitVec 8) (s : State) : Host.Outcome State Fault Refusal :=
  effect (fun p b => invalAck p b id.toNat) s

/-- An invalidation is not acknowledged within INV_TMO: its write fails; its identifier stays outstanding. -/
def invalTmo (p : Params) (b : Block) (id : Nat) : Block :=
  match tget b.invals id with
  | none => b
  | some x =>
    if x.timed then b
    else
      let b := rcount { b with invals := tput b.invals id { x with timed := true } } (hubB + 0x8C) 1
      let st := getStn b x.stn
      match wrByWid st x.wid with
      | none => b
      | some (t, w) => wrFailed p (setStn b x.stn { st with wrTags := tdel st.wrTags t }) x.stn w (128 * x.line) 3

/-- INVALIDATION_TIMEOUT (R228): An invalidation not acknowledged within INV_TMO fails its write. -/
def execInvalidationTimeout (id : BitVec 8) (s : State) : Host.Outcome State Fault Refusal :=
  effect (fun p b => invalTmo p b id.toNat) s

end Sys2Proof.Machine
end

