-- ==== Sys2Proof/Machine/Mover.lean ====
section
/-! DEFINITION. The instructions of mover programs (R76 to R104): what each does when the sequencer takes it. A command of a
station and an instruction is the sequencer's next retirement of that station, when the unit there is that instruction. -/
namespace Sys2Proof.Machine

/-- What becomes of an instruction that has reached the sequencer: illegal, outside the program range, stopped with a code,
or retired with the program counter that follows. -/
inductive Took
  | illegal
  | bounds
  | stop (code : Nat)
  | go (pc : Nat)
  deriving DecidableEq, Repr

/-- A unit of a strand as it reaches the sequencer. -/
structure MUnit where
  n  : Nat
  k  : Nat
  s  : Strand
  e  : Entry
  w0 : Nat
  w1 : Nat
  deriving DecidableEq, Repr

/-- Address of the unit after the one at the program counter. -/
def nextPc (u : MUnit) : Nat := u.s.pc + 16

/-- Whether an address is a unit of the program range (R86). -/
def inRange (u : MUnit) (a : Int) : Bool := decide ((u.e.va : Int) ≤ a) && decide (a < progEnd u.e)

/-- An extent register. [DEDUCED: log 13] -/
def xReg (u : MUnit) (d : Nat) : Option DWord := u.s.x.getD d none

/-- The strand after its unit has retired: unblocked, its program counter moved; it stops when the counter has left the
range (R80, R82, R86). -/
def retire (b : Block) (u : MUnit) (pc : Nat) : Block :=
  let b := countCh b u.n u.s.chan 0x0B 1
  let b := modStrand b u.n u.k (fun s => { s with pc := pc })
  let run := (getStrand b u.n u.k).st = .run
  if run && !inRange u pc then stopStrand b u.n u.k 0x13
  else if run then refetch b u.n u.k else b

/-- Finish an instruction. -/
def finishUnit (u : MUnit) (r : Took × Block) : Block :=
  match r.1 with
  | .illegal => stopStrand r.2 u.n u.k 0x14
  | .bounds => stopStrand r.2 u.n u.k 0x13
  | .stop c => stopStrand r.2 u.n u.k c
  | .go pc => retire r.2 u pc

/-- Tally index of WAIT and SIGNAL. -/
def unitTally (u : MUnit) : Nat := bits u.w0 22 8

/-- A tally that does not exist: illegal, with the misuse record (R253). [DEDUCED: log 29] -/
def noTally (b : Block) (u : MUnit) : Took × Block :=
  (.illegal, talMisuse b u.n u.k u.s.pc (unitTally u) u.k false none)

/-- A unit that breaks R77 by its own bits; a WAIT or SIGNAL that names no tally leaves its record whatever else makes it
illegal (R253). [DEDUCED: log 29] -/
def illegalUnit (p : Params) (b : Block) (u : MUnit) : Took × Block :=
  if (opcode u.w0 = 0x20 ∨ opcode u.w0 = 0x21) && !talExists p (unitTally u) then noTally b u else (.illegal, b)

/-- The sequencer of station n takes one unit (R79): an illegal unit stops its strand (R77); the unit of another
instruction is not taken by this command. [DESIGN CHOICE: log 1] -/
def runUnit (p : Params) (n op : Nat) (f : Params → Block → MUnit → Took × Block) (b : Block) : Block :=
  if !stnRuns b n then b
  else match seqPick b n with
  | none => b
  | some c =>
    let s := getStrand b n c.strand
    match s.entry, unitAt s s.pc with
    | some e, some (w0, w1) =>
      if opcode w0 ≠ op ∧ (unitMask w0).isSome then b
      else
        let b := modStn b n (fun st => { st with rrSeq := rrPast st.rrSeq c })
        let b := setStrand b n c.strand { s with blocked := .no }
        let u : MUnit := { n := n, k := c.strand, s := s, e := e, w0 := w0, w1 := w1 }
        let r := if unitIllegal w0 w1 then illegalUnit p b u else f p b u
        tick (finishUnit u r) n c.strand
    | _, _ => b

/-- The meaning of an instruction's row. -/
def moverRow (n op : Nat) (f : Params → Block → MUnit → Took × Block) (s : State) : Host.Outcome State Fault Refusal :=
  effect (fun p b => runUnit p n op f b) s

/-! ## Control flow (R87 to R90) -/

/-- NOP. -/
def unitNop (_p : Params) (b : Block) (u : MUnit) : Took × Block := (.go (nextPc u), b)
/-- NOP (R87): Instruction that does nothing when it retires. -/
def execNop (n : Nat) (s : State) : Host.Outcome State Fault Refusal := moverRow n 0x01 unitNop s

/-- HALT: the strand enters DRAIN; its open loops go (R87). -/
def unitHalt (_p : Params) (b : Block) (u : MUnit) : Took × Block :=
  (.go (nextPc u), modStrand b u.n u.k (fun s => { s with st := .drain, loops := [] }))
/-- HALT (R87): Instruction that ends the program and puts the strand into DRAIN; open loops are discarded. -/
def execHalt (n : Nat) (s : State) : Host.Outcome State Fault Refusal := moverRow n 0x02 unitHalt s

/-- Whether a JUMP is taken; none when it tests an unset register. -/
def jumpTaken (u : MUnit) : Option Bool :=
  match bits u.w0 9 8 with
  | 0 => some true
  | 1 => (xReg u (bits u.w0 12 10)).map (fun x => x = 0)
  | _ => (xReg u (bits u.w0 12 10)).map (fun x => x ≠ 0)

/-- JUMP (R88). -/
def unitJump (_p : Params) (b : Block) (u : MUnit) : Took × Block :=
  let off := sgn 32 (bits u.w0 63 32)
  let pop := bits u.w0 19 16
  let tgt : Int := u.s.pc + 16 * off
  match jumpTaken u with
  | none => (.illegal, b)
  | some taken =>
    if off = 0 ∨ u.s.loops.length < pop ∨ 8 < pop then (.illegal, b)
    else if !taken then (.go (nextPc u), b)
    else if !inRange u tgt then (.bounds, b)
    else (.go tgt.toNat, modStrand b u.n u.k (fun s => { s with loops := s.loops.take (s.loops.length - pop) }))
/-- JUMP (R88): Conditional or unconditional jump by a signed unit offset, optionally popping open loops. -/
def execJump (n : Nat) (s : State) : Host.Outcome State Fault Refusal := moverRow n 0x03 unitJump s

/-- Source of a LOOP's count; none when it is an unset register. -/
def loopSource (u : MUnit) : Option Nat :=
  match bits u.w0 9 8 with
  | 0 => some u.w1
  | 1 => some u.s.arg.toNat
  | _ => (xReg u (bits u.w0 12 10)).map (·.toNat)

/-- LOOP (R89). -/
def unitLoop (_p : Params) (b : Block) (u : MUnit) : Took × Block :=
  let body := bits u.w0 47 24
  let endl := u.s.pc + 16 * body
  match loopSource u with
  | none => (.illegal, b)
  | some src =>
    if body = 0 ∨ 8 ≤ u.s.loops.length then (.illegal, b)
    else if !inRange u endl then (.bounds, b)
    else
      let cnt := ceilDiv src (2 ^ bits u.w0 21 16)
      if cnt = 0 then (.go (endl + 16), b)
      else (.go (nextPc u), modStrand b u.n u.k (fun s =>
        { s with loops := s.loops ++ [{ i := 0, count := cnt, body := nextPc u, endl := endl }] }))
/-- LOOP (R89): Captures a count and opens a loop level, or skips the body when the count is 0. -/
def execLoop (n : Nat) (s : State) : Host.Outcome State Fault Refusal := moverRow n 0x04 unitLoop s

/-- ENDL (R90). -/
def unitEndl (_p : Params) (b : Block) (u : MUnit) : Took × Block :=
  match u.s.loops.getLast? with
  | none => (.illegal, b)
  | some l =>
    if l.endl ≠ u.s.pc then (.illegal, b)
    else if l.i + 1 < l.count then
      (if inRange u l.body then .go l.body else .bounds,
        if inRange u l.body then modStrand b u.n u.k (fun s => { s with loops := s.loops.dropLast ++ [{ l with i := l.i + 1 }] })
        else b)
    else (.go (nextPc u), modStrand b u.n u.k (fun s => { s with loops := s.loops.dropLast }))
/-- ENDL (R90): Advances the innermost loop index and branches back, or closes the level. -/
def execEndl (n : Nat) (s : State) : Host.Outcome State Fault Refusal := moverRow n 0x05 unitEndl s

/-! ## Data operations (R91 to R96) -/

/-- A new operation of a strand, as it stands at its retirement (R81). -/
def mkOp (u : MUnit) (id : Nat) (kind : OpKind) (phase : Phase) (desc : Nat) (listVa : Option Nat) : Op :=
  { id := id, kind := kind, phase := phase, pc := u.s.pc, desc := desc, x := u.s.x, w0 := BitVec.ofNat 64 u.w0,
    w1 := BitVec.ofNat 64 u.w1, loops := u.s.loops.map (·.i), listVa := listVa, elem := none, ord := 0, foots := [],
    mv := none, gsrc := none, gdst := none, hazWaited := false, rIss := 0, wIss := 0, got := [], decoded := [], encoded := [], cfaults := [],
    shaped := false, histN := 0, marked := false, stopAfter := false, offRec := false, offside := [], offOpds := [], walked := [] }

/-- Append an operation to the strand; a data operation becomes its last. -/
def addOp (b : Block) (u : MUnit) (kind : OpKind) (phase : Phase) (desc : Nat) (listVa : Option Nat) (bl : Blocked) : Block :=
  let (id, b) := newId b
  let o := mkOp u id kind phase desc listVa
  modStrand b u.n u.k (fun s => { s with ops := s.ops ++ [o], nOps := s.nOps + 1,
                                         lastOp := if isData o then some id else s.lastOp, blocked := bl })

/-- Address of the descriptor that a MOVE names. -/
def descAddr (u : MUnit) : Nat := u.e.va + 16 * bits u.w0 39 16

/-- MOVE and MOVEB name a descriptor: aligned, and inside the range. -/
def takeMove (b : Block) (u : MUnit) (listVa : Option Nat) : Took × Block :=
  let a := descAddr u
  if a % 128 ≠ 0 then (.illegal, b)
  else if !inRange u a || progEnd u.e < a + 128 then (.bounds, b)
  else (.go (nextPc u), addOp b u .move (if listVa.isSome then Phase.list else Phase.desc) a listVa .no)

/-- MOVE (R91). -/
def unitMove (_p : Params) (b : Block) (u : MUnit) : Took × Block := takeMove b u none
/-- MOVE (R91): Data operation named by a descriptor, with ARG and offsets applied to its base addresses; captures extents
at retirement. -/
def execMove (n : Nat) (s : State) : Host.Outcome State Fault Refusal := moverRow n 0x10 unitMove s

/-- Address of the list element that a MOVEB reads. -/
def listVaOf (u : MUnit) : Nat :=
  let w := if bit u.w0 13 then 8 else 4
  let i := ((u.s.loops[bits u.w0 12 10]?).map (·.i)).getD 0
  (u.s.arg.toNat + w * (bits u.w0 63 48 + i)) % 2 ^ 64

/-- MOVEB (R92, R93). -/
def unitMoveb (_p : Params) (b : Block) (u : MUnit) : Took × Block :=
  let isrc := bits u.w0 9 8
  let w := if bit u.w0 13 then 8 else 4
  if isrc ≠ 0 ∧ u.s.loops.length ≤ bits u.w0 12 10 then (.illegal, b)
  else if bit u.w0 14 ∧ isrc ≠ 2 then (.illegal, b)
  else if isrc = 2 ∧ u.s.arg.toNat % w ≠ 0 then (.illegal, b)
  else takeMove b u (if isrc = 2 then some (listVaOf u) else none)
/-- MOVEB (R92): Data operation on a shared descriptor whose offsets derive from an immediate, a loop index or a list
element. -/
def execMoveb (n : Nat) (s : State) : Host.Outcome State Fault Refusal := moverRow n 0x11 unitMoveb s

/-- A scratch region of FILL or COPY that is illegal (R95). -/
def regionBad (p : Params) (u : MUnit) (a : Nat) : Bool :=
  bits u.w0 39 16 = 0 || a % 256 ≠ 0 || decide (p.tileSize.getD u.n 0 < a + 256 * bits u.w0 39 16)

/-- FILL (R95). -/
def unitFill (p : Params) (b : Block) (u : MUnit) : Took × Block :=
  if regionBad p u (bits u.w1 31 0) then (.illegal, b) else (.go (nextPc u), addOp b u .fill .desc u.s.pc none .no)
/-- FILL (R95): Writes a 32-bit pattern into a scratch region through the near port. -/
def execFill (n : Nat) (s : State) : Host.Outcome State Fault Refusal := moverRow n 0x12 unitFill s

/-- COPY (R96). -/
def unitCopy (p : Params) (b : Block) (u : MUnit) : Took × Block :=
  if regionBad p u (bits u.w1 31 0) || regionBad p u (bits u.w1 63 32) then (.illegal, b)
  else (.go (nextPc u), addOp b u .copy .desc u.s.pc none .no)
/-- COPY (R96): Copies a scratch region in ascending 256-byte units. -/
def execCopy (n : Nat) (s : State) : Host.Outcome State Fault Refusal := moverRow n 0x13 unitCopy s

/-- SETX (R94). -/
def unitSetx (_p : Params) (b : Block) (u : MUnit) : Took × Block :=
  let d := bits u.w0 10 8
  let a := (u.s.arg.toNat + u.w1) % 2 ^ 64
  let load := fun (v : Option DWord) => modStrand b u.n u.k (fun s => { s with x := s.x.set d v })
  match bits u.w0 12 11 with
  | 0 => (.go (nextPc u), load (some (BitVec.ofNat 64 (setxVal u.w0 u.w1))))
  | 1 => (.go (nextPc u), load (some (BitVec.ofNat 64 (setxVal u.w0 u.s.arg.toNat))))
  | 2 => if bits u.w0 21 16 ≠ 0 then (.illegal, b) else (.go (nextPc u), load none)
  | _ => if a % 8 ≠ 0 then (.illegal, b) else (.go (nextPc u), addOp b u .setx .desc a none .setx)
/-- SETX (R94): Loads, clears or reads from memory an extent register. -/
def execSetx (n : Nat) (s : State) : Host.Outcome State Fault Refusal := moverRow n 0x14 unitSetx s

/-! ## Tallies, signals, fences (R97 to R101) -/

/-- Threshold of a WAIT. -/
def waitThr (u : MUnit) : Nat :=
  let i := ((u.s.loops[bits u.w0 26 24]?).map (·.i)).getD 0
  if bit u.w0 27 then (bits u.w1 47 0 + bits u.w1 63 48 * i) % 2 ^ 48 else bits u.w1 47 0

/-- WAIT (R97, R98, R255). -/
def unitWait (p : Params) (b : Block) (u : MUnit) : Took × Block :=
  let t := unitTally u
  if !talExists p t then noTally b u
  else if guardForeign u.n true t then (.illegal, b)
  else if bit u.w0 27 ∧ u.s.loops.length ≤ bits u.w0 26 24 then (.illegal, b)
  else if (getTal b t).poison then (.stop 0x15, b)
  else
    let sc := bits u.w0 29 28
    let b := modStrand b u.n u.k (fun s => { s with wait := .armed t (waitThr u) sc, waitTmo := bits u.w0 47 32,
                                                    blocked := .wait })
    (.go (nextPc u), addWaiter b t { kind := .wait, stn := u.n, strand := u.k, thr := waitThr u, scope := scopeOf sc })
/-- WAIT (R97): Registers a waiter on a tally with a threshold and optional timeout, blocking the strand. -/
def execWait (n : Nat) (s : State) : Host.Outcome State Fault Refusal := moverRow n 0x20 unitWait s

/-- SIGNAL (R99, R100). -/
def unitSignal (p : Params) (b : Block) (u : MUnit) : Took × Block :=
  let t := unitTally u
  if !talExists p t then noTally b u
  else if bits u.w0 47 32 = 0 then (.illegal, b)
  else
    (.go (nextPc u), modStrand b u.n u.k (fun s => { s with sigs := s.sigs ++
      [{ tally := t, cond := bits u.w0 25 24, scope := bits u.w0 27 26, amount := bits u.w0 47 32, upTo := b.nextId,
         lastOp := s.lastOp }] }))
/-- SIGNAL (R99): Makes a signal pending that adds an amount to a tally when its condition holds. -/
def execSignal (n : Nat) (s : State) : Host.Outcome State Fault Refusal := moverRow n 0x21 unitSignal s

/-- FENCE (R101). -/
def unitFence (_p : Params) (b : Block) (u : MUnit) : Took × Block :=
  (.go (nextPc u), modStrand b u.n u.k (fun s => { s with blocked := .fence (bits u.w0 9 8) b.nextId }))
/-- FENCE (R101): Blocks the strand until earlier writes have departed or landed, or earlier reads have returned. -/
def execFence (n : Nat) (s : State) : Host.Outcome State Fault Refusal := moverRow n 0x22 unitFence s

/-! ## Codec tables, statistics, advice (R102 to R104) -/

/-- A slot of the station's codec. -/
def codecSlot (st : Station) (i : Nat) : CSlot := st.slots.getD i CSlot.reset

/-- TLOAD (R102). -/
def unitTload (_p : Params) (b : Block) (u : MUnit) : Took × Block :=
  let sl := codecSlot (getStn b u.n) (bits u.w0 9 8)
  let a := bits u.w1 56 0
  if a % 64 ≠ 0 ∨ (sl.valid ∧ sl.gen = bits u.w0 23 16) then (.illegal, b)
  else (.go (nextPc u), addOp b u .tload .desc a none .tload)
/-- TLOAD (R102): Starts loading a decode table into a codec slot with a new generation. -/
def execTload (n : Nat) (s : State) : Host.Outcome State Fault Refusal := moverRow n 0x30 unitTload s

/-- STAT (R103). -/
def unitStat (_p : Params) (b : Block) (u : MUnit) : Took × Block :=
  let a := bits u.w1 56 0
  if a % 64 ≠ 0 ∨ (!bit u.w0 10 ∧ a ≠ 0) then (.illegal, b)
  else (.go (nextPc u), addOp b u .stat .desc a none .stat)
/-- STAT (R103): Closes a statistics interval, optionally advancing history and writing a record. -/
def execStat (n : Nat) (s : State) : Host.Outcome State Fault Refusal := moverRow n 0x31 unitStat s

/-- ADVISE (R104). -/
def unitAdvise (_p : Params) (b : Block) (u : MUnit) : Took × Block :=
  (.go (nextPc u), fcAdvise b (chOwner b u.n u.s.chan) (bits u.w1 56 0) (bits u.w0 63 16) (bits u.w0 10 8) false
    (32 * u.n + u.s.chan) u.k)
/-- ADVISE (R104): Posts one migration or prefetch advice record to the partition's forecast queue. -/
def execAdvise (n : Nat) (s : State) : Host.Outcome State Fault Refusal := moverRow n 0x32 unitAdvise s

end Sys2Proof.Machine
end

