-- ==== Sys2Proof/Machine/Prepare.lean ====
section
/-! DEFINITION. What prepares a data operation: instruction lines and descriptors that arrive (R67, R82, R84, R112), the
start stage (R129 to R133, R212), hazard grants, guards, codec binding and resources, blocks of the codec, TLOAD and STAT. -/
namespace Sys2Proof.Machine

/-! ## Prefetched lines (R67, R82 to R84) -/

/-- An error response or poisoned data on a prefetcher read: the whole station stops with BUS_ERR (R67). -/
def prefetchErr (b : Block) (n pa cause : Nat) : Block :=
  stationStop (memErr b n 0x42 noUnit (stnB n) pa (errInfo 0xFFF 0 0 0 0 1) cause) n 0x20

/-- Enter a line into the descriptor cache as the most recently used, with its user (R84). -/
def dcachePut (l : List DLine) (pa : Nat) (data : Line) (k : Nat) : List DLine :=
  match l.find? (fun d => d.pa = pa) with
  | some d => { d with users := if d.users.contains k then d.users else d.users ++ [k] } :: l.filter (fun x => x.pa ≠ pa)
  | none => { pa := pa, data := data, users := [k] } :: l.take 63

/-- The cached line of a physical address. -/
def dcacheGet (st : Station) (pa : Option Nat) : Option Line :=
  match pa with
  | none => none
  | some a => (st.dcache.find? (fun d => d.pa = a)).map (·.data)

/-- The station no longer takes what returns: it is stopped, or does not run (R67, R420). -/
def stnDiscards (b : Block) (n : Nat) : Bool := (getStn b n).stopCode ≠ 0 || !stnActive b n

/-- A prefetcher read that a soft reset left outstanding has returned: it is discarded and counted (R67, R74). -/
def oldBack (b : Block) (n : Nat) (f : Fetch) : Block :=
  discardRsp (drained (modStn b n (fun st => { st with oldPf := st.oldPf.erase f })) n (drainPf f.k f.va)) n

/-- An instruction line returns (R82). -/
def lineBack (p : Params) (b : Block) (n k va : Nat) (data : Line) (ret : Ret) : Block :=
  let st := getStn b n
  match st.oldPf.find? (fun f => f.k = k && f.va = va) with
  | some f => oldBack b n f
  | none => match st.pfOut.find? (fun f => f.k = k && f.va = va) with
  | none => b
  | some f =>
    let b := drained (setStn b n { st with pfOut := st.pfOut.erase f }) n (drainPf k va)
    if stnDiscards b n then discardRsp b n
    else match retCause p 3 ret with
    | some c => prefetchErr b n f.pa c
    | none =>
      if f.live then modStrand b n k (fun s => { s with lines := s.lines ++ [(va, data)] }) else b

/-- INSTRUCTION_LINE_RETURN (R82): A prefetched 128-byte program line arrives in the strand's instruction buffer. -/
def execInstructionLineReturn (n k line : Nat) (data : Line) (ret : Ret) (s : State) : Host.Outcome State Fault Refusal :=
  effect (fun p b => lineBack p b n k line data ret) s

/-! ## The start stage of a MOVE (R129 to R133, R212) -/

/-- A suppressed operation leaves, and the strand's next start stage begins. -/
def suppress (b : Block) (n k : Nat) (o : Op) : Block := dropOp b n k o.id

/-- An illegal descriptor: misuse records, then the strand stops at the instruction (R130, R131). [DEDUCED: log 24] -/
def descStop (p : Params) (b : Block) (n k : Nat) (o : Op) (d code : Nat) : Block :=
  stopAt (dropOp (guardMisuse p b n k o d) n k o.id) n k o.pc code

/-- VAULT operands and packed sources that may not run: their records (R333, R341). The spec states no detail for them. -/
def vaultChecks (b : Block) (n k : Nat) (o : Op) (m : Mv) (foots : List RFoot) : Block × Bool :=
  let locked := lockChan b n = some (getStrand b n k).chan && foots.any (fun f => f.space = .vault)
  let packed := foots.any (fun f => f.space = .vault && !f.write && !vaultOff b (strandPart b n k) f &&
    (objOfFoot b f).packed) && packedForm m
  let one := fun (b : Block) (kind : Nat) =>
    let (v, b) := draw b
    contentFault b n k kind o (v % 2 ^ 64) (dPolicy m.d)
  let b := if locked then one b 0x11 else b
  let b := if packed then one b 0x10 else b
  (b, locked || packed)

/-- Offside operands that need no walk: one record, and the operands (R266, R294, R325). -/
def offChecks (b : Block) (n k : Nat) (o : Op) (foots : List RFoot) : Block × List Nat :=
  let off := foots.filter (footOff b (strandPart b n k))
  match off with
  | [] => (b, [])
  | f :: _ =>
    let high := footHigh f || decide ((2 ^ 64 : Int) ≤ f.hi)
    (offside b n k o f.lo f.write high, off.map (·.opd))

/-- The CLENs that a PACKED source shows its reader (R332). -/
def packOf (b : Block) (foots : List RFoot) (off : List Nat) : Option (List Nat) :=
  match foots.find? (fun f => f.space = .vault && f.opd = 0 && !off.contains 0) with
  | none => none
  | some f => let x := objOfFoot b f; if x.packed then some (x.headers.map (fun h => hClen h.toNat)) else none

/-- The windows that an operation's operands latch (R294, R315). -/
def winsOf (b : Block) (foots : List RFoot) (off : List Nat) : Tab (Nat × Nat × Nat) :=
  (foots.filter (fun f => f.space = .window && !off.contains f.opd)).foldl (fun t f => tput t f.opd (windowLatch b f)) []

/-- Checks of a MOVE whose descriptor is legal: faults in the order of R212, then its requests. -/
def startChecks (p : Params) (b : Block) (n k : Nat) (o : Op) (m : Mv) : Block :=
  let d := m.d
  let pol := dPolicy d
  let b := modOp b n k o.id (fun x => { x with mv := some m })
  let b := if overDims d m.k o.x ≠ [] then contentFault b n k 0x01 o (overDetail d m.k o.x) pol else b
  if mvEmpty m then
    let b := if dShp d then modStrand b n k (fun s => { s with stats := statEmpty s.stats }) else b
    dropOp b n k o.id
  else
    let foots := mvFoots m
    match foots.find? (scratchBad p n) with
    | some f => suppress (contentFault b n k 0x02 o (scratchDetail f) pol) n k o
    | none =>
      let (b, sup) := vaultChecks b n k o m foots
      if sup then suppress b n k o
      else
        let (b, off) := offChecks b n k o foots
        let gs := if dGsEn d then some (dGsTally d) else none
        let gd := if dGdEn d then some (dGdTally d) else none
        let fs := foots.map footOf
        let (b, sup) := regionChecks b n k o fs gs gd pol
        if sup then suppress b n k o
        else
          let m' := { m with pack := packOf b foots off, wins := winsOf b foots off }
          let tS := gs.map (fun t => (t, guardThr o d (dGsOff d)))
          let tD := gd.map (fun t => (t, guardThr o d (dGdOff d)))
          let b := modOp b n k o.id (fun x => { x with mv := some m', offOpds := off, gsrc := tS, gdst := tD })
          let b := if foots.any (fun f => f.space = .vault && !f.write && !off.contains f.opd) then
              modVault b (fun v => { v with order := v.order ++ [(n, k, o.id)] }) else b
          request b n k o.id fs .haz

/-- The start stage of a MOVE once descriptor and side block are there: illegal descriptors stop the strand (R130), a side
block outside the program range does (R112), and the rest is checked and requested. -/
def startMove (p : Params) (b : Block) (n k : Nat) (o : Op) (e : Entry) (d side : Nat) : Block :=
  let s := getStrand b n k
  let (so, dof, _) := moveOffsets s o
  let sb := wrapInt 64 (dSbase d + so)
  let db := wrapInt 64 (dDbase d + dof)
  let sa : Int := o.desc + 16 * dSideOff d
  if descIllegal p n o d sb db then descStop p b n k o d 0x14
  else if (dShp d || dCodec d ≠ 0) && !(decide ((e.va : Int) ≤ sa) && decide (sa + 128 ≤ progEnd e)) then
    descStop p b n k o d 0x13
  else if sideIllegal d side sb db then descStop p b n k o d 0x14
  else
    let m := mvOf b n s o d side b.fresh
    startChecks p { b with fresh := b.fresh + 1 } n k o m

/-- Address of the side block that a descriptor names; none when it names none, or none inside the program range (R112). -/
def sideAddr (o : Op) (e : Entry) (d : Nat) : Option Nat :=
  let sa : Int := o.desc + 16 * dSideOff d
  if (dShp d || dCodec d ≠ 0) && decide ((e.va : Int) ≤ sa) && decide (sa + 128 ≤ progEnd e) then some sa.toNat else none

/-- Whether a descriptor stops its strand before its side block is looked at (R130). -/
def headIllegal (p : Params) (n : Nat) (s : Strand) (o : Op) (d : Nat) : Bool :=
  let (so, dof, _) := moveOffsets s o
  descIllegal p n o d (wrapInt 64 (dSbase d + so)) (wrapInt 64 (dDbase d + dof))

/-- The start stage looks at the descriptor that the cache holds. A legal one that names a side block the cache does not hold
has it fetched first, as the descriptor was; each is a read of the prefetcher (R83, R84, R112). [DEDUCED: log 123] -/
def descTry (p : Params) (b : Block) (n k : Nat) : Block :=
  let s := getStrand b n k
  match frontOp s, s.entry with
  | some o, some e =>
    if o.kind ≠ .move || o.phase ≠ .desc then b
    else match xlPa e.xl o.desc, dcacheGet (getStn b n) (xlPa e.xl o.desc) with
      | some pa, some c =>
        let use := fun (b : Block) (pa : Nat) (x : Line) => modStn b n (fun st => { st with dcache := dcachePut st.dcache pa x k })
        let d := c.toNat
        match (if headIllegal p n s o d then none else sideAddr o e d) with
        | none => startMove p (use b pa c) n k o e d 0
        | some sa => match xlPa e.xl sa, dcacheGet (getStn b n) (xlPa e.xl sa) with
          | some spa, some c' => startMove p (use (use b pa c) spa c') n k o e d c'.toNat
          | _, _ => blockAsk b n k sa (sa + 2 ^ 61)
      | _, _ => b
  | _, _ => b

/-- A descriptor or side block that the prefetcher fetched returns, and enters the cache (R84, R112); with none outstanding,
the start stage finds both in the cache. -/
def descBack (p : Params) (b : Block) (n k : Nat) (d side : Line) (ret : Ret) : Block :=
  let st := getStn b n
  match st.oldPf.find? (fun f => f.k = k && f.va ≥ 2 ^ 60) with
  | some f => oldBack b n f
  | none => match st.pfOut.find? (fun f => f.k = k && f.va ≥ 2 ^ 60) with
  | some f =>
    let b := drained (setStn b n { st with pfOut := st.pfOut.erase f }) n (drainPf k f.va)
    if stnDiscards b n then discardRsp b n
    else match retCause p 3 ret with
    | some c => prefetchErr b n f.pa c
    | none =>
      if !f.live then b
      else
        let x := if f.va < 2 ^ 61 then d else side
        tick (descTry p (modStn b n (fun st => { st with dcache := dcachePut st.dcache f.pa x k })) n k) n k
  | none => if stnRuns b n then tick (descTry p b n k) n k else b

/-- DESCRIPTOR_ARRIVE (R130): A data operation's descriptor and side block are available and the start stage checks them.
Of the two lines, the one that the oldest outstanding fetch asked for arrives. [DEDUCED: log 123] -/
def execDescriptorArrive (n k : Nat) (d side : Line) (ret : Ret) (s : State) : Host.Outcome State Fault Refusal :=
  effect (fun p b => descBack p b n k d side ret) s

/-! ## Hazard entries (R220 to R223) -/

/-- A held list line is no longer used once an operation takes a write entry that overlaps it: the next element of that
line is read anew, after that write (R93, R105, R224). [DEDUCED: log 22] -/
def dropListLines (b : Block) (n : Nat) (l : List Haz) : Block :=
  forEach (stnStrands b n) b (fun b e =>
    match e.2.listLine with
    | none => b
    | some (va, _) =>
      if l.any (fun h => h.write && h.space = .mem && h.part = strandPart b n e.1 && h.lo ≤ va + 127 && va ≤ h.hi) then
        modStrand b n e.1 (fun s => { s with listLine := none })
      else b)

/-- The element of a list MOVEB from the strand's held line, when it holds it and nothing conflicts (R93). -/
def takeHeld (b : Block) (n k : Nat) (o : Op) : Block :=
  match o.listVa, (getStrand b n k).listLine with
  | some a, some (va, data) =>
    if va = a / 128 * 128 ∧ !opConflict (getStn b n) k o ∧ !opReading (getStn b n) k o.id then listDone b n k o a data else b
  | _, _ => b

/-- The operation of a strand that has requested entries and not been granted them. -/
def hazWaiter (b : Block) (n k : Nat) : Option Op :=
  (getStrand b n k).ops.find? (fun o => hazWaits (getStn b n) k o)

/-- Grant an operation its entries; it goes on, or waits on a conflict, which counts once for a start stage (R222). -/
def grantHaz (b : Block) (n k : Nat) (o : Op) : Block :=
  let l := hazOf b n k o
  let b := modStn b n (fun st => { st with haz := st.haz ++ l })
  let b := dropListLines b n l
  let conf := opConflict (getStn b n) k o
  let b := if conf && !o.hazWaited then
      countCh (rcount (modOp b n k o.id (fun x => { x with hazWaited := true })) (ordB n + 0x4C) 1) n (getStrand b n k).chan 0x0F 1
    else b
  if o.phase = .list then takeHeld b n k o
  else if conf then modOp b n k o.id (fun x => { x with phase := .conflict })
  else afterConflict b n k o

/-- A strand's next grant: the operation that waits for entries, when its turn has come and enough are free. -/
def hazNext (b : Block) (n k : Nat) : Option Op :=
  (hazWaiter b n k).filter (fun o => hazTurn b n k o && decide (hazUsed (getStn b n) + o.foots.length ≤ 64))

/-- An operation's conflict waits end, or its entries are granted. A fence of the ORD page stops both (R28). -/
def hazStep (b : Block) (n k : Nat) : Block :=
  let st := getStn b n
  let s := getStrand b n k
  if pageFence b (ordB n) then b
  else match s.ops.find? (fun o => o.phase = .conflict && !opConflict st k o) with
  | some o => afterConflict b n k o
  | none => match hazNext b n k with
    | some o => grantHaz b n k o
    | none => match s.ops.find? (fun o => o.phase = .list && o.foots ≠ [] && o.elem.isNone) with
      | some o => takeHeld b n k o
      | none => b

/-- HAZARD_GRANT (R222): An operation's hazard entries are granted and its conflict waits end. -/
def execHazardGrant (n k : Nat) (s : State) : Host.Outcome State Fault Refusal :=
  effect (fun _ b => if stnRuns b n then tick (hazStep (tick b n k) n k) n k else b) s

/-! ## Guards (R207) -/

def waitOver : WaitSt → Bool
  | .none => true
  | .done => true
  | _ => false

/-- Both guard waits are over. -/
def guardsOver (s : Strand) : Bool := waitOver s.guardS && waitOver s.guardD

/-- The operation of a strand that waits on guards. -/
def guardOp (s : Strand) : Option Op := s.ops.find? (fun o => o.phase = .guard)

/-- GUARD_SATISFIED (R207): The source and destination guard waits of a data operation are both satisfied. -/
def execGuardSatisfied (n k : Nat) (s : State) : Host.Outcome State Fault Refusal :=
  effect (fun _ b => match guardOp (getStrand b n k) with
    | some o => if stnRuns b n && guardsOver (getStrand b n k) then tick (afterGuards b n k o) n k else b
    | none => b) s

/-- A guard wait has expired: the operation leaves and the strand stops (R207). [DEDUCED: log 3] [DEDUCED: log 26] -/
def guardExpire (b : Block) (n k : Nat) (o : Op) : Block :=
  let b := dropWaiters b n k
  let b := modStrand b n k (fun s => { s with guardS := .none, guardD := .none })
  stopAt (dropOp b n k o.id) n k o.pc 0x15

/-- GUARD_TIMEOUT (R207): A guard wait expires after GUARD_TMO and the strand stops with STRAND_STOP. A guard whose
threshold has been met and whose acquire is still settling does not expire (R233, R242). [DEDUCED: log 26] -/
def execGuardTimeout (n k : Nat) (s : State) : Host.Outcome State Fault Refusal :=
  effect (fun _ b => match guardOp (getStrand b n k) with
    | some o =>
      let s := getStrand b n k
      if rbits b (nearB n + 0x50) 15 0 ≠ 0 && (waitArmed s.guardS || waitArmed s.guardD) && !stnFenced b n && !isDead b
      then tick (guardExpire b n k o) n k
      else b
    | none => b) s

/-! ## Codec binding and shared resources (R161, R178, R192) -/

/-- What a MOVE records of a slot as it binds. -/
def bindSlot (st : Station) (i : Nat) : Bound :=
  let c := codecSlot st i
  { slot := i, valid := c.valid, gen := c.gen, table := c.table, esc := c.esc }

/-- Slots that a decode MOVE names. -/
def bindSlots (o : Op) : List Nat :=
  match o.mv with
  | some m => setBits 4 (cTmask m.side)
  | none => []

/-- Ready to bind (R178): the guard waits are over and its first burst is next. -/
def bindReady (b : Block) (n k : Nat) (o : Op) : Bool := o.kind = .move && o.phase = .bind && burstNext b n k o

/-- Bind the codec slots, unless one is LOADING. -/
def codecBind (b : Block) (n k : Nat) : Block :=
  let st := getStn b n
  match (getStrand b n k).ops.find? (fun o => bindReady b n k o) with
  | none => b
  | some o =>
    if (bindSlots o).any (fun i => (codecSlot st i).loading) then b
    else modOp b n k o.id (fun x => { x with phase := .res,
                                             mv := x.mv.map (fun m => { m with bound := (bindSlots o).map (bindSlot st) }) })

/-- CODEC_BIND (R178): A decode MOVE binds the codec slots that TMASK names once none is LOADING. -/
def execCodecBind (n k : Nat) (s : State) : Host.Outcome State Fault Refusal :=
  effect (fun _ b => if stnRuns b n then tick (codecBind b n k) n k else b) s

/-- Shared resources that a MOVE needs are free. -/
def resFree (st : Station) (m : Mv) : Bool :=
  (!dShp m.d || (st.ctx.length < 8 && (sMode m.side ≠ 2 || st.rowBuf.isNone) && (!sSmen m.side || st.smooth.isNone) &&
    (!sCsen m.side || st.colAcc.isNone))) &&
  (!mvDec m || st.decCtx.length < 8) && (!mvEnc m || st.encCtx.length < 2)

/-- Give a MOVE the resources it needs. -/
def giveRes (st : Station) (k id : Nat) (m : Mv) : Station :=
  let x := (k, id)
  let st := { st with resQ := st.resQ.erase x }
  let st := if dShp m.d then { st with ctx := st.ctx ++ [x],
                                       rowBuf := if sMode m.side = 2 then some x else st.rowBuf,
                                       smooth := if sSmen m.side then some x else st.smooth,
                                       colAcc := if sCsen m.side then some x else st.colAcc } else st
  let st := if mvDec m then { st with decCtx := st.decCtx ++ [x] } else st
  if mvEnc m then { st with encCtx := st.encCtx ++ [x] } else st

/-- The oldest request of the station is granted when it is strand k's and what it needs is free. One whose first burst is no
longer next, its near port or a page having been stopped, gives up its place and requests again later (R201).
[DEDUCED: log 133] -/
def resGrant (b : Block) (n k : Nat) : Block :=
  let st := getStn b n
  match st.resQ with
  | [] => b
  | (k', id) :: _ => match findOp b n k id with
    | none => b
    | some o => match o.mv with
      | none => b
      | some m =>
        if k' ≠ k then b
        else if !burstNext b n k o then modStn b n (fun st => { st with resQ := st.resQ.erase (k, id) })
        else if resFree st m then beginIssue (setStn b n (giveRes st k id m)) n k id
        else b

/-- RESOURCE_GRANT (R161): Shaper and codec contexts and single resources are granted in start-stage order. -/
def execResourceGrant (n k : Nat) (s : State) : Host.Outcome State Fault Refusal :=
  effect (fun _ b => if stnRuns b n then tick (resGrant (tick b n k) n k) n k else b) s

/-! ## Blocks of the codec (R184, R186, R190) -/

/-- Every byte of a list of bursts has arrived. -/
def burstsHere (o : Op) (l : List Burst) : Bool :=
  l.all (fun br => (setBits (lineBytes br.space) br.mask).all (fun i => (gotByte o.got br.opd (burstVa br + i)).isSome))

/-- Payload of a block. -/
def blockPay (m : Mv) (o : Op) (a h : Nat) : Payload := fun i =>
  if i < hClen h then gotByte o.got 6 (wrapInt 64 (payAddr m a + i)) else none

/-- Base of a delta block's line: its elements after the source swap, and whether it arrived poisoned (R121, R172). -/
def blockBaseLine (m : Mv) (o : Op) (a l : Nat) : List Nat × Bool :=
  let w := cW m
  let byte := fun (i : Nat) => (gotByte o.got 0 (a + 128 * l + i)).getD (0, false)
  let x := (List.range 128).foldl (fun acc i => acc + (byte i).1 * 256 ^ i) 0
  ((List.range (1024 / w)).map (fun i => srcSwap m.d w (bits x (w * i + w - 1) (w * i))), (List.range 128).any (fun i => (byte i).2))

/-- Content faults of a decoded block as the MOVE records them. -/
def blockFaults (m : Mv) (a : Nat) (hq : Bool) (r : Decoded) : List CFault :=
  let pl := wrapInt 64 (payAddr m a)
  let l := r.faults.map (fun f => ({ kind := f.1, place := pl, detail := 0, line := f.2 } : CFault))
  if !hq && beyondLines m a r.elems.length then
    l ++ [{ kind := 0x06, place := pl, detail := 1, line := beyondLine m a r.elems.length }]
  else l

/-- The next block of a decode MOVE, when what it needs has arrived. -/
def nextDecode (o : Op) : Option (Mv × Nat × Nat × Bool) :=
  match o.mv with
  | none => none
  | some m =>
    if !mvDec m then none
    else match (decPlaces m).find? (fun a => (tget o.decoded (a / 4096)).isNone) with
      | none => none
      | some a => match hdrGot m o a with
        | none => none
        | some (h, q) => if q || burstsHere o (blockBursts m a h) then some (m, a, h, q) else none

/-- The codec decodes one block. [DEDUCED: log 31] -/
def decodeOne (b : Block) (n k : Nat) : Block :=
  match (getStrand b n k).ops.findSome? (fun o =>
      if (o.phase = .issue ∨ o.phase = .issued) ∧ !opHeld b n k o then (nextDecode o).map (fun x => (o, x)) else none) with
  | none => b
  | some (o, m, a, h, q) =>
    let r := decodeBlock m h q (blockPay m o a h) (blockBaseLine m o a)
    let c := (getStrand b n k).chan
    let rd := if !q && blockRead m h then hClen h else 0
    let out := if !q && !blockBad (cW m) (mvDelta m) h && !blockStale m h then 128 * hOlines h else 0
    let b := countCh (countCh (countCh b n c 0x14 1) n c 0x15 rd) n c 0x16 out
    tick (modOp b n k o.id (fun x => { x with decoded := tput x.decoded (a / 4096) r.elems,
                                              cfaults := x.cfaults ++ blockFaults m a q r })) n k

/-- BLOCK_DECODE (R186): The codec decodes one compressed block once its header and payload have arrived. -/
def execBlockDecode (n k : Nat) (s : State) : Host.Outcome State Fault Refusal :=
  effect (fun _ b => if stnRuns b n then decodeOne (tick b n k) n k else b) s

/-- The elements of an encode MOVE's next block, when the last has arrived. -/
def nextEncode (o : Op) : Option (Mv × EncSpec × List (Nat × Bool)) :=
  match o.mv with
  | none => none
  | some m =>
    if !mvEnc m then none
    else match (encSpecs m)[o.encoded.length]? with
      | none => none
      | some e =>
        let l := (List.range (1024 * e.lines / mvWd m)).map (fun i => posVal m o ((e.first + i) :: e.row))
        if l.any (·.isNone) then none else some (m, e, l.filterMap id)

/-- The encoder chooses a block's kind and forms it. [DEDUCED: log 31] -/
def encodeOne (b : Block) (n k : Nat) : Block :=
  match (getStrand b n k).ops.findSome? (fun o =>
      if o.phase = .issue ∧ !opHeld b n k o then (nextEncode o).map (fun x => (o, x)) else none) with
  | none => b
  | some (o, m, e, l) =>
    let blk := encodeBlock (mvWd m) (cEmode m.side) e.place e.lines l
    let b := countCh b n (getStrand b n k).chan 0x16 blk.payload.length
    tick (modOp b n k o.id (fun x => { x with encoded := x.encoded ++ [blk] })) n k

/-- BLOCK_ENCODE (R190): Once a block's last element has arrived, the encoder chooses its kind and writes payload and
header. -/
def execBlockEncode (n k : Nat) (s : State) : Host.Outcome State Fault Refusal :=
  effect (fun _ b => if stnRuns b n then encodeOne (tick b n k) n k else b) s

/-! ## TLOAD (R179) -/

/-- A MOVE holds a binding until its last block has left the decoder. -/
def holdsBinding (o : Op) : Bool :=
  match o.mv with
  | some m => m.bound ≠ [] && decide (o.decoded.length < (decPlaces m).length)
  | none => false

/-- Slot that a TLOAD loads. -/
def tloadSlot (o : Op) : Nat := bits o.w0.toNat 9 8

/-- Every data operation retired before a TLOAD has bound or completed without binding (step 2). -/
def earlierBound (s : Strand) (o : Op) : Bool :=
  (s.ops.takeWhile (fun x => x.id ≠ o.id)).all (fun x => !isData x || decide (x.phase = Phase.issued) ||
    (match x.mv with
     | some m => m.bound ≠ []
     | none => false))

/-- MOVEs that hold a binding of a slot's current VALID generation (step 4). -/
def slotBound (b : Block) (n i : Nat) : Nat :=
  let c := codecSlot (getStn b n) i
  (((stnStrands b n).flatMap (fun e => e.2.ops)).filter (fun o => c.valid && holdsBinding o && (match o.mv with
    | some m => m.bound.any (fun x => x.slot = i && x.valid && x.gen = c.gen)
    | none => false))).length

/-- MOVEs held back by an earlier load of a slot, which bind before a further TLOAD marks it (step 6). -/
def bindersHeld (b : Block) (n i : Nat) : Bool :=
  (stnStrands b n).any (fun e => e.2.ops.any (fun o => bindReady b n e.1 o && (bindSlots o).contains i))

/-- A TLOAD goes as far through steps 2 to 4 as it can. [DEDUCED: log 25] -/
def tloadMark (b : Block) (n k : Nat) : Block :=
  let s := getStrand b n k
  match s.ops.find? (fun o => o.kind = .tload && o.phase = .bind) with
  | none => b
  | some o =>
    if !earlierBound s o || opHeld b n k o then b
    else
      let i := tloadSlot o
      let b := modStn b n (fun st => if st.tloads.any (fun e => e.2 = (k, o.id)) then st
        else { st with tloads := st.tloads ++ [(i, k, o.id)] })
      let st := getStn b n
      let mine := st.tloads.find? (fun e => e.1 = i) = some (i, k, o.id)
      let sl := codecSlot st i
      let b := if mine && !sl.loading && !bindersHeld b n i then
          modOp (modStn b n (fun st => { st with slots := st.slots.set i { sl with loading := true } })) n k o.id
            (fun x => { x with marked := true }) else b
      if mine && ((findOp b n k o.id).map (·.marked)).getD false && slotBound b n i = 0 then
        modOp b n k o.id (fun x => { x with phase := .issue })
      else b

/-- TLOAD_MARK_LOADING (R179): After earlier binders and earlier TLOADs, a TLOAD marks its slot LOADING. -/
def execTloadMarkLoading (n k : Nat) (s : State) : Host.Outcome State Fault Refusal :=
  effect (fun _ b => if stnRuns b n then tick (tloadMark b n k) n k else b) s

/-- The whole table of a TLOAD has arrived. -/
def tableHere (st : Station) (k : Nat) (o : Op) : Bool := o.phase = .issue && readsOver st k o

/-- The slot is built from the table, or left INVALID (R176, R179 step 5). [DEDUCED: log 25] -/
def tloadBuild (b : Block) (n k : Nat) : Block :=
  match (getStrand b n k).ops.find? (fun o => o.kind = .tload && tableHere (getStn b n) k o && !opHeld b n k o) with
  | none => b
  | some o =>
    let i := tloadSlot o
    match gotNum o.got 9 o.desc 8, gotNum o.got 9 (o.desc + 8) 8 with
    | some (t0, _), some (t1, _) =>
      let byte := fun (j : Nat) => ((gotByte o.got 9 (o.desc + j)).map (·.1)).getD 0
      let ok := tabValid t0 t1 byte
      let fin := fun (b : Block) => modStn b n (fun st => { st with tloads := st.tloads.filter (fun e => e.2 ≠ (k, o.id)) })
      if ok then
        let sl : CSlot := { valid := true, loading := false, gen := bits o.w0.toNat 23 16, table := tabSyms t0 byte,
                            esc := tabEsc t0 }
        let b := fin (modStn b n (fun st => { st with slots := st.slots.set i sl }))
        let b := modStrand b n k (fun s => { s with blocked := if s.blocked = .tload then .no else s.blocked })
        relHaz (opRemove b n k o.id) n
      else
        let b := fin (modStn b n (fun st => { st with slots := st.slots.set i CSlot.reset }))
        let b := contentFault b n k 0x09 o (o.desc / 4096 % 2 ^ 45 + 3 * 2 ^ 45) true
        dropOp b n k o.id
    | _, _ => b

/-- TLOAD_TABLE_BUILT (R179): The table has been read and checked and the slot becomes VALID with GEN or INVALID. -/
def execTloadTableBuilt (n k : Nat) (s : State) : Host.Outcome State Fault Refusal :=
  effect (fun _ b => if stnRuns b n then tick (tloadBuild b n k) n k else b) s

/-! ## STAT (R103, R158 to R160) -/

/-- The shaper work of an operation is complete. -/
def shaperOver (o : Op) : Bool :=
  o.kind ≠ .move || (match o.mv with
    | some m => !dShp m.d || o.shaped
    | none => false)

/-- The number whose 64-bit words a list gives. -/
def wordsNum (l : List Nat) : Nat := (l.zipIdx).foldl (fun acc e => acc + e.1 % 2 ^ 64 * 2 ^ (64 * e.2)) 0

/-- STAT takes its record. -/
def statTake (b : Block) (n k : Nat) : Block :=
  let s := getStrand b n k
  match s.ops.find? (fun o => o.kind = .stat && o.phase = .res) with
  | none => b
  | some o =>
    if !(s.ops.takeWhile (fun x => x.id ≠ o.id)).all shaperOver || opHeld b n k o then b
    else
      let w0 := o.w0.toNat
      let h := bits w0 21 16
      let r := wordsNum (statRecord s.stats k (bit w0 9) h s.seq)
      let b := if bit w0 8 then modStrand b n k (fun s => { s with stats := Stats.reset }) else b
      let b := if bit w0 9 then modStn b n (fun st => { st with hist := tmod st.hist h Hist.reset histPush }) else b
      if bit w0 10 then modOp b n k o.id (fun x => { x with elem := some r, phase := .issue })
      else
        opRemove (modStrand b n k (fun s => { s with blocked := if s.blocked = .stat then .no else s.blocked })) n k o.id

/-- STAT_RECORD (R103): Once earlier shaper work is complete, STAT takes its record, writes it, and optionally resets
statistics and pushes history. -/
def execStatRecord (n k : Nat) (s : State) : Host.Outcome State Fault Refusal :=
  effect (fun _ b => if stnRuns b n then tick (statTake b n k) n k else b) s

end Sys2Proof.Machine
end

