-- ==== Sys2Proof/Machine/Near.lean ====
section
/-! DEFINITION. The near port (R195 to R205, R430): slots, the staging buffer, read data and write acknowledgements. -/
namespace Sys2Proof.Machine

/-! ## Slot configuration (R195, R196) -/

def nearOwn (b : Block) (n : Nat) : Nat := rbits b (nearB n + 0x40) 7 0
def nearWrs (b : Block) (n : Nat) : Nat := rbits b (nearB n + 0x40) 15 8
def nearLock (b : Block) (n : Nat) : Nat := rbits b (nearB n + 0x40) 23 16

/-- The near port uses slots: its page is enabled and the station runs (R201, R205). -/
def nearRuns (b : Block) (n : Nat) : Bool := pageEnable b (nearB n) && !pageFence b (nearB n) && stnRuns b n

/-- A frame begins: the next slot is slot 0. A mark out of its place is a trip of the aclk monitor (R440). -/
def execFrameSync (n : Nat) (onTime : Bool) (s : State) : Host.Outcome State Fault Refusal :=
  effect (fun _ b => let b := modStn b n (fun st => { st with slot := 0 }); if onTime then b else senseEv b 0x54) s

/-! ## Lines that wait for a slot (R197, R202, R213) -/

/-- Bursts of an operation may start: its walks have returned and none holds the operand. -/
def opMoves (b : Block) (n k : Nat) (s : Strand) (o : Op) (opd : Nat) : Bool :=
  !opHeld b n k o && mayIssue s o && startWalked s o && !walkHolds b n k o.id opd

/-- A strand's next scratch write: operation, line, data and poison by byte. -/
def nearWriteOf (b : Block) (n k : Nat) (s : Strand) : Option (Op × Burst × Nat × Nat) :=
  s.ops.findSome? (fun o => match (writePlan o).1[o.wIss]? with
    | some br => if br.space = .scratch && opMoves b n k s o br.opd then (lineData o br).map (fun d => (o, br, d.1, d.2)) else none
    | none => none)

/-- A COPY unit whose source line is the destination line of an earlier unit waits until that write has landed (R213). -/
def copyWaits (st : Station) (k : Nat) (o : Op) (i : Nat) : Bool :=
  let s := copySrc o / 256 + i
  let d := copyDst o / 256
  o.kind = .copy && d ≤ s && decide (s - d < i) &&
    (decide (o.wIss ≤ s - d) || st.staged.any (fun x => x.strand = k && x.op = o.id && x.line = s) ||
      st.nearWr.any (fun x => x.strand = k && x.op = o.id && x.line = s))

/-- A strand's next scratch read. -/
def nearReadOf (b : Block) (n k : Nat) (s : Strand) : Option (Op × Burst) :=
  s.ops.findSome? (fun o => match (readPlan o).1[o.rIss]? with
    | some br =>
      if br.space = .scratch && opMoves b n k s o br.opd && lockRoom b n k o && turnRoom (getStn b n) k o && !copyWaits (getStn b n) k o o.rIss then
        some (o, br) else none
    | none => none)

/-- A near-port line that carries a write: poisoned rows are driven as 0 (R429). -/
def nearWrLine (k : Nat) (s : Strand) (o : Op) (br : Burst) (data pois wid : Nat) : NearLine :=
  let rows := poisonWords 256 pois
  { strand := k, op := o.id, chan := s.chan, write := true, line := br.line, mask := br.mask,
    data := BitVec.ofNat 2048 (driveLine 256 data rows), poison := rows, opd := br.opd, wid := wid, link := none }

/-- A near-port line that carries a read. -/
def nearRdLine (k : Nat) (s : Strand) (o : Op) (br : Burst) : NearLine :=
  { strand := k, op := o.id, chan := s.chan, write := false, line := br.line, mask := br.mask, data := 0, poison := 0,
    opd := br.opd, wid := 0, link := none }

/-- The line of an inbound link access of SCRATCH (R296): 128 bytes of a scratch line. -/
def nearLinkLine (e : LinkAcc) (wid : Nat) : NearLine :=
  let k := e.pkt
  let a := linkAddr k e.win
  let sh := a % 256
  { strand := 256, op := 0, chan := 32, write := pktType k = 0, line := a / 256, mask := pktMask k * 2 ^ sh % 2 ^ 256,
    data := BitVec.ofNat 2048 (k.data.toNat * 256 ^ sh), poison := pktPoison k * 2 ^ (sh / 64), opd := 0, wid := wid,
    link := some e }

/-! ## Slots (R195, R197, R204) -/

/-- The marks of a line whose rows the corrector of a station buffer found beyond correction: those rows are driven as 0
and poisoned (R198, R429). -/
def markRows (l : NearLine) (rows : Nat) : NearLine :=
  { l with poison := l.poison ||| rows, data := BitVec.ofNat 2048 (driveLine 256 l.data.toNat rows) }

/-- A write departs in its slot (R199). Each row of it has passed the corrector of the buffers that held it (R198). -/
def nearDepart (b : Block) (n : Nat) (l : NearLine) (corrected rows : Nat) : Block :=
  let rows := rows &&& poisonWords 256 l.mask
  let (wid, b) := newId b
  let b := modStn b n (fun st => { st with nearWr := st.nearWr ++ [{ markRows l rows with wid := wid }] })
  let b := nearCorrected b n corrected
  let b := if l.chan = 32 then count b (.station n) 0x08 1 none else countCh b n l.chan 0x08 1
  if rows = 0 ∨ l.link.isSome then b else bufferFault b n l.strand l.op (256 * l.line)

/-- A free write slot (R197). -/
def freeWrite (b : Block) (n corrected rows : Nat) : Block :=
  let st := getStn b n
  let ready := (stnStrands b n).filterMap (fun e =>
    if lockChan b n = some e.2.chan then none else (nearWriteOf b n e.1 e.2).map (fun x => (e.1, e.2, x)))
  let go := ready.filter (fun e => hasToken b n e.2.1.chan true)
  let link := linkNext st true true
  let cands := go.map (fun e => strandCand b n e.1 e.2.1) ++ (if link.isSome then [linkCand b] else [])
  match selectOne b n true st.rrNearW cands with
  | none => b
  | some (c, aged) =>
    let b := ageAll b n true cands (some c.strand)
    let b := if aged then countAged b n c.strand else b
    let b := modStn b n (fun st => { st with rrNearW := rrPast st.rrNearW c })
    if c.strand = 256 then
      match link with
      | some e => nearDepart (modStn (poolFree b e.src e.pools) n (fun st => { st with inQ := st.inQ.erase e })) n
          (nearLinkLine e 0) corrected rows
      | none => b
    else match go.find? (fun e => e.1 = c.strand) with
      | none => b
      | some (k, s, o, br, data, pois) =>
        let b := takeToken (modOp b n k o.id (fun x => { x with wIss := x.wIss + 1 })) n s.chan true
        tick (nearDepart b n (nearWrLine k s o br data pois 0) corrected rows) n k

/-- A free read slot (R197). -/
def freeRead (b : Block) (n : Nat) : Block :=
  let st := getStn b n
  let ready := (stnStrands b n).filterMap (fun e => (nearReadOf b n e.1 e.2).map (fun x => (e.1, e.2, x)))
  let go := ready.filter (fun e => hasToken b n e.2.1.chan false)
  let link := (linkNext st false true).filter (linkClear b n)
  let cands := go.map (fun e => strandCand b n e.1 e.2.1) ++ (if link.isSome then [linkCand b] else [])
  match selectOne b n false st.rrNearR cands with
  | none => b
  | some (c, aged) =>
    let b := ageAll b n false cands (some c.strand)
    let b := if aged then countAged b n c.strand else b
    let b := modStn b n (fun st => { st with rrNearR := rrPast st.rrNearR c })
    if c.strand = 256 then
      match link with
      | some e =>
        let b := modStn (poolFree b e.src e.pools) n (fun st => { st with inQ := st.inQ.erase e, nearRd := st.nearRd ++ [nearLinkLine e 0] })
        count b (.station n) 0x09 1 none
      | none => b
    else match go.find? (fun e => e.1 = c.strand) with
      | none => b
      | some (k, s, o, br) =>
        let b := takeToken (modOp b n k o.id (fun x => { x with rIss := x.rIss + 1 })) n s.chan false
        let b := modStn b n (fun st => { st with nearRd := st.nearRd ++ [nearRdLine k s o br] })
        countCh b n s.chan 0x09 1

/-- The locked stream holds an undelivered line: a staged one, or one that has been issued. -/
def streamLive (b : Block) (n : Nat) : Bool :=
  !(getStn b n).lockOff && ((getStn b n).staged ≠ [] || (stnStrands b n).any (fun e => lockChan b n = some e.2.chan &&
    e.2.ops.any (fun o => o.phase = .issue && decide (0 < streamAhead o))))

/-- A locked slot carries the oldest staged line; it is late while the stream holds an undelivered line that is not
staged (R204). -/
def lockedSlot (b : Block) (n corrected rows : Nat) : Block :=
  match (getStn b n).staged with
  | l :: t =>
    let b := nearDepart (modStn b n (fun st => { st with staged := t })) n l corrected rows
    if l.strand < 256 then tick b n l.strand else b
  | [] => if streamLive b n then count (rcount b (nearB n + 0x58) 1) (.station n) 0x0A 1 none else b

/-- One slot of the frame. -/
def nearSlotStep (b : Block) (n corrected rows : Nat) : Block :=
  let k := (getStn b n).slot
  let b := modStn b n (fun st => { st with slot := (k + 1) % 8 })
  if !nearRuns b n || !bit (nearOwn b n) k then b
  else
    let b := tickStn b n
    if bit (nearLock b n) k then (if (lockChan b n).isSome then lockedSlot b n corrected rows else b)
    else if bit (nearWrs b n) k then freeWrite b n corrected rows
    else freeRead b n

/-- NEAR_SLOT (R197): An owned near-port slot carries one scratch line write or read, or passes unused. `corrected` and
`beyond` are what the corrector of the station's buffers finds in the rows of the line that a write carries (R198, R214). -/
def execNearSlot (n corrected : Nat) (beyond : BitVec 4) (s : State) : Host.Outcome State Fault Refusal :=
  effect (fun _ b => nearSlotStep b n corrected beyond.toNat) s

/-- The locked channel's next line enters the staging buffer (R203), within the window of the stream. While locked mode is
off, the lines of a stopped strand are discarded and those of another one wait (R205). [DEDUCED: log 135] -/
def stageLine (b : Block) (n : Nat) : Block :=
  match (stnStrands b n).findSome? (fun e =>
      if lockChan b n = some e.2.chan then (nearWriteOf b n e.1 e.2).map (fun x => (e.1, e.2, x)) else none) with
  | none => b
  | some (k, s, o, br, data, pois) =>
    let b' := modOp b n k o.id (fun x => { x with wIss := x.wIss + 1 })
    if (getStn b n).lockOff then (if s.st = .stopped then tick b' n k else b)
    else if lockWindow b n ≤ (getStn b n).staged.length then b
    else
      let b := b'
      tick (modStn b n (fun st => { st with staged := st.staged ++ [nearWrLine k s o br data pois 0] })) n k

/-- LINE_STAGED (R203): A locked stream line enters the staging buffer. -/
def execLineStaged (n : Nat) (s : State) : Host.Outcome State Fault Refusal :=
  effect (fun _ b => if nearRuns b n then stageLine (tickStn b n) n else b) s

/-! ## Answers of the tile (R198, R199, R430) -/

/-- Cause of a scratch read's access fault: marks of the rows that the read asks for. -/
def nearCause (rows : Nat) (ret : Ret) (rerr : Bool) : Option Nat :=
  if rerr then some 0 else if ret.poison.toNat &&& rows ≠ 0 then some 1
  else if ret.beyond.toNat &&& rows ≠ 0 then some 2 else none

/-- Scratch read data returns: the oldest read outstanding. -/
def nearReadBack (b : Block) (n : Nat) (data : SLine) (ret : Ret) (corrected : Nat) (rerr : Bool) : Block :=
  let st := getStn b n
  match st.nearRd with
  | [] => b
  | l :: t =>
    let b := setStn b n { st with nearRd := t }
    let b := nearCorrected b n corrected
    let bad := fun (i : Nat) => rerr || ret.poison.toNat.testBit (i / 64) || ret.beyond.toNat.testBit (i / 64)
    match l.link with
    | some ⟨port, k, w, _, _⟩ =>
      let sh := linkAddr k w % 256
      let words := maskOf ((List.range 2).filter (fun x => bad (sh + 64 * x) && (poisonWords 128 (pktMask k)).testBit x))
      let d := (setBits 128 (pktMask k)).foldl (fun acc i =>
        if bad (sh + i) then acc else acc + byteAt data.toNat (sh + i) * 256 ^ i) 0
      linkReadDone b port k (!rerr) d words (linkAddr k w) 0
    | none =>
      if stnDiscards b n then b
      else opReadBack b n l.strand l.op l.opd .scratch (256 * l.line) l.mask data.toNat bad
        ((nearCause (poisonWords 256 l.mask) ret rerr).map (fun c => (256 * l.line, c, false)))

/-- NEAR_READ_DATA (R198): Scratch read data returns RD_LAT aclk after its slot and passes the corrector. -/
def execNearReadData (n : Nat) (data : SLine) (ret : Ret) (corrected : Nat) (rerr : Bool) (s : State) :
    Host.Outcome State Fault Refusal := effect (fun _ b => nearReadBack b n data ret corrected rerr) s

/-- The oldest scratch write is answered: it has landed, or failed with a cause. -/
def nearWrDone (p : Params) (b : Block) (n : Nat) (fail : Option Nat) : Block :=
  let st := getStn b n
  match st.nearWr with
  | [] => b
  | l :: t =>
    let b := setStn b n { st with nearWr := t }
    match l.link with
    | some ⟨port, k, w, _, _⟩ => relHaz (linkWriteDone p b port k w fail.isNone (linkAddr k w) (fail.getD 0)) n
    | none =>
      let b := match fail with
        | none => b
        | some c => opWriteFail b n l.strand l.op (256 * l.line) c false
      tick b n l.strand

/-- NEAR_WRITE_ACK (R199): The tile acknowledges a scratch write, which then lands. -/
def execNearWriteAck (n : Nat) (werr : Bool) (s : State) : Host.Outcome State Fault Refusal :=
  effect (fun p b => nearWrDone p b n (if werr then some 0 else none)) s

/-- A write whose acknowledgement has not come in its cycle has failed. -/
def execNearAckMissing (n : Nat) (s : State) : Host.Outcome State Fault Refusal :=
  effect (fun p b => nearWrDone p b n (some 3)) s

end Sys2Proof.Machine
end

