-- ==== Sys2Proof/Machine/Channel.lean ====
section
/-! DEFINITION. Channels' commands: entry reads that return (R50, R66), dispatch (R52, R53), completion (R59, R60), status
writes, interrupt messages (R433), and the timeouts and signals of strands (R98 to R100). -/
namespace Sys2Proof.Machine

/-! ## Entries -/

/-- A memory error on a ring access (R66): KIND 3 for an entry read, 4 for a status write. -/
def ringErr (b : Block) (n c : Nat) (addr kind : Nat) : Block :=
  memErr b n 0x43 noUnit (chanB n) addr (errInfo c 0 0 (b2n (kind = 4)) 0 kind) 0

/-- An entry read returns. A cancelled entry that could not be read completes as one that asks for nothing. [DESIGN
CHOICE: log 16] -/
def entryBack (p : Params) (b : Block) (n c : Nat) (r : RawEntry) (err : Bool) : Block :=
  let x := getChan b n c
  if !x.reading.contains r.idx then b
  else
    let b := setChan b n c { x with reading := x.reading.filter (· ≠ r.idx) }
    let b := if err then
        let b := stopChan (ringErr b n c (slotAddr b n c r.idx) 3) n c 0x23 (some r.idx)
        if x.cancelFrom ≠ x.cancelTo then
          modChan b n c (fun y => { y with got := y.got ++ [{ idx := r.idx, w0 := 0, w1 := 0, w2 := 0, w3 := 0 }] })
        else b
      else modChan b n c (fun y => { y with got := y.got ++ [r] })
    pump p b n c

/-- ENTRY_READ_RETURN (R50): A ring entry's read data returns and the hub checks its format, translates its program range
and advances head. -/
def execEntryReadReturn (n c : Nat) (idx : Word) (w0 w1 w2 w3 : DWord) (err : Bool) (s : State) :
    Host.Outcome State Fault Refusal :=
  effect (fun p b => entryBack p b n c { idx := idx, w0 := w0, w1 := w1, w2 := w2, w3 := w3 } err) s

/-- The next accepted entry of a channel goes to a granted strand (R52, R53); one whose translations are stale waits for a
new walk (R268). [DEDUCED: log 15] -/
def dispatch (b : Block) (n c : Nat) : Block :=
  match grantPick b n, (getChan b n c).accepted with
  | some (c', k), e :: t =>
    if c' ≠ c ∨ e.xl.any (·.stale) then b
    else
      let b := modChan b n c (fun x => { x with accepted := t })
      let b := modStn b n (fun st => { st with rrGrant := rrPast st.rrGrant { chan := c, strand := 0, prio := 0 } })
      chSettle (startStrand b n k c e) n c
  | _, _ => b

/-- Dispatch; one for a station that sleeps waits for its thaw (R20, R70). -/
def execEntryDispatch (n c : Nat) (s : State) : Host.Outcome State Fault Refusal :=
  effect (fun _ b =>
    if stnRuns b n && hubWorks b then dispatch b n c
    else if hubWorks b && !stnActive b n && !stnFenced b n && decide ((getChan b n c).accepted ≠ []) then reqThaw b n
    else b) s

/-- A strand whose entry meets its completion condition returns to the pool, and the completion actions begin (R59, R60). -/
def entryEnd (p : Params) (b : Block) (n k : Nat) : Block :=
  let s := getStrand b n k
  match s.entry with
  | none => b
  | some e =>
    if !entryDone (getStn b n) k s then b
    else pump p (beginCompl (freeStrand b n k) n s.chan (complOf e (entryCode s) k e.cmode)) n s.chan

/-- ENTRY_COMPLETE (R59): A halted entry's writes meet its CMODE condition, the strand returns to the pool and completion
actions begin. -/
def execEntryComplete (n k : Nat) (s : State) : Host.Outcome State Fault Refusal :=
  effect (fun p b => if stnFenced b n || isDead b then b else entryEnd p (tick b n k) n k) s

/-! ## Status writes and interrupt messages -/

/-- Tag of a hub far-port write. -/
def hubTag (b : Block) (w : HubWrite) : Option Nat := (b.hubWr.find? (fun e => e.2 = w)).map (·.1)

/-- A status write has landed, or failed (R60, R66); in dead ball no completion action follows (R359). -/
def statusBack (p : Params) (b : Block) (n c : Nat) (idx : Word) (tag : Nat) (ok : Bool) : Block :=
  let b := hubFree b tag
  if isDead b then b
  else
  let b := if ok then b else stopChan (ringErr b n c (slotAddr b n c idx + 24) 4) n c 0x23 (some idx)
  finishStatus p b n c idx

/-- STATUS_WRITE_LANDED (R60): An entry's STATUS write lands, after which ENTRY is set and done, HALF and FULL advance. -/
def execStatusWriteLanded (n c : Nat) (idx : Word) (s : State) : Host.Outcome State Fault Refusal :=
  effect (fun p b => match hubTag b (.status n c idx) with
    | some t => if hubOn b then statusBack p b n c idx t true else b
    | none => b) s

/-- The oldest pending interrupt message transfers (R433). -/
def execInterruptSend (s : State) : Host.Outcome State Fault Refusal :=
  effect (fun _ b => if hubOn b then { b with irqs := b.irqs.drop 1 } else b) s

/-! ## Signals and waits of strands -/

/-- A pending signal's condition (R99). -/
def sigMet (st : Station) (k : Nat) (s : Strand) (g : Sig) : Bool :=
  let before := s.ops.filter (fun o => decide (o.id < g.upTo) && (isData o || o.kind = .stat))
  match g.cond with
  | 0 => before.all (opDeparted st k)
  | 1 => before.all (opLanded st k)
  | c => match g.lastOp with
    | none => true
    | some id => match s.ops.find? (fun o => o.id = id) with
      | none => true
      | some o => (o.kind ≠ .move || o.mv.isSome) && bytesDeparted st k o (c = 2)

/-- The oldest pending signal fires when its condition holds (R100, R231). -/
def sigFire (b : Block) (n k : Nat) : Block :=
  let s := getStrand b n k
  match s.sigs with
  | [] => b
  | g :: t =>
    if !sigMet (getStn b n) k s g then b
    else
      let b := setStrand b n k { s with sigs := t }
      pushAdd b { src := .station n, tally := g.tally, amount := g.amount, stn := some n, declared := scopeOf g.scope,
                  settled := if g.cond = 1 then .system else .station, ack := none }

/-- SIGNAL_FIRE (R99): A pending signal's condition holds, and it fires in program order, adding its amount. -/
def execSignalFire (n k : Nat) (s : State) : Host.Outcome State Fault Refusal :=
  effect (fun _ b => if stnRuns b n then sigFire (tick b n k) n k else b) s

/-- A wait whose acquire is settled is over; a WAIT lets its strand go on (R97, R233). -/
def acqStep (b : Block) : WaitSt → WaitSt
  | .acquiring a => if acqSettled b a then .done else .acquiring a
  | w => w

def acqDone (b : Block) (n k : Nat) : Block :=
  modStrand b n k (fun s =>
    let s' : Strand := { s with guardS := acqStep b s.guardS, guardD := acqStep b s.guardD, wait := acqStep b s.wait }
    if s'.wait = .done then
      { s' with wait := .none, waitTmo := 0, blocked := if s'.blocked = .wait then .no else s'.blocked }
    else s')

/-- ACQUIRE_COMPLETE (R233): Once every snapshot release is settled at the effective scope, the acquire completes. -/
def execAcquireComplete (n k : Nat) (s : State) : Host.Outcome State Fault Refusal :=
  effect (fun _ b => if (getStrand b n k).entry.isSome && !stnFenced b n && !isDead b then acqDone b n k else b) s

/-- Operations of a strand that are attached to a fault record leave it and issue nothing more (R278). [DEDUCED: log 138] -/
def detachOps (b : Block) (n k : Nat) : Block :=
  let mine := fun (r : Requester) (id : Nat) => match r with
    | .op n' k' id' _ => n' = n && k' = k && id' = id
    | _ => false
  forEach ((getStrand b n k).ops.map (·.id)) b (fun b id =>
    if b.parts.any (fun e => e.2.recs.any (fun f => f.reqs.any (fun r => mine r id))) then
      relHaz (detachReq (opRemove b n k id) (fun r => mine r id)) n
    else b)

/-- A WAIT expires: its strand stops at the WAIT, and is detached from the fault records it waits for; a station that sleeps is
thawed (R98, R278). -/
def waitExpire (b : Block) (n k : Nat) : Block :=
  let s := getStrand b n k
  match s.wait with
  | .armed _ _ _ =>
    if s.waitTmo = 0 then b else tick (reqThaw (detachOps (stopAt b n k (s.pc - 16) 0x15) n k) n) n k
  | _ => b

/-- WAIT_TIMEOUT (R98): A WAIT expires after TMO µs and the strand stops with STRAND_STOP. [DEDUCED: log 3] -/
def execWaitTimeout (n k : Nat) (s : State) : Host.Outcome State Fault Refusal :=
  effect (fun _ b => if stnFenced b n || isDead b then b else waitExpire b n k) s

end Sys2Proof.Machine
end

