-- ==== Sys2Proof/Machine/TallyOps.lean ====
section
/-! DEFINITION. The tallies' commands: additions that apply (R248, R251) and landing barriers (R234). -/
namespace Sys2Proof.Machine

/-- The acknowledgements of the inbound writes whose additions have been made leave (R235, R299). -/
def sendAcks (b : Block) (l : List Add) : Block :=
  forEach (l.filterMap (·.ack)) b (fun b k => sendRsp b 4 0 k)

/-- The additions that have reached a tally apply as their sum, those behind an earlier one of their source excepted; those
to a local tally of a station that is not active accumulate in the hub, which asks for a thaw when they name a 65th tally;
one to a global tally waits for the hub core (R246, R248, R251). In dead ball none applies (R359). -/
def tallyAdd (b : Block) (t : Nat) : Block :=
  let l := (takeAdds t [] b.adds).1
  if l = [] ∨ isDead b then b
  else
    let b' := { b with adds := (takeAdds t [] b.adds).2 }
    match talStn t with
    | none => if hubOn b then sendAcks (applyAdds b' t l) l else modPwr b (fun w => { w with hubGoingUp := true })
    | some n =>
      if stnActive b n then sendAcks (applyAdds b' t l) l
      else if wakeFull (getStn b n) t then reqThaw b n
      else sendAcks (wakeAdds b' n t l) l

/-- TALLY_ADDITION (R248): The additions that reach a tally in one cycle apply together and its waiters are tested. -/
def execTallyAddition (t : Nat) (s : State) : Host.Outcome State Fault Refusal :=
  effect (fun _ b => tallyAdd b t) s

/-- A station begins a barrier for the requests it has received. -/
def execLandingBarrier (n : Nat) (s : State) : Host.Outcome State Fault Refusal :=
  effect (fun _ b => if isDead b then b else beginBarrier b n) s

/-- A station reports a barrier. -/
def execBarrierReport (n : Nat) (s : State) : Host.Outcome State Fault Refusal :=
  effect (fun _ b => if isDead b then b else reportBarrier b n) s

end Sys2Proof.Machine
end

