-- ==== Sys2Proof/Machine/Xlat.lean ====
section
/-! DEFINITION. Range translation (R258 to R278): who needs a walk, the walkers, fault records and batches, commits. -/
namespace Sys2Proof.Machine

/-! ## Range table entries (R258, R259) -/

def teKind (e : TabEntry) : Nat := bits e.e0.toNat 1 0
def teVstart (e : TabEntry) : Nat := bits e.e0.toNat 56 16 * 65536
def teLen (e : TabEntry) : Nat := e.e1.toNat
def tePbase (e : TabEntry) : Nat := bits e.e2.toNat 63 16 * 65536

/-- An entry breaks R258 or a bound of R259. -/
def teBad (e : TabEntry) : Bool :=
  bits e.e0.toNat 15 2 ≠ 0 || bits e.e0.toNat 63 57 ≠ 0 || bits e.e2.toNat 15 0 ≠ 0 || bits e.e3.toNat 63 32 ≠ 0 ||
    (teKind e ≠ 1 && teKind e ≠ 2) || teLen e % 65536 ≠ 0 || teLen e < 65536 || 2 ^ 48 < teLen e ||
    2 ^ 57 < teVstart e + teLen e || (teKind e = 1 && 2 ^ 64 < tePbase e + teLen e) || (teKind e = 2 && tePbase e ≠ 0)

/-- The first failure of a table read in order: 3 FIELD, 4 ORDER, 0 none. `top` is the end of the entry before. [DEDUCED:
log 33] -/
def tableErr : Nat → List TabEntry → Nat
  | _, [] => 0
  | top, e :: t => if teBad e then 3 else if teVstart e < top then 4 else tableErr (teVstart e + teLen e) t

/-- The index: VSTART of each group's first entry (R260). -/
def tableKeys (t : List TabEntry) : List Nat := ((t.zipIdx).filter (fun e => e.2 % 16 = 0)).map (fun e => teVstart e.1)

/-- The range of a MAPPED entry. -/
def teXl (e : TabEntry) : Xl := { vstart := teVstart e, len := teLen e, pbase := tePbase e, stale := false }

/-- What a walk finds (R261): the ranges of a hit, the covering one first; or a miss, and whether an ABSENT entry covers. -/
inductive Found
  | hit (l : List Xl)
  | miss (absent : Bool)
  deriving DecidableEq, Repr

/-- A walk that reads no line: the table is empty or the address lies below its first key. -/
def walkShort (x : Part) (va : Nat) : Bool :=
  match x.keys with
  | [] => true
  | k :: _ => decide (va < k)

/-- Address of the group that a walk reads: the last one whose key is at most the address (R261). -/
def walkAddr (x : Part) (va : Nat) : Option Nat :=
  if walkShort x va then none
  else some ((x.table.map (·.1)).getD 0 + 512 * ((x.keys.filter (fun k => k ≤ va)).length - 1))

/-- The outcome of a walk over the entries of its group. -/
def walkFind (short : Bool) (va hi : Nat) (group : List TabEntry) : Found :=
  if short then .miss false
  else
    let below := group.filter (fun e => teVstart e ≤ va)
    match below.getLast? with
    | none => .miss false
    | some e =>
      if va < teVstart e + teLen e then
        if teKind e = 1 then
          .hit (teXl e :: (((group.drop below.length).filter (fun f => teKind f = 1 && teVstart f ≤ hi)).map teXl).take 3)
        else .miss true
      else .miss false

/-! ## Who needs a walk (R262 to R265) -/

/-- A need: requester, first byte, last byte, direction, cause (R271). -/
structure Need where
  req   : Requester
  va    : Nat
  hi    : Nat
  write : Bool
  cause : Nat
  deriving DecidableEq, Repr

/-- The entry whose program range a channel needs translated: the one in acceptance, or the next to dispatch when its
translations are stale. [DEDUCED: log 15] -/
def chanNeedEntry (x : Chan) : Option Entry :=
  match x.accepting with
  | some e => some e
  | none => match x.accepted with
    | e :: _ => if e.xl.any (·.stale) then some e else none
    | [] => none

def chanNeed (b : Block) (n c : Nat) : List Need :=
  match chanNeedEntry (getChan b n c) with
  | none => []
  | some e => match progGap e with
    | none => []
    | some a => [{ req := .chan n c, va := a, hi := progEnd e - 1, write := false, cause := 0 }]

/-- Line fetches whose program range is not translated (R268). -/
def lineNeeds (b : Block) (n : Nat) (p : Nat) : List Need :=
  ((getStn b n).pfQ.filter (fun e => (pfPa b n e.1 e.2).isNone && strandPart b n e.1 = p)).map (fun e =>
    { req := .line n e.1 e.2, va := e.2 % 2 ^ 60, hi := e.2 % 2 ^ 60 + 127, write := false, cause := 1 })

/-- Cause of an operation's walk: 4 for an instruction's own access. -/
def opCause (o : Op) (opd cause : Nat) : Nat := if opd = 8 ∨ !isData o then 4 else cause

/-- A burst of an operation that no range covers. -/
def burstNeed (n k : Nat) (s : Strand) (o : Op) (write : Bool) (br : Burst) : List Need :=
  if br.space = .mem && !burstOff o br && (xlOf s.ranges (burstVa br)).isNone then
    [{ req := .op n k o.id br.opd, va := burstVa br, hi := burstVa br + 127, write := write, cause := opCause o br.opd 3 }]
  else []

/-- Needs of one operation: its footprints at the start stage, its list line, and its next bursts. -/
def opNeeds (n k : Nat) (s : Strand) (o : Op) : List Need :=
  if o.phase = .desc then []
  else if o.phase = .list then
    match o.listVa with
    | some a => if o.foots ≠ [] && o.elem.isNone then
        burstNeed n k s o false { opd := 8, space := .mem, line := a / 128, mask := 2 ^ 128 - 1 } else []
    | none => []
  else
    let start := (o.foots.filter (footNeeds s o)).map (fun f =>
      ({ req := .op n k o.id f.opd, va := f.lo, hi := f.hi, write := f.write, cause := opCause o f.opd 2 } : Need))
    if start ≠ [] then start
    else if !mayIssue s o then []
    else (match (readPlan o).1[o.rIss]? with
      | some br => burstNeed n k s o false br
      | none => []) ++
      (match (writePlan o).1[o.wIss]? with
      | some br => if (lineData o br).isSome then burstNeed n k s o true br else []
      | none => [])

/-- A requester already waits for a walk or is attached to a fault record. -/
def waitsWalk (b : Block) (r : Requester) : Bool :=
  b.walks.any (fun w => w.reqs.contains r) || b.parts.any (fun e => e.2.recs.any (fun f => f.reqs.contains r))

/-- Needs of a partition that no walk or record serves yet. -/
def partNeeds (p : Params) (b : Block) (q : Nat) : List Need :=
  ((List.range p.stations).flatMap (fun n =>
    ((List.range 32).filter (fun c => chOwner b n c = q)).flatMap (chanNeed b n) ++
    (if stnRuns b n then
      lineNeeds b n q ++ ((stnStrands b n).filter (fun e => strandPart b n e.1 = q)).flatMap (fun e =>
        e.2.ops.flatMap (opNeeds n e.1 e.2))
    else []))).filter (fun x => !waitsWalk b x.req)

/-! ## Outcomes for a requester -/

/-- Give a program range its translations; the entry in acceptance goes on as far as its channel accepts (R50, R65). -/
def progGive (p : Params) (b : Block) (n c : Nat) (new : List Xl) : Block :=
  let x := getChan b n c
  let lap := fun (e : Entry) (l : List Xl) => l.filter (fun r => r.vstart < progEnd e && e.va < r.vstart + r.len)
  match x.accepting with
  | some e =>
    let e := { e with xl := (e.xl.filter (fun r => !r.stale)) ++ lap e new }
    pump p (setChan b n c { x with accepting := some e }) n c
  | none => match x.accepted with
    | [] => b
    | e :: t => setChan b n c { x with accepted := { e with xl := ((e.xl.filter (fun r => !r.stale)) ++ lap e new).take 2 } :: t }

/-- A walk's hit reaches a requester. -/
def giveHit (p : Params) (b : Block) (r : Requester) (l : List Xl) : Block :=
  match r with
  | .chan n c => progGive p b n c l
  | .line n k _ => modStrand b n k (fun s => { s with entry := s.entry.map (fun e =>
      { e with xl := (l.take 1 ++ (e.xl.filter (fun x => !x.stale && some x.vstart ≠ (l.head?).map (·.vstart)))).take 2 }) })
  | .op n k _ _ => tick (modStrand b n k (fun s => { s with ranges := installAll (getStn b n) k s.ranges l })) n k

/-- An entry whose program range is offside fails (R51, R266). -/
def chanOffside (p : Params) (b : Block) (n c : Nat) : Block :=
  let x := getChan b n c
  match x.accepting with
  | some _ => pump p (setChan b n c { x with accOff := true }) n c
  | none => match x.accepted with
    | [] => b
    | e :: t => chSettle (beginCompl (setChan b n c { x with accepted := t }) n c (complOf e 0x11 0xFFFF false)) n c

/-- A line fetch is offside: the strand stops; a MOVE whose descriptor cannot be fetched leaves (R106, R266). -/
def lineOffside (b : Block) (n k va : Nat) : Block :=
  let b := modStn b n (fun st => { st with pfQ := st.pfQ.filter (fun e => e ≠ (k, va)) })
  let b := stopStrand b n k 0x11
  if 2 ^ 60 ≤ va then
    match frontOp (getStrand b n k) with
    | some o => if o.desc + 2 ^ 60 = va then tick (dropOp b n k o.id) n k else b
    | none => b
  else b

/-- An operation's operand is offside: the granule of an address, or the whole operand (R266). -/
def opOffside (b : Block) (n k id opd : Nat) (gran : Option Nat) : Block :=
  match findOp b n k id with
  | none => b
  | some o =>
    let f := (o.foots.find? (fun f => f.opd = opd)).getD { opd := opd, space := .mem, write := false, lo := 0, hi := 0 }
    let first := match gran with
      | some g => max g f.lo
      | none => f.lo
    if opd = 8 ∨ !isData o then tick (instrOffside b n k o first f.write false) n k
    else
      let b := modOp b n k id (fun x => match gran with
        | some g => { x with offside := x.offside ++ [g] }
        | none => { x with offOpds := x.offOpds ++ [opd] })
      tick (offside b n k o first f.write false) n k

/-- Offside for a requester: the granule of a missing address, or all of it. -/
def giveOffside (p : Params) (b : Block) (r : Requester) (gran : Option Nat) : Block :=
  match r with
  | .chan n c => chanOffside p b n c
  | .line n k va => lineOffside b n k va
  | .op n k id opd => opOffside b n k id opd gran

/-! ## Walkers (R262) -/

/-- A partition is BROKEN; under a commit, what it returns to says so (R269, R277). -/
def partBroken (x : Part) : Bool :=
  x.st = .broken || (match x.cur with
    | some c => decide (c.before = .broken)
    | none => false)

/-- Walks may run. -/
def walksRun (b : Block) : Bool := hubWorks b && pageEnable b xlatB && !pageFence b xlatB

def walkCap (b : Block) : Nat := rbits b (xlatB + 0x44) 4 0

/-- Walkers pass over the queue, oldest first: 16 in all, at most WALK_CAP of a partition, none of a BROKEN one. -/
def startGo (b : Block) : List Walk → List Walk → List Walk
  | seen, [] => seen
  | seen, w :: t =>
    let run := (seen ++ w :: t).filter (·.running)
    if !w.running && decide (run.length < 16) && decide ((run.filter (fun v => v.part = w.part)).length < walkCap b) &&
        !partBroken (getPart b w.part) then
      startGo b (seen ++ [{ w with running := true, addr := walkAddr (getPart b w.part) w.va }]) t
    else startGo b (seen ++ [w]) t

/-- Walkers take the oldest requests that may run. -/
def startWalkers (b : Block) : Block := if walksRun b then { b with walks := startGo b [] b.walks } else b

/-- One need joins a walk of its granule, or a new request; it is offside at once where no walk is made (R261, R266). -/
def addNeed (p : Params) (b : Block) (q : Nat) (x : Need) : Block :=
  let b := match x.req with
    | .op n k _ _ => countCh b n (getStrand b n k).chan 0x0E 1
    | _ => b
  if 2 ^ 57 ≤ x.va ∨ !partOn b q then giveOffside p b x.req none
  else if b.walks.any (fun w => w.part = q && w.va / 65536 = x.va / 65536) then
    { b with walks := b.walks.map (fun w =>
        if w.part = q && w.va / 65536 = x.va / 65536 then { w with reqs := w.reqs ++ [x.req] } else w) }
  else if (b.walks.filter (fun w => !w.running)).length < 256 then
    { b with walks := b.walks ++ [{ part := q, va := x.va, hi := x.hi, write := x.write, cause := x.cause, reqs := [x.req],
                                    running := false, stale := false, addr := none }] }
  else b

/-- Walk requests of a granule reach the hub. -/
def execWalkRequest (p : Nat) (va : Nat) (s : State) : Host.Outcome State Fault Refusal :=
  effect (fun pr b =>
    if !hubWorks b then b
    else startWalkers (forEach ((partNeeds pr b p).filter (fun x => x.va / 65536 = va / 65536)) b (fun b x => addNeed pr b p x))) s

/-! ## Fault records (R271, R272) -/

def batchMax (b : Block) (q : Nat) : Nat := rbits b (xpR q 0x14) 10 0

/-- Free slots of the fault queue. -/
def fqRoom (b : Block) (q : Nat) : Nat :=
  let x := getPart b q
  1024 - (x.fqProd + 2 ^ 32 - rget b (xpR q 0x24)) % 2 ^ 32 - (x.recs.filter (fun r => r.phase = .closed)).length -
    (x.recs.filter (fun r => r.phase = .open)).length

/-- The open batch closes: its records take their indices, and the hub writes them. -/
def batchClose (b : Block) (q : Nat) : Block :=
  let x := getPart b q
  let n := (x.recs.filter (fun r => r.phase = .open)).length
  if n = 0 then b
  else
    let (recs, next) := x.recs.foldl (fun (acc : List FRec × Nat) r =>
      if r.phase = .open then
        (acc.1 ++ [{ r with phase := .closed, idx := acc.2, batch := x.batchNo, merged := min 65535 r.reqs.length }],
          (acc.2 + 1) % 2 ^ 32)
      else (acc.1 ++ [r], acc.2)) ([], x.fqNext)
    let b := setPart b q { x with recs := recs, fqNext := next, batchNo := (x.batchNo + 1) % 2 ^ 32 }
    count b .hub 0x0D (32 * n) none

/-- A batch that is full closes. -/
def batchFull (b : Block) (q : Nat) : Block :=
  if batchMax b q ≤ ((getPart b q).recs.filter (fun r => r.phase = .open)).length then batchClose b q else b

/-- Station and requester number of a record. -/
def reqStn : Requester → Nat
  | .chan n _ => n
  | .line n _ _ => n
  | .op n _ _ _ => n
def reqNum : Requester → Nat
  | .chan n c => 32 * n + c
  | .line _ k _ => k
  | .op _ k _ _ => k

/-- A miss: it attaches to an unresolved record of its granule, or forms one; a channel in acceptance waits (R51, R272). -/
def missed (b : Block) (q : Nat) (w : Walk) (absent : Bool) : Block :=
  let x := getPart b q
  let live := fun (r : FRec) => r.phase ≠ .retry && r.va / 65536 = w.va / 65536
  let b := if x.recs.any live then
      setPart b q { x with recs := x.recs.map (fun r => if live r then { r with reqs := r.reqs ++ w.reqs } else r) }
    else
      let first := w.reqs.headD (.chan 0 0)
      let ph : FPhase := if fqRoom b q = 0 then .deferred else .open
      let r : FRec := { idx := 0, va := w.va, write := w.write, absent := absent, cause := w.cause, stn := reqStn first,
                        req := reqNum first, batch := 0, merged := 0, gen := x.gen, reqs := w.reqs, phase := ph }
      batchFull (setPart b q { x with recs := x.recs ++ [r] }) q
  forEach w.reqs b (fun b r => match r with
    | .chan n c => modChan b n c (fun y => { y with st := if y.accepting.isSome ∧ y.st = .running then .xlatWait else y.st })
    | _ => b)

/-- The four words of a fault record (R271). -/
def fqWords (r : FRec) : List DWord :=
  [BitVec.ofNat 64 (r.va % 2 ^ 57 + b2n r.write * 2 ^ 57 + b2n r.absent * 2 ^ 58),
   BitVec.ofNat 64 (r.cause % 8 + r.stn % 64 * 2 ^ 8 + r.req % 2048 * 2 ^ 16 + r.batch % 2 ^ 32 * 2 ^ 32),
   BitVec.ofNat 64 (r.merged % 65536 + r.gen % 65536 * 2 ^ 16), BitVec.ofNat 64 (r.idx % 2 ^ 32)]

/-- BATCH_CLOSE (R272): A fault batch closes at BATCH_MAX or at the end of BATCH_WIN and its records are written. -/
def execBatchClose (p : Nat) (s : State) : Host.Outcome State Fault Refusal :=
  effect (fun _ b => if hubWorks b then batchClose b p else b) s

/-- The oldest closed batch has landed; a write error leaves it treated as written (R272, R276). -/
def batchLanded (b : Block) (q : Nat) (err : Bool) : Block :=
  let x := getPart b q
  match x.recs.find? (fun r => r.phase = .closed) with
  | none => b
  | some f =>
    let mine := fun (r : FRec) => r.phase = .closed && r.batch = f.batch
    let n := (x.recs.filter mine).length
    let b := setPart b q { x with recs := x.recs.map (fun r => if mine r then { r with phase := .written } else r),
                                  fqProd := (x.fqProd + n) % 2 ^ 32 }
    let b := if err then memErr b srcXlat 0x48 q xlatB (rget64 b (xpR q 0x18) + 32 * (f.idx % 1024)) (errInfo q q 0 1 0 5) 0
      else b
    setCause (count b .hub 0x06 n none) (1536 + q) 1

/-- BATCH_LANDED (R272): When all records of a batch have landed, XP_FQ_PROD advances and BATCH is set. -/
def execBatchLanded (p : Nat) (err : Bool) (s : State) : Host.Outcome State Fault Refusal :=
  effect (fun _ b => if hubOn b ∧ p < 16 then batchLanded b p err else b) s

/-- Deferred records enter the open batch as room returns. -/
def admitOne (q : Nat) (b : Block) : Block :=
  let x := getPart b q
  if fqRoom b q = 0 then b
  else match x.recs.find? (fun r => r.phase = .deferred) with
  | none => b
  | some f => batchFull (setPart b q { x with recs := x.recs.map (fun r => if r = f then { r with phase := .open } else r) }) q

def admitN (q : Nat) : Nat → Block → Block
  | 0, b => b
  | f + 1, b => admitN q f (admitOne q b)

/-- XP_FQ_CONS is written: records below it are resolved and wait for their retries (R272). -/
def fqResolve (b : Block) (q c : Nat) : Block :=
  let x := getPart b q
  let cons := rget b (xpR q 0x24)
  let have_ := (x.fqProd + 2 ^ 32 - cons) % 2 ^ 32
  let c := if have_ < (c + 2 ^ 32 - cons) % 2 ^ 32 then x.fqProd else c
  let k := (c + 2 ^ 32 - cons) % 2 ^ 32
  let b := rset b (xpR q 0x24) c
  let b := setPart b q { x with recs := x.recs.map (fun r =>
    if r.phase = .written && decide ((r.idx + 2 ^ 32 - cons) % 2 ^ 32 < k) then { r with phase := .retry } else r) }
  admitN q ((x.recs.filter (fun r => r.phase = .deferred)).length) b

/-! ## Walks end (R261, R276) -/

/-- A partition becomes BROKEN. Under a commit it shows when that ends: a switch clears what came before it, and nothing what
comes after (R277). -/
def brokenMark (b : Block) (q : Nat) : Block :=
  modPart b q (fun x => match x.cur with
    | some c => { x with cur := some { c with before := .broken } }
    | none => { x with st := .broken })

/-- The read of a walk's group failed: the partition becomes BROKEN (R276). -/
def breakPart (b : Block) (q addr : Nat) : Block :=
  memErr (brokenMark b q) srcXlat 0x48 q xlatB addr (errInfo q q 0 0 0 3) 0

/-- A walk has completed. -/
def walkEnd (b : Block) (missd : Bool) (n : Nat) : Block :=
  let b := rcount b (xlatB + 0x4C) 1
  let b := count b .hub 0x04 1 none
  let b := count b .hub 0x0C (32 * n) none
  if missd then count b .hub 0x05 1 none else b

def walkDone (p : Params) (b : Block) (q va : Nat) (group : List TabEntry) (err : Bool) : Block :=
  match b.walks.find? (fun w => w.running && w.part = q && w.va / 65536 = va / 65536) with
  | none => b
  | some w =>
    let rest := { b with walks := b.walks.filter (fun v => v ≠ w) }
    let n := if w.addr.isNone then 0 else group.length
    let again := { w with running := false, stale := false, addr := none }
    match (if err then w.addr else none) with
    | some a => startWalkers (breakPart { b with walks := b.walks.map (fun v => if v = w then again else v) } q a)
    | none =>
    if w.stale then startWalkers (walkEnd rest false n)
    else match walkFind w.addr.isNone w.va w.hi group with
      | .hit l => startWalkers (forEach w.reqs (walkEnd rest false n) (fun b r => giveHit p b r l))
      | .miss a => startWalkers (missed (walkEnd rest true n) q w a)

/-- WALK_DONE (R261): A walk completes with a hit, which installs entries, or a miss. -/
def execWalkDone (p : Nat) (va : Nat) (group : List TabEntry) (err : Bool) (s : State) : Host.Outcome State Fault Refusal :=
  effect (fun pr b => if walksRun b then walkDone pr b p va group err else b) s

/-- The walk made again for a resolved record (R272). -/
def retryWalk (p : Params) (b : Block) (q idx : Nat) (group : List TabEntry) (err : Bool) : Block :=
  let x := getPart b q
  match x.recs.find? (fun r => r.phase = .retry && r.idx = idx) with
  | none => b
  | some r =>
    if x.cur.isSome || x.pend.isSome || partBroken x then b
    else
      let b' := setPart b q { x with recs := x.recs.filter (fun f => f ≠ r) }
      let addr := walkAddr x r.va
      let n := if addr.isNone then 0 else group.length
      if !partOn b q then forEach r.reqs b' (fun b y => giveOffside p b y none)
      else match (if err then addr else none) with
      | some a => breakPart b q a
      | none => match walkFind addr.isNone r.va (r.va + 65535) group with
        | .hit l => forEach r.reqs (walkEnd b' false n) (fun b y => giveHit p b y l)
        | .miss _ => forEach r.reqs (walkEnd b' true n) (fun b y => giveOffside p b y (some (r.va / 65536 * 65536)))

/-- RETRY_WALK (R272): After pending commits, the hub walks again for each resolved record. -/
def execRetryWalk (p : Nat) (idx : Nat) (group : List TabEntry) (err : Bool) (s : State) : Host.Outcome State Fault Refusal :=
  effect (fun pr b => if walksRun b then retryWalk pr b p idx group err else b) s

/-! ## Commits (R267 to R269) -/

/-- Mark every translation of a partition stale (R268). -/
def markStale (b : Block) (q : Nat) : Block :=
  let old := fun (l : List Xl) => l.map (fun x => { x with stale := true })
  let ent := fun (e : Entry) => { e with xl := old e.xl }
  { b with
    chans := b.chans.map (fun e => if chOwner b (e.1 / 32) (e.1 % 32) = q then
      (e.1, { e.2 with accepting := e.2.accepting.map ent, accepted := e.2.accepted.map ent }) else e),
    strands := b.strands.map (fun e => if chOwner b (e.1 / 256) e.2.chan = q then
      (e.1, { e.2 with entry := e.2.entry.map ent, ranges := old e.2.ranges }) else e) }

/-- Bursts issued under a partition's translations and not served, by station (R268); those that a soft reset of the station
left outstanding are among them. [DEDUCED: log 32] -/
def staleBursts (b : Block) (q : Nat) : List (Nat × Nat) :=
  b.stations.flatMap (fun e =>
    let n := e.1
    let st := e.2
    ((st.rdTags ++ st.oldRd).filter (fun t => t.2.part = q)).map (fun t => (n, drainRd t.1)) ++
    ((liveWr st.wrTags).filter (fun t => t.2.part = q)).map (fun t => (n, drainWr t.2.wid)) ++
    ((st.pfOut ++ st.oldPf).filter (fun f => f.part = q)).map (fun f => (n, drainPf f.k f.va)))

/-- A commit begins: it latches the staged table fields and waits for the standby bank. -/
def beginCommit (b : Block) (q : Nat) (revoke : Bool) : Block :=
  let c : Commit := { revoke := revoke, tbase := rget64 b (xpR q 0x8), tcount := rbits b (xpR q 0x10) 16 0, stage := 0,
                      keys := [], before := (getPart b q).st }
  let b := modPart b q (fun x => { x with st := .building, pend := none, cur := some c })
  { b with commitQ := b.commitQ ++ [q] }

/-- A commit leaves the bank; a pending one begins, or fails at once under a fence of the page (R278). -/
def endCommit (b : Block) (q : Nat) : Block :=
  let b := { b with standby := if b.standby = some q then none else b.standby, commitQ := b.commitQ.filter (· ≠ q) }
  let pend := (getPart b q).pend
  let b := modPart b q (fun x => { x with cur := none, pend := none })
  match pend with
  | some r =>
    if pageFence b xlatB then setCause (modPart b q (fun x => { x with cerr := 6 })) (1536 + q) 8 else beginCommit b q r
  | none => b

/-- A commit fails (R269). [DEDUCED: log 33] -/
def failCommit (b : Block) (q cerr : Nat) : Block :=
  match (getPart b q).cur with
  | none => b
  | some c => setCause (endCommit (modPart b q (fun x => { x with st := c.before, cerr := cerr })) q) (1536 + q) 8

/-- A write of COMMIT: a commit begins, or one further becomes pending (R278). While the page is fenced it fails at once. -/
def commitReq (b : Block) (q : Nat) (revoke : Bool) : Block :=
  let x := getPart b q
  match x.cur with
  | some _ => setPart b q { x with pend := some (revoke || x.pend = some true) }
  | none => let b := beginCommit b q revoke; if pageFence b xlatB then failCommit b q 6 else b

/-- The table is read and checked, and its index built in the standby bank. [DESIGN CHOICE: log 34] -/
def commitStart (b : Block) (q : Nat) (table : List TabEntry) (err : Bool) : Block :=
  match (getPart b q).cur with
  | none => b
  | some c =>
    if c.stage ≠ 0 ∨ b.standby.isSome ∨ b.commitQ.head? ≠ some q then b
    else
      let b' := { b with standby := some q }
      if c.tbase % 512 ≠ 0 then failCommit b' q 1
      else if 65536 < c.tcount then failCommit b' q 2
      else if err then failCommit (memErr b' srcXlat 0x48 q xlatB c.tbase (errInfo q q 0 0 0 4) 0) q 5
      else if table.length ≠ c.tcount then b
      else
        let b' := count b' .hub 0x0C (32 * c.tcount) none
        if tableErr 0 table ≠ 0 then failCommit b' q (tableErr 0 table)
        else modPart b' q (fun x => { x with cur := some { c with stage := 1, keys := tableKeys table } })

/-- COMMIT_START (R267): Once the standby bank is free, the commit starts reading and checking the table. -/
def execCommitStart (p : Nat) (table : List TabEntry) (err : Bool) (s : State) : Host.Outcome State Fault Refusal :=
  effect (fun _ b => if hubWorks b && !pageFence b xlatB then commitStart b p table err else b) s

/-- A commit completes: COMMIT sets. A partition broken since the switch stays BROKEN (R277). -/
def commitDone (b : Block) (q : Nat) : Block :=
  let st := match (getPart b q).cur with
    | some c => c.before
    | none => .ready
  setCause (endCommit (modPart b q (fun x => { x with st := st, cerr := 0 })) q) (1536 + q) 4

/-- The switch: table and bank take force; a revoking commit withdraws every earlier translation (R267, R268). -/
def commitSwitch (b : Block) (q : Nat) : Block :=
  match (getPart b q).cur with
  | none => b
  | some c =>
    if c.stage ≠ 1 then b
    else
      let drain := if c.revoke then staleBursts b q else []
      let b := modPart b q (fun x => { x with table := some (c.tbase, c.tcount), keys := c.keys, gen := (x.gen + 1) % 65536,
                                              st := .draining, cur := some { c with stage := 2, before := .ready }, drain := drain })
      let b := { b with standby := none, commitQ := b.commitQ.filter (· ≠ q) }
      let b := if c.revoke then
          let b := markStale b q
          { b with walks := b.walks.map (fun w => if w.part = q && w.running then { w with stale := true } else w) }
        else commitDone b q
      startWalkers b

/-- COMMIT_SWITCH (R267): After the last table line, the new table and bank take force and XP_GEN increases. -/
def execCommitSwitch (p : Nat) (s : State) : Host.Outcome State Fault Refusal :=
  effect (fun _ b => if hubWorks b && !pageFence b xlatB then commitSwitch b p else b) s

/-- A revoking commit completes once every burst issued under a stale translation is served. -/
def commitDrained (b : Block) (q : Nat) : Block :=
  let x := getPart b q
  match x.cur with
  | none => b
  | some c => if c.stage = 2 && x.drain = [] then commitDone b q else b

/-- COMMIT_DRAINED (R268): When every station reports its stale bursts served, a revoking commit completes and COMMIT is
set. -/
def execCommitDrained (p : Nat) (s : State) : Host.Outcome State Fault Refusal :=
  effect (fun _ b => if hubOn b then commitDrained b p else b) s

/-! ## Disable, fence and reset of translation (R278) -/

/-- Every requester of a partition's walks and records becomes offside. -/
def offsideAll (p : Params) (b : Block) (q : Nat) : Block :=
  let reqs := (b.walks.filter (fun w => w.part = q)).flatMap (·.reqs) ++ (getPart b q).recs.flatMap (·.reqs)
  let b := { b with walks := b.walks.filter (fun w => w.part ≠ q) }
  let b := modPart b q (fun x => { x with recs := x.recs.map (fun r => { r with reqs := [] }) })
  forEach reqs b (fun b r => giveOffside p b r none)

/-- ENABLE is cleared. -/
def xlatOff (p : Params) (b : Block) (q : Nat) : Block := offsideAll p (markStale b q) q

/-- The page is fenced: walks stop, and commits that have not switched fail (R277, R278). -/
def xlatFence (b : Block) : Block :=
  let b := { b with walks := b.walks.map (fun w => { w with running := false, stale := false, addr := none }) }
  forEach (List.range 16) b (fun b q => match (getPart b q).cur with
    | some c => if c.stage < 2 then failCommit b q 6 else b
    | none => b)

/-- The XLAT fence has completed: no walk and no commit runs. -/
def xlatQuiet (b : Block) : Bool := b.walks.all (fun w => !w.running) && b.parts.all (fun e => e.2.cur.isNone)

/-- A soft reset of the page (R278). -/
def xlatReset (p : Params) (b : Block) : Block :=
  forEach (List.range 16) b (fun b q =>
    let b := offsideAll p (markStale b q) q
    setPart b q Part.reset)

end Sys2Proof.Machine
end

