-- ==== Sys2Proof/Machine/Links.lean ====
section
/-! DEFINITION. The link engines (R281 to R304, R315): port states, flits and replay, the output arbiter, and the packets
that terminate at this chip. -/
namespace Sys2Proof.Machine

/-! ## Port states (R301 to R303) -/

/-- The link engine works: the hub core is powered, not in dead ball (R304), and the LINK page is not fenced (R28). [DEDUCED:
log 81] -/
def linkOk (b : Block) : Bool := hubWorks b && !pageFence b linkB

/-- An event of a port that concerns no address. [DEDUCED: log 43] -/
def portEv (b : Block) (p kind cause : Nat) : Block := signalEv b (srcLink p) kind noUnit 0 (cause * 2 ^ 32)

/-- Cause bits of LP_IRQ (R317). -/
def lpUp : Nat := 1
def lpDown : Nat := 2
def lpStop : Nat := 4
def lpMismatch : Nat := 8

/-- The HELLO that this chip sends on a port (R289). -/
def helloOf (b : Block) (p : Nat) : Packet :=
  { h0 := BitVec.ofNat 64 (11 + myChip b * 2 ^ 6 + (topoX b - 1) * 2 ^ 16 + (topoY b - 1) * 2 ^ 21 + p % 4 * 2 ^ 26 +
      1 * 2 ^ 28 + 2 * 2 ^ 36), h1 := 0, mask := 0, data := 0 }

/-- A port's sequence numbers, credits and buffers as SYNC starts (R301). What it keeps to send is `out`. -/
def freshPort (pt : Port) (st : PortSt) (out : List OutPkt) : Port :=
  { Port.reset with st := st, peerChip := pt.peerChip, peerPort := pt.peerPort, sent := pt.sent, received := pt.received,
                    fenced := pt.fenced, stopSent := pt.stopSent, tx := pt.tx, outQ := out }

/-- What a port's buffers hold to send: flits not acknowledged, then packets waiting. -/
def heldPkts (pt : Port) : List Packet := pt.replay.flatMap (·.pkts) ++ pt.outQ.map (·.pkt)

/-- A data packet. -/
def pktData (k : Packet) : Bool := pktType k ≤ 3

/-- A held packet of a port that has left UP: a request is answered DOWN, a response is discarded and counted (R303). -/
def lostPkt (b : Block) (k : Packet) : Block :=
  if !pktData k then b else if pktReq k then sendRsp b 4 0 (mkResponse b k 3 0 0) else dropPkt b

/-- Packets leave a port's output queue unsent: their units leave the pools that held them. -/
def freeOut (b : Block) (l : List OutPkt) : Block := forEach l b (fun b e => poolFree b e.src e.pools)

/-- A port leaves UP, or a training state, for DOWN, MISMATCH or STOPPED: R303 applies to what it holds. The units of a packet
that is not whole go (R315). -/
def portLeave (b : Block) (p : Nat) (st : PortSt) (cause evCause : Nat) : Block :=
  let pt := getPort b p
  let held := heldPkts pt
  let b := setPort b p { pt with st := st, closing := false, replay := [], replayed := 0, outQ := [], rxPart := [], nak := false,
                                 resends := 0 }
  let b := freeOut b pt.outQ
  let b := forEach held b lostPkt
  portEv (setCause b (1552 + p) cause) p 0x4B evCause

/-- A port goes DOWN. [DEDUCED: log 43] -/
def portDown (b : Block) (p evCause : Nat) : Block := portLeave b p .down lpDown evCause

/-- ENABLE of an LPORT page becomes 1: from OFF to TRAIN unless the topology is bad or does not use the port, or the port is
fenced (R282); a port that was draining takes packets again. [DEDUCED: log 40] -/
def portOn (pr : Params) (b : Block) (p : Nat) : Block :=
  let pt := getPort b p
  if badTopology pr b || !portNeeded b p || pt.fenced then b
  else if pt.st = .off then setPort b p { pt with st := .train }
  else setPort b p { pt with closing := false }

/-- ENABLE becomes 0: an UP port drains; one in TRAIN or SYNC enters OFF at once (R302, R315); so does one with nothing to
send. [DEDUCED: log 40] -/
def portOffReq (b : Block) (p : Nat) : Block :=
  let pt := getPort b p
  if pt.fenced then b
  else match pt.st with
  | .up => setPort b p { pt with closing := true }
  | _ => setPort (freeOut b pt.outQ) p (freshPort pt .off [])

/-- A disabled port whose packets are acknowledged enters OFF. -/
def portDrained (b : Block) (p : Nat) : Block :=
  let pt := getPort b p
  if pt.st = .up && pt.closing && pt.replay = [] && pt.outQ = [] then
    setPort b p { freshPort pt .off [] with inQ := pt.inQ, retCred := pt.retCred }
  else b

/-- PORT_DRAINED (R302): Once its buffered packets are acknowledged, a disabled port enters OFF. -/
def execPortDrained (p : Nat) (s : State) : Host.Outcome State Fault Refusal :=
  effect (fun _ b => if linkOk b && p < 4 then portDrained b p else b) s

/-- Packets that came by a port and wait for their output or station leave its pool, which is empty in SYNC (R301): they go on,
and return no credit to the new connection. [DEDUCED: log 39] -/
def emptyPool (b : Block) (p : Nat) : Block :=
  { b with
    ports := b.ports.map (fun (e : Nat × Port) => (e.1, { e.2 with
      outQ := e.2.outQ.map (fun x => if x.src = p then { x with pools := [] } else x),
      inQ := if e.1 = p then e.2.inQ.map (fun x => { x with pools := [] }) else e.2.inQ })),
    stations := b.stations.map (fun (e : Nat × Station) => (e.1, { e.2 with
      inQ := e.2.inQ.map (fun x => if x.src = p then { x with pools := [] } else x) })) }

/-- A port enters SYNC: HELLO goes out first, then what is to follow it. -/
def portSync (b : Block) (p : Nat) (out : List OutPkt) : Block :=
  let b := emptyPool b p
  let pt := getPort b p
  setPort b p { freshPort pt .sync (⟨4, 4, helloOf b p, []⟩ :: out) with inQ := pt.inQ }

/-- The PHY reports link-up (R301). -/
def execLinkUp (p : Nat) (s : State) : Host.Outcome State Fault Refusal :=
  effect (fun _ b => if linkOk b && p < 4 && (getPort b p).st = .train then portSync b p (getPort b p).outQ else b) s

/-- States that the PHY's link-down and the training timeout end (R302). -/
def portTraining (st : PortSt) : Bool := st = .train || st = .sync

/-- The PHY reports link-down (R302). -/
def execLinkDown (p : Nat) (s : State) : Host.Outcome State Fault Refusal :=
  effect (fun _ b => if linkOk b && p < 4 && (portTraining (getPort b p).st || (getPort b p).st = .up) then portDown b p 5
    else b) s

/-- TRAIN or SYNC has lasted longer than GOP_TMO (R302). -/
def execTrainTimeout (p : Nat) (s : State) : Host.Outcome State Fault Refusal :=
  effect (fun _ b => if linkOk b && p < 4 && portTraining (getPort b p).st then portDown b p 3 else b) s

/-! ## HELLO and STOP (R301, R304) -/

/-- A partner's HELLO is valid (R301). -/
def helloOk (b : Block) (p : Nat) (h : Nat) : Bool :=
  bits h 20 16 + 1 = topoX b && bits h 25 21 + 1 = topoY b && bits h 15 6 = neighbour b (myX b) (myY b) p &&
    bits h 27 26 = cabledPort b p && bits h 35 28 = 1

/-- A HELLO arrives: in SYNC the port goes UP or to MISMATCH. -/
def helloIn (b : Block) (p : Nat) (h : Nat) : Block :=
  let pt := getPort b p
  if pt.st ≠ .sync ∧ pt.st ≠ .up then b
  else
    let b := setPort b p { pt with peerChip := bits h 15 6, peerPort := bits h 27 26 }
    if pt.st ≠ .sync then b
    else if helloOk b p h then setCause (modPort b p (fun pt => { pt with st := .up })) (1552 + p) lpUp
    else portLeave b p .mismatch lpMismatch 5

/-- HELLO (R301): A partner HELLO arrives and moves the port to UP or MISMATCH. -/
def execHello (p : Nat) (h0 : DWord) (s : State) : Host.Outcome State Fault Refusal :=
  effect (fun _ b => if linkOk b && p < 4 then helloIn b p h0.toNat else b) s

/-- A STOP arrives: the port enters STOPPED. -/
def stopIn (b : Block) (p : Nat) : Block :=
  if (getPort b p).st = .up then portLeave b p .stopped lpStop 5 else b

/-- STOP (R304): A STOP packet arrives and the port enters STOPPED. -/
def execStop (p : Nat) (s : State) : Host.Outcome State Fault Refusal :=
  effect (fun _ b => if linkOk b && p < 4 then stopIn b p else b) s

/-! ## The output arbiter (R287, R288, R292, R293) -/

/-- Credits of a pool: 0 to 4 a channel's reserve, 5 the shared pool. -/
def credOf (pt : Port) (i : Nat) : Nat := pt.credits.getD i 0

/-- A packet's body may be sent: its units fit the reserve of its channel, or the shared pool, which SWEEP never uses.
[DEDUCED: log 36] -/
def credRoom (pt : Port) (vc : Nat) (k : Packet) : Bool :=
  pktUnits k ≤ credOf pt vc || (vc < 4 && pktUnits k ≤ credOf pt 5)

/-- First entry of a source and channel. -/
def outHead (pt : Port) (src vc : Nat) : Option OutPkt := pt.outQ.find? (fun e => e.src = src && e.vc = vc)

/-- Heads of a class: sources 0 to 4, channels A and B of the class (0 REQ, 2 RSP). -/
def classHeads (pt : Port) (cls : Nat) : List OutPkt :=
  (List.range 5).flatMap (fun s => ((List.range 2).filterMap (fun v => outHead pt s (cls + v))))

/-- Age key of a head. -/
def headKey (e : OutPkt) : Nat := 4 * e.src + e.vc

/-- The head served next in a class: one that has waited FWD_AGE, the oldest first; else round-robin over the sources. -/
def classPick (pt : Port) (lim rr : Nat) (l : List OutPkt) : Option OutPkt :=
  let age := fun e => tgetD pt.ages (headKey e) 0
  let old := l.filter (fun e => lim ≤ age e)
  let top := (old.map age).foldl max 0
  match old.find? (fun e => age e = top) with
  | some e => some e
  | none => argmin (fun e => ringDist 5 rr e.src) l

/-- The data packet sent next: RSP ahead of REQ. -/
def dataPick (b : Block) (p : Nat) : Option OutPkt :=
  let pt := getPort b p
  let lim := rbits b (linkB + 0x44) 31 16
  let ok := fun cls => (classHeads pt cls).filter (fun e => credRoom pt e.vc e.pkt)
  match classPick pt lim pt.rrRsp (ok 2) with
  | some e => some e
  | none => classPick pt lim pt.rrReq (ok 0)

/-- The sweeper packet at the head of a port's queue, with its credit. [DEDUCED: log 37] -/
def sweepPick (pt : Port) : Option OutPkt := (pt.outQ.find? (fun e => e.vc = 4)).filter (fun e => credRoom pt 4 e.pkt)

/-- The credit that a flit returns (R284): the first pool with units, up to 255 of them; pool 7 for none. -/
def creditOut (pt : Port) : Nat × Nat :=
  match (List.range 6).find? (fun i => pt.retCred.getD i 0 ≠ 0) with
  | none => (7, 0)
  | some i => (i, min 255 (pt.retCred.getD i 0))

/-- Give a flit to the PHY: it carries the ACK of the last flit received in order, and the NAK that is due (R284, R286). -/
def putFlit (pt : Port) (seq : BitVec 16) (vc : Nat) (shared : Bool) (crvc credits : Nat) (pkts : List Packet) : Port :=
  { pt with tx := mkFlit seq (pt.rxNext - 1) vc shared pt.nak crvc credits (pkts.flatMap unitsOf),
            nak := false, nakSent := pt.nakSent || pt.nak }

/-- The credit that leaves with a flit is returned no more. -/
def creditTaken (pt : Port) : Port :=
  { pt with retCred := pt.retCred.modify (creditOut pt).1 (· - (creditOut pt).2) }

/-- An idle flit goes: no sequence number and no units (R284). -/
def idleFlit (pt : Port) : Port := putFlit (creditTaken pt) 0 7 false (creditOut pt).1 (creditOut pt).2 []

/-- A flit of the replay buffer goes. -/
def putStored (pt : Port) (f : TxFlit) : Port := putFlit pt f.seq f.vc f.shared f.crvc f.credits f.pkts

/-- A packet leaves in a flit of its own: credit is taken from its reserve or the shared pool (a free choice where both have
room), the flit takes the next sequence number and waits in the replay buffer (R286). [DEDUCED: log 35] [DEDUCED: log 36] -/
def sendFlit (b : Block) (p : Nat) (e : OutPkt) (k : Packet) : Block :=
  let (c, b) := draw b
  let pt := getPort b p
  let u := pktUnits k
  let res := u ≤ credOf pt e.vc && (4 ≤ e.vc || !(decide (u ≤ credOf pt 5)) || c % 2 = 0)
  let d := pktData k
  let f : TxFlit := { seq := pt.txNext, vc := e.vc, shared := !res, crvc := (creditOut pt).1, credits := (creditOut pt).2,
                      pkts := [k] }
  let pt := putStored (creditTaken pt) f
  let pt := { pt with
    outQ := pt.outQ.erase e, credits := pt.credits.modify (if res then e.vc else 5) (· - u),
    replay := pt.replay ++ [f], replayed := pt.replay.length + 1, txNext := pt.txNext + 1,
    sent := (pt.sent + b2n d) % 2 ^ 32, ages := tdel pt.ages (headKey e),
    swGap := if d then pt.swGap - 1 else 7,
    rrRsp := if d && !pktReq k then (e.src + 1) % 5 else pt.rrRsp,
    rrReq := if d && pktReq k then (e.src + 1) % 5 else pt.rrReq,
    stopSent := pt.stopSent || pktType k = 10 }
  let b := poolFree (setPort b p pt) e.src e.pools
  let b := count b (.port p) 0x02 1 none
  let b := if d && e.src < 4 then count b (.port p) 0x07 1 none else b
  let b := if pktType k = 0 then count b (.port p) 0x09 (popCount 128 (pktMask k)) none else b
  if d then b else count b (.port p) 0x0A 1 none

/-- A packet whose header is lost in the pool of the port by which it came is discarded, with a fault of that port (R287). -/
def badHeader (b : Block) (port : Nat) : Block := portEv (dropPkt b) (if port < 4 then port else 0) 0x4C 2

/-- A head packet leaves its pool and goes; `bad` are its units that the pool's corrector found beyond correction (R287). -/
def forwardPkt (b : Block) (p : Nat) (e : OutPkt) (bad : Nat) : Block :=
  match spoil e.pkt (if e.pools = [] then 0 else bad) with
  | some k => sendFlit b p e k
  | none =>
    badHeader (poolFree (modPort b p (fun pt => { pt with outQ := pt.outQ.erase e })) e.src e.pools) e.src

/-- Heads that this lclk does not serve grow older. [DEDUCED: log 37] -/
def ageHeads (pt : Port) (won : Option OutPkt) : Port :=
  let l := (classHeads pt 0 ++ classHeads pt 2).filter (fun e => some e ≠ won)
  { pt with ages := l.foldl (fun t e => tmod t (headKey e) 0 (· + 1)) pt.ages }

/-- The next flit of a resend goes; a packet whose header the replay buffer lost is discarded, and the flit goes without it (R286,
R287). [DEDUCED: log 140] -/
def resendFlit (b : Block) (p : Nat) (f : TxFlit) (bad : Nat) : Block :=
  let ks := f.pkts.filterMap (fun k => spoil k bad)
  let f' := { f with pkts := ks }
  let b := modPort b p (fun pt => { putStored (ageHeads pt none) f' with
    replay := pt.replay.map (fun x => if x.seq = f.seq then f' else x), replayed := pt.replayed + 1 })
  let b := count b (.port p) 0x02 1 none
  if ks.length = f.pkts.length then b else badHeader b p

/-- One lclk of an output port: a resend goes on first; a sweeper flit goes ahead of every data flit, one flit in 8 at most while
data flits wait; with nothing to send, or 2,048 flits unacknowledged, an idle flit goes (R286, R292, R293). -/
def portSend (b : Block) (p bad : Nat) : Block :=
  let pt := getPort b p
  match pt.replay[pt.replayed]? with
  | some f => resendFlit b p f bad
  | none =>
  if 2048 ≤ pt.replay.length then modPort b p (fun pt => idleFlit (ageHeads pt none))
  else
    let data := if pt.st = .up then dataPick b p else none
    let heads := classHeads pt 0 ++ classHeads pt 2
    let b := if heads.any (fun e => !credRoom pt e.vc e.pkt) then count b (.port p) 0x06 1 none else b
    match sweepPick pt, data with
    | some e, none => forwardPkt (modPort b p (fun pt => ageHeads pt none)) p e 0
    | some e, some d =>
      if pt.swGap = 0 then forwardPkt (modPort b p (fun pt => ageHeads pt none)) p e 0
      else forwardPkt (modPort b p (fun pt => ageHeads pt (some d))) p d bad
    | none, some d => forwardPkt (modPort b p (fun pt => ageHeads pt (some d))) p d bad
    | none, none => modPort b p (fun pt => idleFlit (ageHeads pt none))

/-- An output port in dead ball: its STOP goes when it is UP, then idle flits only (R304). -/
def deadSend (b : Block) (p : Nat) : Block :=
  let pt := getPort b p
  match (if pt.st = .up && !pt.stopSent then pt.outQ.find? (fun e => pktType e.pkt = 10) else none) with
  | some e => sendFlit b p e e.pkt
  | none => modPort b p idleFlit

/-- PACKET_FORWARD (R286 to R293): An output port sends one flit. `bad` are the units beyond correction of the packet that
leaves the pool or the replay buffer. -/
def execPacketForward (p : Nat) (bad : BitVec 10) (s : State) : Host.Outcome State Fault Refusal :=
  effect (fun _ b =>
    let st := (getPort b p).st
    if !(hubOn b && p < 4 && (st = .up || st = .sync)) then b
    else if isDead b then deadSend b p
    else if linkOk b then portSend b p bad.toNat else b) s

/-! ## Flits received (R284, R286, R287) -/

/-- Distance of sequence numbers. -/
def seqDist (a c : BitVec 16) : Nat := (c - a).toNat

/-- ACK is taken: acknowledged flits leave the replay buffer. -/
def takeAck (pt : Port) (ack : BitVec 16) : Port :=
  let d := seqDist pt.txAcked ack
  if d = 0 ∨ seqDist pt.txAcked (pt.txNext - 1) < d then pt
  else
    let gone := pt.replay.filter (fun f => seqDist pt.txAcked f.seq ≤ d)
    { pt with txAcked := ack, resends := 0, replay := pt.replay.filter (fun f => d < seqDist pt.txAcked f.seq),
              replayed := pt.replayed - gone.length }

/-- Credits are taken. -/
def takeCredit (pt : Port) (crvc credits : Nat) : Port :=
  if crvc < 6 then { pt with credits := pt.credits.modify crvc (· + credits) } else pt

/-- The transmitter begins to resend what is not acknowledged; after REPLAY_MAX resends in a row the port goes DOWN (R286).
[DEDUCED: log 41] -/
def resend (b : Block) (p : Nat) : Block :=
  let pt := getPort b p
  if pt.replay = [] then b
  else if rbits b (lportB p + 0x44) 19 16 ≤ pt.resends then portDown b p 3
  else
    let b := setPort b p { pt with resends := pt.resends + 1, replayed := 0 }
    count (rcount b (lportB p + 0x4C) 1) (.port p) 0x04 1 none

/-- A flit is discarded and counted; NAK goes out once until REPLAY_TMO has passed. [DEDUCED: log 42] -/
def flitBad (b : Block) (p : Nat) : Block :=
  let b := modPort b p (fun pt => { pt with nak := pt.nak || !pt.nakSent })
  count (rcount b (lportB p + 0x48) 1) (.port p) 0x05 1 none

/-- REPLAY_TMO has passed without an advance of ACK: the transmitter resends, and a receiver that misses a flit may set NAK
again. [DEDUCED: log 41] -/
def execReplayTimeout (p : Nat) (s : State) : Host.Outcome State Fault Refusal :=
  effect (fun _ b =>
    if linkOk b && p < 4 && ((getPort b p).st = .up || (getPort b p).st = .sync) then resend (modPort b p (fun pt => { pt with nakSent := false })) p
    else b) s

end Sys2Proof.Machine
end

