-- ==== Sys2Proof/Machine/Gops.lean ====
section
/-! DEFINITION. Global operations (R307 to R313): the slots' trees, their sweeper packets, snapshot freezes, link resets. -/
namespace Sys2Proof.Machine

/-! ## Slot settings (R307, R316) -/

def gopEn (b : Block) (s : Nat) : Bool := rbit b (gopR s 0) 0
def gopKind (b : Block) (s : Nat) : Nat := rbits b (gopR s 0) 2 1
def gopOrigin (b : Block) (s : Nat) : Bool := rbit b (gopR s 0) 3
def gopIn (b : Block) (s : Nat) : Nat := rbits b (gopR s 4) 14 0
def gopOut (b : Block) (s : Nat) : Nat := rbits b (gopR s 0x10) 14 0
def gopAddr (b : Block) (s : Nat) : Nat := rget64 b (gopR s 0x20)

/-- Threshold of an epoch (R307). -/
def gopThr (b : Block) (s : Nat) : Nat :=
  (rget64 b (gopR s 8) + rbits b (gopR s 4) 31 16 * (getGop b s).epoch.toNat) % 2 ^ 48

/-- A broadcast on a chip without ORIGIN ignores IN_TALLY (R308, R310). -/
def gopArrives (b : Block) (s : Nat) : Bool := gopKind b s ≠ 1 || gopOrigin b s

/-- Parity of the slot's epoch. -/
def gopPar (g : Gop) : Nat := g.epoch.toNat % 2

/-- A running slot. -/
def gopLive (g : Gop) : Bool := g.st = .armed || g.st = .gather || g.st = .release

/-! ## Sweeper packets (R289) -/

def swSlot (h : Nat) : Nat := bits h 10 8
def swKind (h : Nat) : Nat := bits h 12 11
def swPar (h : Nat) : Nat := bits h 13 13
def swFail (h : Nat) : Bool := bit h 14
def swOrigin (h : Nat) : Nat := bits h 24 15

/-- A resume is marked by bit 0 of H1 of a reset's GDOWN. [DEDUCED: log 45] -/
def swResume (h1 : Nat) : Bool := bit h1 0

def mkSweep (typ s kind par : Nat) (fail : Bool) (origin h1 : Nat) : Packet :=
  { h0 := BitVec.ofNat 64 (typ + s % 8 * 2 ^ 8 + kind % 4 * 2 ^ 11 + par % 2 * 2 ^ 13 + b2n fail * 2 ^ 14 + origin % 1024 * 2 ^ 15),
    h1 := BitVec.ofNat 64 h1, mask := 0, data := 0 }

/-- Put a sweeper packet in a port's queue. -/
def sendSweep (b : Block) (p : Nat) (k : Packet) : Block := modPort b p (fun pt => { pt with outQ := pt.outQ ++ [⟨4, 4, k, []⟩] })

/-! ## The tree of an operation (R307) -/

/-- Ports of this chip that the topology uses. -/
def usedPorts (b : Block) : List Nat := (List.range 4).filter (portNeeded b)

/-- Children toward a root: the neighbours whose next hop to it is this chip. -/
def gopChildren (b : Block) (root : Nat) : List Nat :=
  (usedPorts b).filter (fun p =>
    let c := neighbour b (myX b) (myY b) p
    c ≠ myChip b && routeFrom b (c % 32) (c / 32) root = some (cabledPort b p))

/-- Parent: the next hop to the root; none at the root. -/
def gopParent (b : Block) (root : Nat) : Option Nat := routePort b root

/-- Every port of a list takes packets. -/
def portsUp (b : Block) (l : List Nat) : Bool := l.all (fun p => portOpen (getPort b p))

/-- A waiter of a slot leaves every tally. -/
def gopUnwait (b : Block) (s : Nat) : Block :=
  { b with tallies := b.tallies.map (fun e => (e.1, { e.2 with waiters := e.2.waiters.filter (fun w => w.kind ≠ .gop s) })) }

/-- The root of an operation at a chip that fails it: the one it knows, or the origin that a packet of the epoch names (R289,
R313). -/
def failRoot (g : Gop) (kind : Nat) : Option Nat :=
  match g.root with
  | some r => some r
  | none => (((g.downs.map (·.2.1)) ++ g.ups.map (·.2)).find? (fun h => swPar h.toNat = gopPar g && swKind h.toNat = kind)).map
      (fun h => swOrigin h.toNat)

/-- The operation fails at this chip (R313): FAILED, an event of LINK0, FAIL on the tree ports that are UP. What has been recorded
for it goes; packets that come later are recorded. [DEDUCED: log 48] -/
def gopFail (b : Block) (s cause : Nat) : Block :=
  let g := getGop b s
  let par := gopPar g
  let kind := gopKind b s
  let b := gopUnwait (setGop b s { g with st := .failed, acq := .none, reading := false, ups := [], downs := [] }) s
  let b := portEv b 0 0x4D cause
  match failRoot g kind with
  | none => b
  | some r =>
    let b := match gopParent b r with
      | some p => if portOpen (getPort b p) then sendSweep b p (mkSweep 8 s kind par true r 0) else b
      | none => b
    forEach (gopChildren b r) b (fun b p =>
      if portOpen (getPort b p) then sendSweep b p (mkSweep 9 s kind par true r 0) else b)

/-- Root of an operation that the chip knows from the start. -/
def gopRoot (b : Block) (s : Nat) : Option Nat :=
  if gopKind b s = 0 ∨ gopKind b s = 2 then some (rbits b (linkB + 0x4C) 9 0)
  else if gopOrigin b s then some (myChip b) else none

/-- The slot arms for its epoch: it waits for its acquire on IN_TALLY (R307). A poisoned tally fails the operation. -/
def gopArm (b : Block) (s : Nat) : Block :=
  let b := modGop b s (fun g => { g with st := .armed, acq := .none, root := gopRoot b s, upSent := false, frozen := false,
                                         pendWr := false, reading := false, acted := false, settled := false })
  if !gopArrives b s then b
  else if (getTal b (gopIn b s)).poison then gopFail b s 5
  else
    let b := modGop b s (fun g => { g with acq := .armed (gopIn b s) (gopThr b s) 2 })
    addWaiter b (gopIn b s) { kind := .gop s, stn := 0, strand := 0, thr := gopThr b s, scope := .system }

/-- The operation completes: OUT_TALLY gains 1, a release settled at SYSTEM that covers no writes, and the epoch advances. -/
def gopComplete (b : Block) (s : Nat) : Block :=
  let b := pushAdd b { src := .gop, tally := gopOut b s, amount := 1, stn := none, declared := .system, settled := .system,
                       ack := none }
  let par := gopPar (getGop b s)
  let b := gopUnwait (modGop b s (fun g => { g with
    st := .idle, acq := .none, epoch := g.epoch + 1, ups := g.ups.filter (fun e => swPar e.2.toNat ≠ par),
    downs := g.downs.filter (fun e => swPar e.2.1.toNat ≠ par) })) s
  if gopEn b s then gopArm b s else b

/-! ## Snapshots (R311, R399) -/

/-- The record of a snapshot. -/
def snapRecord (b : Block) (s : Nat) : List DWord :=
  let port := fun p => BitVec.ofNat 64 ((getPort b p).sent % 2 ^ 32 + (getPort b p).received % 2 ^ 32 * 2 ^ 32)
  [BitVec.ofNat 64 (myChip b + (getGop b s).epoch.toNat * 2 ^ 32), BitVec.ofNat 64 b.aoTime, port 0, port 1, port 2, port 3, 0, 0]

/-- A counter freeze whose T_f is this instant. -/
def snapCounters (b : Block) : Block := { rsetBits b (hcntB + 0x40) 3 with frzTime := b.aoTime }

/-- The chip freezes for a snapshot: counters, record, colour. [DEDUCED: log 49] -/
def snapFreeze (b : Block) (s : Nat) : Block :=
  if (getGop b s).frozen then b
  else
    let b := modGop b s (fun g => { g with frozen := true, pendWr := true, record := snapRecord b s })
    let b := count b .hub 0x0D 64 none
    let b := hubPost (snapCounters b) (.gop s)
    { b with colour := !b.colour }

/-- The enabled snapshot slot. [DEDUCED: log 49] -/
def snapSlot (b : Block) : Option Nat :=
  (List.range 8).find? (fun s => gopEn b s && gopKind b s = 2 && gopLive (getGop b s))

/-! ## Resets (R312) -/

/-- A read burst of a station through a window ends: its bytes arrive, or poisoned with a fault (R298). [DEDUCED: log 44] -/
def winReadEnd (b : Block) (n tag resp data poison : Nat) (cause : Nat) : Block :=
  let st := getStn b n
  match tget st.wRdTags tag with
  | none => dropPkt b
  | some rq =>
    let b := setStn b n { st with wRdTags := tdel st.wRdTags tag }
    match rq.agent with
    | .link .. => b
    | .op k id opd =>
      if st.stopCode ≠ 0 ∨ st.power ≠ .active then discardRsp b n
      else
        let b := if resp = 1 then
            match findOp b n k id with
            | some o => offside b n k o rq.va false false
            | none => b
          else b
        let bad := fun (i : Nat) => resp ≠ 0 || poison.testBit (i / 64)
        let fault := if resp = 1 then none else if resp ≠ 0 then some (rq.va, cause, false)
          else if poison % 4 ≠ 0 then some (rq.va, 1, false) else none
        opReadBack b n k id opd .window rq.va rq.mask data bad fault

/-- A write burst of a station through a window ends: it lands, or fails and counts as landed (R298, R299). [DEDUCED: log 44] -/
def winWriteEnd (p : Params) (b : Block) (n tag resp cause : Nat) : Block :=
  let st := getStn b n
  match tget st.wWrTags tag with
  | none => dropPkt b
  | some w =>
    let b := setStn b n { st with wWrTags := tdel st.wWrTags tag }
    if resp = 0 then wrLanded p b n w
    else if resp = 1 then
      let b := match w.agent with
        | .op k id _ => (match findOp b n k id with
          | some o => offside b n k o w.va true false
          | none => b)
        | .link .. => b
      wrLanded p b n w
    else wrFailed p b n w w.va cause

/-- Every outstanding window tag of a station is answered DOWN. -/
def answerDown (p : Params) (b : Block) (n : Nat) : Block :=
  let b := forEach ((getStn b n).wRdTags.map (·.1)) b (fun b t => winReadEnd b n t 3 0 0 4)
  forEach ((getStn b n).wWrTags.map (·.1)) b (fun b t => winWriteEnd p b n t 3 4)

/-- Every data packet in the engine is discarded. -/
def dropData (b : Block) : Block :=
  let b := forEach (List.range 5) b (fun b p =>
    let pt := getPort b p
    let n := ((heldPkts pt).filter pktData).length + pt.inQ.length
    rcount (setPort b p { pt with inQ := [], outQ := pt.outQ.filter (fun e => !pktData e.pkt), rxPart := []
                                  replay := pt.replay.map (fun f => { f with pkts := f.pkts.filter (fun k => !pktData k) }) })
      (linkB + 0x50) n)
  forEach (b.stations.map (·.1)) b (fun b n =>
    rcount (modStn b n (fun st => { st with inQ := [] })) (linkB + 0x50) (getStn b n).inQ.length)

/-- A port that is not OFF retrains, from SYNC, or from TRAIN when it was DOWN or STOPPED; GDOWN goes out on it. An UP port sends
it as the last flit of its connection, so that the partner takes it; another sends it behind its HELLO. [DEDUCED: log 45]
[DEDUCED: log 46] -/
def retrain (s root : Nat) (par : Nat) (b : Block) (p : Nat) : Block :=
  let pt := getPort b p
  let e : OutPkt := ⟨4, 4, mkSweep 9 s 3 par false root 0, []⟩
  if pt.st = .off ∨ pt.fenced then b
  else if pt.st = .down ∨ pt.st = .stopped then setPort b p { freshPort pt .train [e] with inQ := pt.inQ }
  else if pt.st = .train then setPort b p { pt with outQ := [e] }
  else if pt.st = .up then portSync (sendFlit b p e e.pkt) p []
  else portSync b p [e]

/-- This chip acts on a reset: it holds its stations' window bursts, answers their tags, empties the engine and retrains.
[DEDUCED: log 45] -/
def resetAct (p : Params) (b : Block) (s root : Nat) : Block :=
  let par := gopPar (getGop b s)
  let b := modGop b s (fun g => { g with acted := true, root := some root, st := .gather })
  let b := { b with linkReset := true }
  let b := dropData (forEach (b.stations.map (·.1)) b (answerDown p))
  forEach (List.range 4) b (retrain s root par)

/-! ## Progress of a slot -/

/-- Ports from which the GUPs of the epoch are recorded. -/
def gupFrom (g : Gop) : List Nat := (g.ups.filter (fun e => swPar e.2.toNat = gopPar g)).map (·.1)

/-- The epoch's GDOWN: port, H0 and H1. H1 is a value to a broadcast, and marks the resume of a reset (R289, R312). -/
def gdownOf (g : Gop) (kind : Nat) (resume : Bool) : Option (Nat × DWord × DWord) :=
  g.downs.find? (fun e => swPar e.2.1.toNat = gopPar g && (kind ≠ 3 || swResume e.2.2.toNat == resume))

/-- A recorded packet fails the operation: another kind, or FAIL. -/
def gopBadPkt (g : Gop) (kind : Nat) : Bool :=
  let bad := fun (h : DWord) => swKind h.toNat ≠ kind || (swPar h.toNat = gopPar g && swFail h.toNat)
  g.ups.any (fun e => bad e.2) || g.downs.any (fun e => bad e.2.1)

/-- Send to every child, or fail where a child port is not UP. -/
def toChildren (b : Block) (s root : Nat) (k : Packet) (go : Block → Block) : Block :=
  let l := gopChildren b root
  if portsUp b l then go (forEach l b (fun b p => sendSweep b p k)) else gopFail b s 5

/-- The release of a barrier or snapshot at this chip (R309, R311). -/
def gopRelease (b : Block) (s root : Nat) : Block :=
  let g := getGop b s
  toChildren b s root (mkSweep 9 s (gopKind b s) (gopPar g) false root 0) (fun b =>
    if gopKind b s = 0 then gopComplete b s
    else modGop (snapFreeze b s) s (fun g => { g with st := .release }))

/-- GUP goes to the parent, once. -/
def gopUp (b : Block) (s root : Nat) : Block :=
  match gopParent b root with
  | none => b
  | some p =>
    if portOpen (getPort b p) then
      sendSweep (modGop b s (fun g => { g with upSent := true })) p (mkSweep 8 s (gopKind b s) (gopPar (getGop b s)) false root 0)
    else gopFail b s 5

/-- Barrier and snapshot: children first, then the parent's GDOWN (R309). -/
def gatherStep (b : Block) (s root : Nat) : Block :=
  let g := getGop b s
  if !(gopChildren b root).all (fun p => (gupFrom g).contains p) then b
  else if gopParent b root = none then gopRelease b s root
  else if !g.upSent then gopUp b s root
  else if (gdownOf g 0 false).isSome then gopRelease b s root else b

/-- A broadcast value reaches a chip: it goes on to the children and is written at GOP_ADDR (R310). [DEDUCED: log 47] -/
def castStep (b : Block) (s : Nat) : Block :=
  match gdownOf (getGop b s) 1 false with
  | none => b
  | some (_, h0, h1) =>
    let root := swOrigin h0.toNat
    let b := modGop b s (fun g => { g with root := some root, value := h1 })
    toChildren b s root (mkSweep 9 s 1 (gopPar (getGop b s)) false root h1.toNat) (fun b =>
      hubPost (count (modGop b s (fun g => { g with st := .release, pendWr := true })) .hub 0x0D 8 none) (.gop s))

/-- A reset at a chip (R312). -/
def resetStep (p : Params) (b : Block) (s : Nat) : Block :=
  let g := getGop b s
  if !g.acted then
    if gopOrigin b s then (if g.st = .gather then resetAct p b s (myChip b) else b)
    else match gdownOf g 3 false with
      | some (_, h0, _) => resetAct p b s (swOrigin h0.toNat)
      | none => b
  else match g.root with
  | none => b
  | some root =>
    let resume := mkSweep 9 s 3 (gopPar g) false root 1
    let finish := fun b => toChildren b s root resume (fun b => gopComplete { b with linkReset := false } s)
    if g.upSent then (if (gdownOf g 3 true).isSome then finish b else b)
    else if g.settled && (gopChildren b root).all (fun p => (gupFrom g).contains p) then
      if gopParent b root = none then finish b else gopUp b s root
    else b

/-- One step of a slot. -/
def gopStep (p : Params) (b : Block) (s : Nat) : Block :=
  let g := getGop b s
  let kind := gopKind b s
  if !gopLive g then b
  else if gopBadPkt g kind then gopFail b s 5
  else match kind with
  | 1 =>
    if g.st = .armed && !gopOrigin b s then castStep b s
    else if g.st = .release && !g.pendWr then gopComplete b s else b
  | 3 => resetStep p b s
  | _ =>
    if g.st = .gather then (match g.root with
      | some r => gatherStep b s r
      | none => b)
    else if g.st = .release && !g.pendWr then gopComplete b s else b

/-- A slot goes as far as it can. [DEDUCED: log 48] -/
def gopRun (p : Params) (b : Block) (s : Nat) : Block := gopStep p (gopStep p (gopStep p (gopStep p b s) s) s) s

/-! ## Events of a slot -/

/-- The chip arrives at the epoch (R307): a broadcast's origin reads its value, a reset's origin begins. -/
def gopArrive (p : Params) (b : Block) (s : Nat) : Block :=
  let g := getGop b s
  match g.acq with
  | .acquiring a =>
    if g.st = .armed && acqSettled b a then
      let b := modGop b s (fun g => { g with st := .gather, acq := .done, reading := gopKind b s = 1 })
      gopRun p b s
    else b
  | _ => b

/-- GOP_ARRIVE (R307): A chip's acquire on IN_TALLY completes for the slot's epoch. -/
def execGopArrive (s : Nat) (st : State) : Host.Outcome State Fault Refusal :=
  effect (fun p b => if linkOk b && s < 8 then gopArrive p b s else b) st

/-- A sweeper packet is recorded, whatever EN (R307). A FAIL for a slot that has failed already, and a later copy of a reset's
GDOWN, change nothing. [DEDUCED: log 38] [DEDUCED: log 48] -/
def gupIn (p : Params) (b : Block) (port : Nat) (h0 : DWord) : Block :=
  let s := swSlot h0.toNat
  let g := getGop b s
  if g.st = .failed ∧ swFail h0.toNat then b else gopRun p (setGop b s { g with ups := g.ups ++ [(port, h0)] }) s

/-- A GDOWN that arrives at its slot (R308 to R312). [DEDUCED: log 38] -/
def gdownIn (p : Params) (b : Block) (port : Nat) (h0 h1 : DWord) : Block :=
  let s := swSlot h0.toNat
  let g := getGop b s
  if (g.st = .failed ∧ swFail h0.toNat) ∨ (g.acted ∧ swKind h0.toNat = 3 ∧ !swResume h1.toNat ∧ !swFail h0.toNat) then b
  else gopRun p (setGop b s { g with downs := g.downs ++ [(port, h0, h1)] }) s

/-- A port whose flits are taken: UP, or retraining in SYNC. -/
def portLinked (pt : Port) : Bool := pt.st = .up || pt.st = .sync

/-- GUP (R309): A global operation packet moving toward the root arrives from a child. -/
def execGup (p : Nat) (h0 _h1 : DWord) (s : State) : Host.Outcome State Fault Refusal :=
  effect (fun pr b => if linkOk b && p < 4 && portLinked (getPort b p) then gupIn pr b p h0 else b) s

/-- GDOWN (R309): A global operation packet moving away from the root arrives from the parent. -/
def execGdown (p : Nat) (h0 h1 : DWord) (s : State) : Host.Outcome State Fault Refusal :=
  effect (fun pr b => if linkOk b && p < 4 && portLinked (getPort b p) then gdownIn pr b p h0 h1 else b) s

/-- The origin's value has been read: it is held, goes to the children, and the origin's part is over (R310). [DEDUCED:
log 47] -/
def castRead (b : Block) (s : Nat) (v : DWord) (err : Bool) : Block :=
  let g := getGop b s
  if !g.reading then b
  else if err then gopFail b s 0
  else
    let root := myChip b
    let b := count (setGop b s { g with reading := false, value := v }) .hub 0x0C 8 none
    toChildren b s root (mkSweep 9 s 1 (gopPar g) false root v.toNat) (fun b => gopComplete b s)

/-- BROADCAST_READ_DONE (R310): The origin's 8-byte broadcast value returns and GDOWN is sent. -/
def execBroadcastReadDone (s : Nat) (v : DWord) (err : Bool) (st : State) : Host.Outcome State Fault Refusal :=
  effect (fun p b => if linkOk b && s < 8 then gopRun p (castRead b s v err) s else b) st

/-- During a reset this chip's ports have settled: none is in training. -/
def execGopResetSettled (s : Nat) (st : State) : Host.Outcome State Fault Refusal :=
  effect (fun p b =>
    if linkOk b && s < 8 && (getGop b s).acted && (List.range 4).all (fun i => !portTraining (getPort b i).st) then
      gopRun p (modGop b s (fun g => { g with settled := true })) s
    else b) st

/-- GOP_TMO has passed between the slot's arrival and its completion. -/
def execGopTimeout (s : Nat) (st : State) : Host.Outcome State Fault Refusal :=
  effect (fun _ b =>
    if linkOk b && s < 8 && ((getGop b s).st = .gather || (getGop b s).st = .release) then gopFail b s 3 else b) st

/-- The value or record write of a slot has landed, or failed. -/
def gopWritten (p : Params) (b : Block) (s : Nat) (ok : Bool) : Block :=
  let b := modGop b s (fun g => { g with pendWr := false })
  if ok then gopRun p b s else if gopLive (getGop b s) then gopFail b s 0 else b

/-- A write of EN of a slot whose fields pass R308: a second snapshot slot stores 0; EN = 0 leaves a slot that has not
arrived; EN = 0 then 1 returns a FAILED slot to its epoch (R313). [DEDUCED: log 48] -/
def gopSetEn (p : Params) (b : Block) (s : Nat) (on : Bool) : Block :=
  let was := gopEn b s
  let g := getGop b s
  if on then
    if was then b
    else if gopKind b s = 2 ∧ (List.range 8).any (fun i => i ≠ s && gopEn b i && gopKind b i = 2) then b
    else
      let b := rsetBits b (gopR s 0) 1
      if g.st = .failed then gopRun p (gopArm b s) s
      else if g.st = .idle then gopRun p (gopArm b s) s else b
  else
    let b := rclrBits b (gopR s 0) 1
    if g.st = .armed then gopUnwait (modGop b s (fun g => { g with st := .idle, acq := .none })) s else b

/-- The tally fields that R308 checks; the first that names no tally. -/
def gopBadTally (p : Params) (b : Block) (s : Nat) : Option Nat :=
  if !talExists p (gopOut b s) then some (gopOut b s)
  else if gopArrives b s && !talExists p (gopIn b s) then some (gopIn b s) else none

end Sys2Proof.Machine
end

