-- ==== Sys2Proof/Machine/Packets.lean ====
section
/-! DEFINITION. Flits and packets that arrive (R286 to R289, R296, R298 to R300, R311), and the writes of the hub's far port
that complete (R428). -/
namespace Sys2Proof.Machine

/-! ## Arrival of a flit -/

/-- A sweeper packet arrives: it is consumed at once (R292). A port that retrains takes those of a reset in SYNC as well (R312).
-/
def sweepIn (pr : Params) (b : Block) (p : Nat) (k : Packet) : Block :=
  match pktType k with
  | 11 => helloIn b p k.h0.toNat
  | 10 => stopIn b p
  | 8 => gupIn pr b p k.h0
  | _ => gdownIn pr b p k.h0 k.h1

/-- A packet of another chip goes to its output, keeping its units in the pool; a port that takes none is R303's. -/
def transit (b : Block) (p vc : Nat) (k : Packet) (pools : List Nat) (o : Nat) : Block :=
  if portOpen (getPort b o) then
    modPort b o (fun pt => { pt with outQ := pt.outQ ++ [⟨p, hopVc b p vc o k, k, pools⟩] })
  else lostPkt (poolFree b p pools) k

/-- A data packet arrives: a new colour freezes the chip first (R311), then it is counted and routed. -/
def dataIn (b : Block) (p vc : Nat) (k : Packet) (pools : List Nat) : Block :=
  let b := if pktColour k = b.colour then b else match snapSlot b with
    | some s => snapFreeze b s
    | none => b
  let b := modPort b p (fun pt => { pt with received := (pt.received + 1) % 2 ^ 32 })
  match routePort b (pktDchip k) with
  | some o => transit b p vc k pools o
  | none => modPort b p (fun pt => { pt with inQ := pt.inQ ++ [⟨vc, k, latchWin b k, pools⟩] })

/-- One packet that is whole (R289). -/
def pktIn (pr : Params) (b : Block) (p vc : Nat) (k : Packet) (pools : List Nat) : Block :=
  if pktBad k then portEv (dropPkt (poolFree b p pools)) p 0x4C 5
  else if !pktData k then sweepIn pr (poolFree b p pools) p k
  else if (getPort b p).st ≠ .up then dropPkt (poolFree b p pools)
  else dataIn b p vc k pools

/-- ACK, credits and NAK of a good flit are taken. -/
def takeLcw (b : Block) (p raw : Nat) : Block :=
  let b := modPort b p (fun pt => takeCredit (takeAck pt (lcwAck raw)) (lcwCrvc raw) (lcwCredits raw))
  let b := count b (.port p) 0x03 1 none
  if lcwNak raw then resend b p else b

/-- The units of an accepted flit join its channel's stream, and the packets that are whole arrive (R288). -/
def bodyIn (pr : Params) (b : Block) (p raw : Nat) : Block :=
  let vc := lcwVc raw
  let l := tgetD (getPort b p).rxPart vc [] ++ (flitUnits raw).map (fun u => (u, if lcwShared raw then 5 else vc))
  let (ps, rest) := cutPackets l.length l
  let b := modPort b p (fun pt => { pt with rxPart := if rest = [] then tdel pt.rxPart vc else tput pt.rxPart vc rest })
  forEach ps b (fun b e => pktIn pr b p vc e.1 e.2)

/-- A flit arrives (R285, R286): with a wrong CRC, marked by the PHY, with a reserved field set, or with another sequence number
than the next it is discarded. [DEDUCED: log 42] -/
def flitIn (pr : Params) (b : Block) (p raw : Nat) (marked : Bool) : Block :=
  let pt := getPort b p
  if pt.st ≠ .up ∧ pt.st ≠ .sync then b
  else if marked || bits raw 2047 1984 ≠ flitCrc raw || lcwBad raw then flitBad b p
  else if lcwVc raw = 7 then takeLcw b p raw
  else if lcwSeq raw ≠ pt.rxNext then flitBad b p
  else bodyIn pr (takeLcw (setPort b p { pt with rxNext := pt.rxNext + 1, nak := false, nakSent := false }) p raw) p raw

/-- FLIT_RECEIVE (R286): A flit arrives, is checked by CRC and sequence, and its ACK, NAK and credits are taken. In dead ball
every arrival is discarded (R304). A second flit presented without a first is not there, and is counted (R434). -/
def execFlitReceive (p : Nat) (raw : SLine) (marked lone : Bool) (s : State) : Host.Outcome State Fault Refusal :=
  effect (fun pr b =>
    if !linkOk b || decide (4 ≤ p) then b
    else if lone then rcount b (lportB p + 0x48) 1
    else flitIn pr b p raw.toNat marked) s

/-! ## Packets that terminate here -/

/-- The first packet of a type in a port's queue leaves it, with what is lost of it in the pool (R287); none when there is no
such packet. -/
def takeIn (b : Block) (p typ bad : Nat) : Option ((InPkt × Option Packet) × Block) :=
  match (getPort b p).inQ.find? (fun e => pktType e.pkt = typ) with
  | none => none
  | some e =>
    let b := modPort b p (fun pt => { pt with inQ := pt.inQ.erase e })
    some ((e, spoil e.pkt (if e.pools = [] then 0 else bad)), if p < 4 then count b (.port p) 0x08 1 none else b)

/-- The inbound window refuses an access as OFFSIDE (R296). -/
def inOffside (pr : Params) (k : Packet) (l : Nat) : Bool :=
  let c := winCtl l
  !bit c 0 || (if pktType k = 0 then !bit c 1 else !bit c 2) || (bit c 6 && pktSchip k ≠ bits c 25 16) ||
    decide (winLen l < pktOff k + 128) ||
    (winScratch l && decide (winStn l < pr.stations) && decide (pr.tileSize.getD (winStn l) 0 < winBase l + pktOff k + 128))

/-- The station that a window names cannot perform the access (R296). -/
def inUnavail (pr : Params) (b : Block) (k : Packet) (l : Nat) : Bool :=
  let n := winStn l
  decide (pr.stations ≤ n) || stnFenced b n ||
    (winScratch l && (if pktType k = 0 then nearOwn b n &&& nearWrs b n = 0 else clearBits (nearOwn b n) (nearWrs b n) = 0))

/-- A request terminates here: refused, or left to the station's link agent, where it takes its place in station order (R236);
a station that sleeps is thawed. -/
def requestIn (pr : Params) (b : Block) (p typ bad : Nat) : Block :=
  match takeIn b p typ bad with
  | none => b
  | some ((e, none), b) => badHeader (poolFree b p e.pools) p
  | some ((e, some k), b) =>
    if inOffside pr k e.win then linkRefuse (poolFree b p e.pools) k 1
    else if inUnavail pr b k e.win then linkRefuse (poolFree b p e.pools) k 4
    else
      let n := winStn e.win
      reqThaw (modStn b n (fun st => { st with inQ := st.inQ ++ [⟨p, k, e.win, st.nextOrd, e.pools⟩],
                                               nextOrd := st.nextOrd + 1 })) n

/-- WR (R299): A window write packet arriving at the receiving chip is checked against its inbound window and performed.
`bad` are its units that the pool's corrector found beyond correction (R287). -/
def execWr (p : Nat) (bad : BitVec 10) (s : State) : Host.Outcome State Fault Refusal :=
  effect (fun pr b => if linkOk b && p < 5 then requestIn pr b p 0 bad.toNat else b) s

/-- RD (R300): A proxy read packet arriving at the receiving chip is checked and read by station STN. -/
def execRd (p : Nat) (bad : BitVec 10) (s : State) : Host.Outcome State Fault Refusal :=
  effect (fun pr b => if linkOk b && p < 5 then requestIn pr b p 1 bad.toNat else b) s

/-- Spine lane bytes to a station. -/
def laneTo (b : Block) (n amt : Nat) : Block := count b (.station n) 0x18 amt none

/-- A write completion arrives (R298, R299); an unknown tag is discarded and counted. -/
def wackIn (pr : Params) (b : Block) (p bad : Nat) : Block :=
  match takeIn b p 2 bad with
  | none => b
  | some ((e, none), b) => badHeader (poolFree b p e.pools) p
  | some ((e, some k), b) =>
    let b := poolFree b p e.pools
    if 1024 ≤ pktTag k then dropPkt b else winWriteEnd pr b (pktSstn k) (pktTag k) (pktResp k) 4

/-- WACK (R299): A write completion packet arrives and the window write lands at the requester. -/
def execWack (p : Nat) (bad : BitVec 10) (s : State) : Host.Outcome State Fault Refusal :=
  effect (fun pr b => if linkOk b && p < 5 then wackIn pr b p bad.toNat else b) s

/-- A read response arrives (R300). -/
def rdataIn (b : Block) (p bad : Nat) : Block :=
  match takeIn b p 3 bad with
  | none => b
  | some ((e, none), b) => badHeader (poolFree b p e.pools) p
  | some ((e, some k), b) =>
    let b := poolFree b p e.pools
    if pktTag k < 1024 then dropPkt b
    else winReadEnd (laneTo b (pktSstn k) 128) (pktSstn k) (pktTag k - 1024) (pktResp k) k.data.toNat (pktPoison k) 4

/-- RDATA (R300): A read response packet arrives and its line is delivered as the burst's read data. -/
def execRdata (p : Nat) (bad : BitVec 10) (s : State) : Host.Outcome State Fault Refusal :=
  effect (fun _ b => if linkOk b && p < 5 then rdataIn b p bad.toNat else b) s

/-- A proxy read has had no response for RD_TMO: its tag is free and its bytes come poisoned. -/
def execRdTimeout (n tag : Nat) (s : State) : Host.Outcome State Fault Refusal :=
  effect (fun _ b => if (tget (getStn b n).wRdTags tag).isSome then winReadEnd b n tag 2 0 0 3 else b) s

/-! ## Write completions -/

/-- A write of the hub far port has completed (R60, R66, R310, R311). -/
def hubWriteBack (p : Params) (b : Block) (tag : Nat) (ok : Bool) : Block :=
  match tget b.hubWr tag with
  | none => b
  | some (.status n c idx) => statusBack p b n c idx tag ok
  | some (.gop s) => if isDead b then hubFree b tag else gopWritten p (hubFree b tag) s ok

/-- A far-port write completes: a station's, or the hub's. -/
def execWriteCompletion (n : Option Nat) (tag : Nat) (code : BitVec 2) (s : State) : Host.Outcome State Fault Refusal :=
  effect (fun p b => match n with
    | some n => writeBack p b n tag (code = 0)
    | none => if hubOn b then hubWriteBack p b tag (code = 0) else b) s

/-! ## Poisoned tallies (R255) -/

/-- A waiter of a poisoned tally stops its strand, or fails its slot. [DEDUCED: log 27] -/
def poisonWaiter (b : Block) (w : Waiter) : Block :=
  match w.kind with
  | .gop s => gopFail b s 5
  | .wait => tick (reqThaw (stopAt b w.stn w.strand ((getStrand b w.stn w.strand).pc - 16) 0x15) w.stn) w.stn w.strand
  | _ => match guardOp (getStrand b w.stn w.strand) with
    | some o => tick (guardExpire b w.stn w.strand o) w.stn w.strand
    | none => b

/-- Address of a tally's TAL_VAL (R257). -/
def talValAddr (t : Nat) : Nat := talPage t + 0x800 + 8 * (t % 256)

/-- The error of a tally value beyond correction: the page's PARITY with its capture, an event, and the waiters stop. -/
def talPoison (b : Block) (t : Nat) : Block :=
  let x := getTal b t
  let b := setTal b t { x with waiters := [], poison := true }
  let b := pageErr b (talPage t) 7 (talValAddr t) 0
  let b := signalEv b ((talStn t).getD srcCfg) 0x46 noUnit (talValAddr t) (5 * 2 ^ 32)
  let b := rcount b (talPage t + 0x44) 1
  forEach x.waiters b poisonWaiter

/-- TALLY_POISON (R255): An uncorrectable tally value error poisons the tally and stops its waiters. -/
def execTallyPoison (t : Nat) (s : State) : Host.Outcome State Fault Refusal :=
  effect (fun p b => if talExists p t then talPoison b t else b) s

end Sys2Proof.Machine
end

