-- ==== Sys2Proof/Machine/Vault.lean ====
section
/-! DEFINITION. The weight vault (R320 to R343): positions and objects, codeword reads and the rally, writes, padding and
programming, the commands of VT_CMD, scrubbing, refresh and bad blocks. -/
namespace Sys2Proof.Machine

/-! ## Layout (R322, R323) -/

def cwBytes : Nat := 4096
/-- Codewords of a segment. -/
def segCws (c : Nat) : Nat := c * 4096
def segBytes (c : Nat) : Nat := 16777216 * c
/-- Positions: 16 planes of 936 blocks with four LUNs. -/
def posCount (p : Params) : Nat := p.luns * 4 * 936
/-- Block number of a position: (LUN × 4 + plane) × 1024 + block. [DESIGN CHOICE: log 50] -/
def posBlk (pos : Nat) : Nat := pos / 936 * 1024 + pos % 936

/-- Page of a codeword within its object. [DESIGN CHOICE: log 50] -/
def pageOfCw (c cw : Nat) : Nat :=
  let k := cw % segCws c
  (cw / segCws c * c + k % c) * 1024 + k / c / 4

/-- The four codewords of a page. -/
def pageCws (c pg : Nat) : List Nat :=
  let s := pg / 1024 / c
  let ch := pg / 1024 % c
  (List.range 4).map (fun (i : Nat) => s * segCws c + (4 * (pg % 1024) + i) * c + ch)

/-- Positions in use. -/
def usedPos (v : Vault) : List Nat := v.objs.flatMap (fun e => e.2.segs)

/-- Free positions. -/
def freePos (p : Params) (v : Vault) : List Nat :=
  if v.ch = 0 then []
  else let u := usedPos v; (List.range (posCount p)).filter (fun x => !u.contains x && !v.retired.contains x)

def getVCh (b : Block) (c : Nat) : VChan := tgetD b.vault.chans c VChan.reset
def modVCh (b : Block) (c : Nat) (f : VChan → VChan) : Block :=
  modVault b (fun v => { v with chans := tmod v.chans c VChan.reset f })

/-- The block that serves a position's block on a channel: itself or its spare (R338). -/
def realBlk (x : VChan) (blk : Nat) : Nat :=
  match x.bad.find? (fun e => e.1 = blk) with
  | some e => e.2
  | none => blk

/-- Erase count of a position: its most-erased block's (R337). -/
def posWear (v : Vault) (pos : Nat) : Nat := (v.chans.map (fun e => tgetD e.2.erases (realBlk e.2 (posBlk pos)) 0)).foldl max 0

/-- A channel whose VCH page is fenced starts no medium operation (R28, R345). -/
def chHeld (b : Block) (ch : Nat) : Bool := pageFence b (vchB (ch / 16))

/-- Spare blocks of a plane on a channel: 936 to 1,023, less the reserved areas of channels 0 to 3 (R322, R339). -/
def spareTop (ch plane : Nat) : Nat := if ch < 4 ∧ plane < 3 then 1016 else 1024

/-- A free spare of the plane that holds a block; none when the plane has no spare or the table is full. -/
def freeSpare (x : VChan) (ch blk : Nat) : Option Nat :=
  let pl := blk / 1024
  if 2048 ≤ x.bad.length then none
  else ((List.range (spareTop ch pl - 936)).map (fun (i : Nat) => pl * 1024 + 936 + i)).find? (fun s =>
    x.bad.all (fun e => e.2 ≠ s))

/-- Registers of the VCH page (R345). -/
def vcR (ch off : Nat) : Nat := vchB (ch / 16) + 0x800 + 0x20 * (ch % 16) + off

/-- The vault's data queue works. -/
def vaultRuns (b : Block) : Bool := b.vault.powered && !b.vault.fenced && !isDead b
def vaultReady (b : Block) : Bool := vaultRuns b && b.vault.st = .ready

/-- An event of the VAULT source; the MEDIUM cause sets. [DEDUCED: log 58] -/
def vaultEv (b : Block) (kind cause : Nat) : Block :=
  setCause (signalEv b srcVault kind noUnit 0 (cause * 2 ^ 32)) 1556 2

/-! ## Power of the slice (R376) -/

/-- The slice powers up: MOUNT runs (R324). [DEDUCED: log 55] -/
def vaultPowerUp (b : Block) : Block :=
  if b.vault.powered then b
  else modVault b (fun v => { v with powered := true, st := .mounting, busy := 5 })

/-- A vault footprint of an operation on an object. -/
def opHolds (o : Op) (obj : Nat) : Bool :=
  o.phase ≠ .desc && o.phase ≠ .list &&
    o.foots.any (fun f => f.space = .vault && f.lo / 2 ^ 44 = obj && !o.offOpds.contains f.opd)

/-- A MOVE holds the object (R324). -/
def objHeld (b : Block) (obj : Nat) : Bool :=
  b.strands.any (fun e => e.2.ops.any (fun o => opHolds o obj)) ||
    b.stations.any (fun e => e.2.vRdTags.any (fun t => t.2.va / 2 ^ 44 = obj) || e.2.vWrTags.any (fun t => t.2.va / 2 ^ 44 = obj))

/-- The slice powers down once nothing holds an object, no write is unprogrammed and no command or log work runs. -/
def vaultSettle (b : Block) : Block :=
  let v := b.vault
  if v.powered && !pageEnable b vaultB && v.busy = 0 && v.logOp.isNone && decide (b.mgmt.st ≠ .rom) &&
      v.objs.all (fun e => e.2.dirty = [] && !objHeld b e.1) then
    modVault b (fun v => { v with powered := false, st := .off, cws := [] })
  else b

/-! ## Reading (R326 to R328, R332) -/

/-- Offset in the stored form of a byte of the view that an operation reads. -/
def storedOff (pack : Option (List Nat)) (x : Nat) : Nat :=
  match pack with
  | none => x
  | some cl =>
    if x < 8 * cl.length then x
    else roundUp (8 * cl.length) 16 + (cl.take ((x - packH cl) / 4096)).foldl (· + ·) 0 + (x - packH cl) % 4096

/-- Addresses of a burst's bytes. -/
def burstBytes (va mask : Nat) : List Nat := (setBits 128 mask).map (fun (i : Nat) => va + i)

def opPack (o : Op) : Option (List Nat) :=
  match o.mv with
  | some m => m.pack
  | none => none

/-- Object and codewords that a burst needs. -/
def burstCws (o : Op) (va mask : Nat) : List Nat :=
  dedup ((burstBytes va mask).map (fun a => storedOff (opPack o) (a % 2 ^ 44) / cwBytes))

/-- Vault read bursts of an operation. -/
def vaultBursts (o : Op) : List Burst :=
  if o.mv.isSome && o.phase ≠ .desc && o.phase ≠ .list then
    (readPlan o).1.filter (fun br => br.space = .vault && !o.offOpds.contains br.opd) else []

def objOf (br : Burst) : Nat := burstVa br / 2 ^ 44

/-- Codewords of an object that an operation reads, ascending. -/
def neededCws (o : Op) : List (Nat × Nat) :=
  (vaultBursts o).flatMap (fun br => (burstCws o (burstVa br) br.mask).map (fun c => (objOf br, c)))

/-- The codeword entry of an operation. -/
def findCw (v : Vault) (n k id obj cw : Nat) : Option Cw :=
  v.cws.find? (fun c => c.stn = n && c.strand = k && c.op = id && c.obj = obj && c.cw = cw)

def poisoned (b : Block) (obj cw : Nat) : Bool := (getObj b obj).poison.contains cw

/-- The codewords of an operation that are neither listed as poisoned nor read yet. -/
def unreadCws (b : Block) (n k : Nat) (o : Op) : List (Nat × Nat) :=
  ((neededCws o).filter (fun e => !poisoned b e.1 e.2 && (findCw b.vault n k o.id e.1 e.2).isNone)).eraseDups

/-- The next codeword to read: the lowest that is neither listed as poisoned nor read yet. -/
def nextCw (b : Block) (n k : Nat) (o : Op) : Option (Nat × Nat) :=
  argmin (·.2) (unreadCws b n k o)

/-- A byte of a codeword for an operation: value and poison; none while it is not decoded. [DEDUCED: log 57] -/
def vaultByte (b : Block) (n k : Nat) (o : Op) (a : Nat) : Option (Nat × Bool) :=
  let x := storedOff (opPack o) (a % 2 ^ 44)
  let obj := a / 2 ^ 44
  if b.vault.fenced || poisoned b obj (x / cwBytes) then some (0, true)
  else match findCw b.vault n k o.id obj (x / cwBytes) with
    | none => none
    | some c =>
      if !c.done then none
      else if c.poison then some (0, true)
      else some (byteAt (c.data.getD (x % cwBytes / 128) 0).toNat (x % 128), false)

/-- Answer one vault read burst if its codewords are decoded: poisoned bytes are an access fault without a station-source
fault (R328). The burst of an operation that is gone is discarded. -/
def vaultAnswer (b : Block) (n tag : Nat) : Block :=
  let st := getStn b n
  match tget st.vRdTags tag with
  | none => b
  | some rq => match rq.agent with
    | .link .. => b
    | .op k id opd => match findOp b n k id with
      | none => discardRsp (setStn b n { st with vRdTags := tdel st.vRdTags tag }) n
      | some o =>
        let bytes := (setBits 128 rq.mask).map (fun (i : Nat) => (i, vaultByte b n k o (rq.va + i)))
        if bytes.any (fun e => e.2.isNone) then b
        else
          let b := setStn b n { st with vRdTags := tdel st.vRdTags tag }
          let val := fun (e : Nat × Option (Nat × Bool)) => e.2.getD (0, false)
          let data := bytes.foldl (fun acc e => acc + (val e).1 * 256 ^ e.1) 0
          let pois := maskOf ((bytes.filter (fun e => (val e).2)).map (·.1))
          let b := count (laneTo b n (popCount 128 rq.mask)) .vault 0x04 (popCount 128 rq.mask) none
          opReadBack b n k id opd .vault rq.va rq.mask data (fun i => pois.testBit i)
            (if pois ≠ 0 then some (rq.va, 2, true) else none)

/-- Answer every vault burst of a station that can be answered. -/
def vaultServe (b : Block) (n : Nat) : Block := forEach ((getStn b n).vRdTags.map (·.1)) b (fun b t => vaultAnswer b n t)

/-- Answer the bursts of every station. -/
def vaultServeAll (b : Block) : Block := forEach (b.stations.map (·.1)) b vaultServe

/-- A far-port read burst may be issued: the station runs (R56). A vault burst whose codewords stand decoded is answered. -/
def execReadBurstIssue (n : Nat) (s : State) : Host.Outcome State Fault Refusal :=
  effect (fun _ b => if stnRuns b n then vaultServe (readIssue (tickStn b n) n) n else b) s

/-- Codewords of operations that are over leave the read buffer. -/
def vaultTidy (b : Block) : Block :=
  modVault b (fun v => { v with cws := v.cws.filter (fun c => (findOp b c.stn c.strand c.op).isSome)
                                order := v.order.filter (fun e => (findOp b e.1 e.2.1 e.2.2).isSome) })

/-- A codeword decoded and not delivered: some byte of it that its operation reads has not been returned. -/
def undelivered (b : Block) (c : Cw) : Bool :=
  c.done && (match findOp b c.stn c.strand c.op with
    | none => false
    | some o => (vaultBursts o).any (fun br => objOf br = c.obj && (burstBytes (burstVa br) br.mask).any (fun a =>
        storedOff (opPack o) (a % 2 ^ 44) / cwBytes = c.cw && (gotByte o.got br.opd a).isNone)))

/-- Places of the read buffer that are taken, of all operations or of one. -/
def aheadHeld (b : Block) : List Cw := b.vault.cws.filter (fun c => undelivered b c || !c.done)
def aheadOf (b : Block) (e : Nat × Nat × Nat) : Nat :=
  ((aheadHeld b).filter (fun c => c.stn = e.1 && c.strand = e.2.1 && c.op = e.2.2)).length

/-- Places that an operation can still take now. -/
def aheadWants (b : Block) (e : Nat × Nat × Nat) : Nat :=
  match findOp b e.1 e.2.1 e.2.2 with
  | none => 0
  | some o => min (rbits b (vaultB + 0x70) 31 16 - aheadOf b e) (unreadCws b e.1 e.2.1 o).length

/-- Room in the read buffer: VT_AHEAD codewords of the operation, 2,048 in all, those that operations of earlier start stages
can take going first (R326). [DEDUCED: log 142] -/
def aheadRoom (b : Block) (n k id : Nat) : Bool :=
  let first := b.vault.order.takeWhile (fun e => decide (e ≠ (n, k, id)))
  decide ((aheadHeld b).length + (first.map (aheadWants b)).foldl (· + ·) 0 < 2048) &&
    decide (aheadOf b (n, k, id) < rbits b (vaultB + 0x70) 31 16)

/-- Bytes of a line of an object that were written or padded. -/
def lineDone (x : Obj) (line : Nat) : Nat := if line / 32 < x.frontier then 2 ^ 128 - 1 else tgetD x.written line 0

/-- A codeword whose bytes are all written. -/
def cwFull (x : Obj) (cw : Nat) : Bool := (List.range 32).all (fun (i : Nat) => lineDone x (32 * cw + i) = 2 ^ 128 - 1)

/-- Every byte of a page is written or padded. -/
def pageFull (c : Nat) (x : Obj) (pg : Nat) : Bool := (pageCws c pg).all (cwFull x)

/-- The page of an object that a LUN of a channel programs: a complete one that is not programmed yet. [DESIGN CHOICE: log 147] -/
def progPage (v : Vault) (ch lun : Nat) : Option (Nat × Nat) :=
  v.objs.findSome? (fun e => (e.2.dirty.find? (fun pg => pg / 1024 % v.ch = ch && pageFull v.ch e.2 pg && (match e.2.segs[pg / 1024 / v.ch]? with
    | some pos => decide (posBlk pos / 4096 = lun)
    | none => false))).map (fun pg => (e.1, pg)))

/-- A medium read of a block suspends the program or erase that its LUN runs, a page's program at most 4 times (R343).
[DESIGN CHOICE: log 147] -/
def suspend (b : Block) (ch blk : Nat) : Block :=
  let v := b.vault
  let erasing := decide (ch < 4) && decide (blk / 4096 = 0) && (match v.logOp with
    | some (op, _, _, _) => op = 3
    | none => false)
  if erasing then count b .vault 0x08 1 none
  else match progPage v ch (blk / 4096) with
    | none => b
    | some (obj, pg) =>
      let k := tgetD (getObj b obj).susp pg 0
      if 4 ≤ k then b else count (modObj b obj (fun x => { x with susp := tput x.susp pg (k + 1) })) .vault 0x08 1 none

/-- One medium read of a codeword's block: RD_LIMIT reads ask for a scrub ahead of the periodic order (R336). [DEDUCED:
log 53] -/
def countRead (b : Block) (obj cw : Nat) : Block :=
  let v := b.vault
  let x := getObj b obj
  match x.segs[cw / segCws v.ch]? with
  | none => b
  | some pos =>
    let ch := cw % v.ch
    let blk := posBlk pos
    let r := tgetD (getVCh b ch).reads blk 0 + 1
    let b := modVCh (suspend b ch blk) ch (fun c => { c with reads := tput c.reads blk r })
    if r = rget b (vaultB + 0x78) then modVault b (fun v => { v with scrubQ :=
      (obj, cw / segCws v.ch, (List.range 1024).map (fun (i : Nat) => ch * 1024 + i)) :: v.scrubQ }) else b

/-- Mark the segment of a codeword for refresh (R335). -/
def markSeg (b : Block) (obj seg : Nat) : Block :=
  modObj b obj (fun x => if x.marked.contains seg then x else { x with marked := x.marked ++ [seg] })

/-- A codeword is uncorrectable (R328): listed, its reads in progress end, counted, an event of the VAULT source. [DEDUCED: log 52] [DEDUCED: log 58] -/
def ueCw (b : Block) (obj cw cause : Nat) : Block :=
  let b := modObj b obj (fun x => if x.poison.contains cw then x else { x with poison := x.poison ++ [cw] })
  let b := modVault b (fun v => { v with cws := v.cws.map (fun c =>
    if c.obj = obj ∧ c.cw = cw then { c with done := true, poison := true } else c) })
  let b := rcount (rcount b (vaultB + 0x8C) 1) (vcR (cw % b.vault.ch) 0x8) 1
  vaultEv b 0x4E cause

/-- Set an operation's codeword entry. -/
def putCw (b : Block) (c : Cw) : Block :=
  modVault b (fun v => { v with cws := v.cws.filter (fun d => !(d.stn = c.stn && d.strand = c.strand && d.op = c.op &&
    d.obj = c.obj && d.cw = c.cw)) ++ [c] })

/-- The channel and block of a codeword of an object, if a segment holds it. -/
def blkOfCw (b : Block) (obj cw : Nat) : Option (Nat × Nat) :=
  ((getObj b obj).segs[cw / segCws b.vault.ch]?).map (fun pos => (cw % b.vault.ch, posBlk pos))

/-- The step whose offsets a read of the codeword tries first (R327). -/
def keptOffs (b : Block) (obj cw : Nat) : Nat :=
  match blkOfCw b obj cw with
  | none => 0
  | some (ch, blk) => tgetD (getVCh b ch).offs blk 0

/-- The offsets that a rally step succeeded with are kept for the block: steps 1 to 3 have a set each, steps 6 and 7 read at
the block's best levels (R327). -/
def keepOffs (b : Block) (c : Cw) : Block :=
  let s := if c.step ≤ 3 then c.step else if 6 ≤ c.step then 6 else 0
  match blkOfCw b c.obj c.cw with
  | none => b
  | some (ch, blk) => if s = 0 then b else modVCh b ch (fun x => { x with offs := tput x.offs blk s })

/-- The first decode of a codeword, or a rally step, ends: it delivers, goes one step further, or is uncorrectable. -/
def decodeEnd (b : Block) (c : Cw) (ok : Bool) (data : List Line) : Block :=
  let b := countRead b c.obj c.cw
  if ok then
    let b := if 0 < c.step && decide (rbits b (vaultB + 0x70) 6 4 ≤ c.step) then markSeg b c.obj (c.cw / segCws b.vault.ch)
      else b
    vaultServe (putCw (keepOffs b c) { c with done := true, data := data }) c.stn
  else if rbits b (vaultB + 0x70) 2 0 ≤ c.step then
    vaultServeAll (putCw (ueCw b c.obj c.cw 2) { c with done := true, poison := true })
  else
    let b := if c.step = 0 then
        count (rcount (rcount b (vaultB + 0x90) 1) (vcR (c.cw % b.vault.ch) 0xC) 1) .vault 0x03 1 none else b
    putCw b { c with step := c.step + 1 }

/-- A codeword's first decode: the next in order of the operation of strand k that reads it. -/
def firstDecode (b : Block) (n k cw : Nat) (ok : Bool) (data : List Line) : Block :=
  let b := vaultTidy b
  match (getStrand b n k).ops.find? (fun o => (nextCw b n k o).map (·.2) = some cw) with
  | none => b
  | some o => match nextCw b n k o with
    | none => b
    | some (obj, c) =>
      if !aheadRoom b n k o.id || chHeld b (c % b.vault.ch) then b
      else
        decodeEnd (count b .vault 0x02 1 none)
          { stn := n, strand := k, op := o.id, obj := obj, cw := c, step := 0, offs := keptOffs b obj c, done := false,
            poison := false, data := [] } ok data

/-- CODEWORD_DECODED (R326): A vault codeword's first decode succeeds, or fails and enters the rally. -/
def execCodewordDecoded (n k : Nat) (cw : Nat) (ok : Bool) (data : List Line) (s : State) : Host.Outcome State Fault Refusal :=
  effect (fun _ b => if vaultReady b && b.vault.ch ≠ 0 then firstDecode b n k cw ok data else b) s

/-- One more step of the rally completes. -/
def rally (b : Block) (n k cw : Nat) (ok : Bool) (data : List Line) : Block :=
  match b.vault.cws.find? (fun c => c.stn = n && c.strand = k && c.cw = cw && !c.done && 0 < c.step) with
  | none => b
  | some c => if chHeld b (cw % b.vault.ch) then b else decodeEnd b c ok data

/-- RALLY_STEP (R327): One further read-retry step of the rally completes for a failing codeword. -/
def execRallyStep (n k : Nat) (cw : Nat) (ok : Bool) (data : List Line) (s : State) : Host.Outcome State Fault Refusal :=
  effect (fun _ b => if vaultReady b && b.vault.ch ≠ 0 then rally b n k cw ok data else b) s

/-- A vault read has not been answered within VT_RD_TMO: its codewords not decoded are handled as uncorrectable (R328).
[DEDUCED: log 52] -/
def vaultRdTmo (b : Block) (n tag : Nat) : Block :=
  match tget (getStn b n).vRdTags tag with
  | none => b
  | some rq => match rq.agent with
    | .link .. => b
    | .op k id _ => match findOp b n k id with
      | none => vaultAnswer b n tag
      | some o =>
        let obj := rq.va / 2 ^ 44
        let late := (burstCws o rq.va rq.mask).filter (fun c => !poisoned b obj c && (match findCw b.vault n k id obj c with
          | some x => !x.done
          | none => true))
        vaultServeAll (forEach late b (fun b c => ueCw b obj c 3))

/-- VAULT_READ_TIMEOUT (R328): A vault read not answered within VT_RD_TMO is delivered poisoned. -/
def execVaultReadTimeout (n tag : Nat) (s : State) : Host.Outcome State Fault Refusal :=
  effect (fun _ b => if b.vault.powered && b.vault.ch ≠ 0 && !isDead b then vaultRdTmo b n tag else b) s

/-! ## Writing (R329 to R331) -/

/-- Advance the frontier over full codewords. -/
def advFront : Nat → Obj → Obj
  | 0, x => x
  | f + 1, x => if cwFull x x.frontier then
      advFront f { x with frontier := x.frontier + 1, written := x.written.filter (fun e => x.frontier < e.1 / 32) } else x

def front (x : Obj) : Obj := advFront (x.written.length + 1) x

/-- A vault line is refused (R329): beyond the window, also once CLOSE has begun (R343), or a rewrite. -/
def lineRefused (x : Obj) (off mask : Nat) : Option Bool :=
  if lineDone x (off / 128) &&& mask ≠ 0 then some true
  else if x.closing || decide (x.frontier + 2048 ≤ off / cwBytes) then some false else none

/-- The controller refuses a line: VAULT_ORDER at the station; the write is lost and counts as landed. -/
def vaultOrder (b : Block) (n : Nat) (w : WrReq) (rewrite : Bool) : Block :=
  let b := rcount b (vaultB + 0x98) 1
  match w.agent with
  | .op k id _ => match findOp b n k id with
    | some o => tick (contentFault b n k 0x0F o (w.va % 2 ^ 56 + b2n rewrite * 2 ^ 56) (opPolicy o)) n k
    | none => relHaz b n
  | .link .. => b

/-- A vault write fails: an access fault on a write without a station-source fault (R331). -/
def vaultWrFail (b : Block) (n : Nat) (w : WrReq) : Block :=
  match w.agent with
  | .op k id _ => afterLand (opWriteFail b n k id w.va 0 true) n w.agent
  | .link .. => b

/-- A vault write line reaches the controller: a poisoned one puts its codeword into the poison list (R429); it waits while the medium mounts, and fails where no object is served (R320,
R331). [DEDUCED: log 143] -/
def vaultLine (b : Block) (n tag : Nat) : Block :=
  let st := getStn b n
  match (if tag < 256 then tget st.vWrTags tag else none) with
  | none => b
  | some w =>
    let obj := w.va / 2 ^ 44
    let off := w.va % 2 ^ 44
    let x := getObj b obj
    let b' := setStn b n { st with vWrTags := tdel st.vWrTags tag }
    if b.vault.st = .mounting then b
    else if b.vault.fenced || decide (b.vault.st ≠ .ready) then vaultWrFail (vaultEv b' 0x4F 0) n w
    else match lineRefused x off w.mask with
      | some r => vaultOrder b' n w r
      | none =>
        let pg := pageOfCw b.vault.ch (off / cwBytes)
        let cw := off / cwBytes
        let x := { x with written := tput x.written (off / 128) (lineDone x (off / 128) ||| w.mask),
                          poison := if w.poison = 0 ∨ x.poison.contains cw then x.poison else x.poison ++ [cw],
                          dirty := if x.dirty.contains pg then x.dirty else x.dirty ++ [pg] }
        let b := setStn b n { st with vWrTags := tput (tdel st.vWrTags tag) (256 + w.wid) w }
        count (setObj b obj (front x)) .vault 0x05 (popCount 128 w.mask) none

/-- VAULT_WRITE_LINE (R329): A vault write line arrives and is accepted or refused as VAULT_ORDER. -/
def execVaultWriteLine (n tag : Nat) (s : State) : Host.Outcome State Fault Refusal :=
  effect (fun _ b => if b.vault.powered && b.vault.ch ≠ 0 && !isDead b then vaultLine b n tag else b) s

/-- Writes accepted for a page of an object, with their stations. -/
def pageWrites (b : Block) (obj pg : Nat) : List (Nat × Nat × WrReq) :=
  b.stations.flatMap (fun e => (e.2.vWrTags.filter (fun t => 256 ≤ t.1 && t.2.va / 2 ^ 44 = obj &&
    pageOfCw b.vault.ch (t.2.va % 2 ^ 44 / cwBytes) = pg)).map (fun t => (e.1, t)))

/-- The writes of a page land, or fail. -/
def pageLand (p : Params) (b : Block) (obj pg : Nat) (ok : Bool) : Block :=
  forEach (pageWrites b obj pg) b (fun b e =>
    let b := modStn b e.1 (fun st => { st with vWrTags := tdel st.vWrTags e.2.1 })
    if ok then wrLanded p b e.1 e.2.2 else vaultWrFail b e.1 e.2.2)

/-- A page has been programmed and verified: its writes land. A complete page is programmed, and any page of an object that
CLOSE fills with zeros. -/
def pageProg (p : Params) (b : Block) (obj pg : Nat) : Block :=
  let x := getObj b obj
  if (x.dirty.contains pg && (x.closing || pageFull b.vault.ch x pg)) || (x.closing && pg < x.segs.length * b.vault.ch * 1024) then
    let b := setObj b obj { x with dirty := x.dirty.filter (· ≠ pg), susp := tdel x.susp pg }
    vaultSettle (pageLand p (count b .vault 0x06 1 none) obj pg true)
  else b

/-- A page program of an object may complete: the controller is READY and the channel not held, and in dead ball only the
program of a complete page, which is in progress, completes (R342). -/
def pageGoes (b : Block) (obj pg : Nat) : Bool :=
  b.vault.powered && !b.vault.fenced && decide (b.vault.st = .ready) && decide (b.vault.ch ≠ 0) &&
    !chHeld b (pg / 1024 % b.vault.ch) &&
    (!isDead b || ((getObj b obj).dirty.contains pg && pageFull b.vault.ch (getObj b obj) pg))

/-- PAGE_PROGRAMMED (R330): A vault page is programmed and verified, and its writes land. -/
def execPageProgrammed (obj page : Nat) (s : State) : Host.Outcome State Fault Refusal :=
  effect (fun p b => if pageGoes b obj page then pageProg p b obj page else b) s

/-- Pages of an object that padding completes: each that holds a written byte, and those before it in its block (R330). -/
def padPages (x : Obj) : List Nat :=
  dedup (x.dirty.flatMap (fun pg => (List.range (pg % 1024 + 1)).map (fun (i : Nat) => pg / 1024 * 1024 + i)))

/-- Pad with zeros every unwritten byte of those pages. -/
def padObj (c : Nat) (x : Obj) : Obj :=
  let pgs := padPages x
  let lines := (pgs.flatMap (pageCws c)).flatMap (fun cw => if cw < x.frontier then [] else
    (List.range 32).map (fun (i : Nat) => 32 * cw + i))
  front { x with written := lines.foldl (fun t l => tput t l (2 ^ 128 - 1)) x.written,
                 dirty := x.dirty ++ pgs.filter (fun pg => !x.dirty.contains pg && !(pageCws c pg).all (fun cw => cwFull x cw)) }

/-- No line of an OPEN object has arrived for VT_PAD_TMO; a DELETE that waits for its MOVEs does not stop the padding that
lets their writes land (R324). -/
def execVaultPadTimeout (obj : Nat) (s : State) : Host.Outcome State Fault Refusal :=
  effect (fun _ b =>
    if vaultReady b && b.vault.ch ≠ 0 && ((getObj b obj).st = .open || (getObj b obj).st = .deleting) then modObj b obj (padObj b.vault.ch) else b) s

/-! ## Bad blocks (R338) -/

/-- A position goes out of use on every channel: SEG_TOTAL falls, CAP sets, an event of the VAULT source; the segment there
is to be refreshed. -/
def retirePos (b : Block) (pos : Nat) : Block :=
  if b.vault.retired.contains pos then b
  else
    let b := modVault b (fun v => { v with
      retired := v.retired ++ [pos],
      objs := v.objs.map (fun e => (e.1, { e.2 with marked := e.2.marked ++
        ((List.range e.2.segs.length).filter (fun i => e.2.segs[i]? = some pos && !e.2.marked.contains i)) })) })
    vaultEv (setCause b 1556 4) 0x50 5

/-- A block of a position has failed: a spare of its plane takes its place; none left retires the position. The flag says
that a spare took it. A spare that served the block and failed keeps an entry of its own, so that it serves none again.
[DESIGN CHOICE: log 144] -/
def blockFail (b : Block) (ch pos : Nat) : Bool × Block :=
  let blk := posBlk pos
  match freeSpare (getVCh b ch) ch blk with
  | some sp => (true, modVCh b ch (fun c => { c with bad :=
      let r := realBlk c blk
      (c.bad.filter (fun e => e.1 ≠ blk)) ++ (if r = blk then [] else [(r, r)]) ++ [(blk, sp)] }))
  | none => (false, retirePos b pos)

/-- A page fails programming: rewritten into a spare, it is programmed later; with no spare its writes fail (R331). -/
def progFail (p : Params) (b : Block) (obj pg ch : Nat) : Block :=
  let x := getObj b obj
  match x.segs[pg / 1024 / b.vault.ch]? with
  | none => b
  | some pos =>
    if !x.dirty.contains pg then b
    else match blockFail b ch pos with
      | (true, b) => b
      | (false, b) =>
        let b := modObj b obj (fun x => { x with dirty := x.dirty.filter (· ≠ pg) })
        vaultSettle (pageLand p (vaultEv b 0x4F 0) obj pg false)

/-- PROGRAM_FAIL (R338): A page program fails; the block is mapped to a spare or the write fails. -/
def execProgramFail (obj page : Nat) (ch : Nat) (s : State) : Host.Outcome State Fault Refusal :=
  effect (fun p b => if vaultReady b && b.vault.ch ≠ 0 && ch = page / 1024 % b.vault.ch then progFail p b obj page ch else b) s

/-! ## Scrub, refresh, wear (R334 to R337) -/

/-- Scrub reads due whose segment is still there. -/
def scrubDue (b : Block) : List (Nat × Nat × List Nat) :=
  b.vault.scrubQ.filter (fun e => decide (e.2.1 < (getObj b e.1).segs.length) && decide (e.2.2 ≠ []))

/-- The page of a segment that a codeword of it lies in: channel × 1024 + page. -/
def scrubPage (c cw : Nat) : Nat := pageOfCw c (cw % segCws c)

/-- A scrub read may go: it belongs to what is due first, and with nothing due the periodic pass reads any (R334, R336).
[DEDUCED: log 148] -/
def scrubTurn (b : Block) (obj seg cw : Nat) : Bool :=
  !chHeld b (cw % b.vault.ch) && (match scrubDue b with
    | [] => true
    | e :: _ => e.1 = obj && e.2.1 = seg && e.2.2.contains (scrubPage b.vault.ch cw))

/-- A scrub read of codeword cw of a segment of an object. [DEDUCED: log 53] -/
def scrub (b : Block) (obj seg cw : Nat) (high ue : Bool) : Block :=
  let x := getObj b obj
  match x.segs[seg]? with
  | none => b
  | some pos =>
    let c := b.vault.ch
    let b := count b .vault 0x09 1 none
    let b := modVCh b (cw % c) (fun v => { v with reads := tdel v.reads (posBlk pos) })
    let b := modVault b (fun v => { v with scrubQ := (scrubDue b).map (fun e =>
      if e.1 = obj ∧ e.2.1 = seg then (obj, seg, e.2.2.filter (· ≠ scrubPage c cw)) else e) })
    let b := if high then markSeg b obj seg else b
    if ue then ueCw b obj (seg * segCws c + cw % segCws c) 2 else b

/-- SCRUB_READ (R334): A scrub read of a codeword, periodic or after MOUNT, checks its error rate. -/
def execScrubRead (obj seg cw : Nat) (highRate uncorrectable : Bool) (s : State) : Host.Outcome State Fault Refusal :=
  effect (fun _ b => if vaultReady b && b.vault.ch ≠ 0 && scrubTurn b obj seg cw then scrub b obj seg cw highRate uncorrectable else b) s

/-- A segment is due for refresh (R335, R338). -/
def refreshDue (b : Block) (x : Obj) (seg : Nat) : Bool :=
  x.marked.contains seg ||
    decide (rbits b (vaultB + 0x7C) 15 8 * 86400 < b.vault.poweredS - x.birth.getD seg b.vault.poweredS)

/-- A segment moves to another position in one durable update. -/
def moveSeg (b : Block) (obj seg pos : Nat) : Block :=
  modObj b obj (fun x => { x with segs := x.segs.set seg pos, birth := x.birth.set seg b.vault.poweredS,
                                  marked := x.marked.filter (· ≠ seg) })

/-- A refresh switches a segment to the free position with the lowest count. -/
def refreshSeg (p : Params) (b : Block) (obj seg : Nat) : Block :=
  let x := getObj b obj
  if !refreshDue b x seg || x.segs.length ≤ seg || x.st = .free then b
  else match argmin (posWear b.vault) (freePos p b.vault) with
    | none => b
    | some pos => count (rcount (moveSeg b obj seg pos) (vaultB + 0x94) 1) .vault 0x0A 1 none

/-- REFRESH (R335): A segment is copied to a free position and switched in one metadata update. -/
def execRefresh (obj seg : Nat) (s : State) : Host.Outcome State Fault Refusal :=
  effect (fun p b => if vaultReady b then refreshSeg p b obj seg else b) s

/-- Segments in use: object, ordinal, position, program time. -/
def segList (v : Vault) : List (Nat × Nat × Nat × Nat) :=
  v.objs.flatMap (fun e => (List.range e.2.segs.length).map (fun (i : Nat) => (e.1, i, e.2.segs.getD i 0, e.2.birth.getD i 0)))

/-- The position with the greatest value. -/
def argmax {α : Type} (f : α → Nat) : List α → Option α
  | [] => none
  | a :: t => match argmax f t with
    | none => some a
    | some c => if f c ≤ f a then some a else some c

/-- Wear levelling (R337): over WL_DELTA, the segment with the oldest program time goes to the most worn free position. -/
def levelWear (p : Params) (b : Block) : Block :=
  let v := b.vault
  let l := segList v
  let w := l.map (fun e => posWear v e.2.2.1)
  let lo := w.foldl min (w.headD 0)
  if w.foldl max 0 - lo ≤ rbits b (vaultB + 0x7C) 31 16 then b
  else match argmin (fun e => e.2.2.2) l, argmax (posWear v) (freePos p v) with
    | some e, some pos => moveSeg b e.1 e.2.1 pos
    | _, _ => b

/-- WEAR_LEVEL (R337): When the erase-count spread exceeds WL_DELTA, the oldest segment moves to the most-worn free
position. -/
def execWearLevel (s : State) : Host.Outcome State Fault Refusal :=
  effect (fun p b => if vaultReady b then levelWear p b else b) s

/-! ## Commands of VT_CMD (R324, R332) -/

/-- A command completes: RESULT, BUSY and the CMD cause. -/
def cmdDone (b : Block) (result : Nat) : Block :=
  setCause (modVault b (fun v => { v with busy := 0, result := result })) 1556 1

/-- Reserve the n free positions with the lowest counts. -/
def takeSegs (p : Params) (v : Vault) : Nat → List Nat → Option (List Nat)
  | 0, acc => some acc
  | n + 1, acc => match argmin (posWear v) ((freePos p v).filter (fun x => !acc.contains x)) with
    | none => none
    | some x => takeSegs p v n (acc ++ [x])

/-- CREATE (R324). -/
def createNew (p : Params) (b : Block) (obj len arg : Nat) (x : Obj) : Block :=
  if b.vault.st ≠ .ready then cmdDone b 3
  else if x.st ≠ .free then cmdDone b 2
  else if len = 0 ∨ 2 ^ 44 < len then cmdDone b 3
  else match takeSegs p b.vault (ceilDiv len (segBytes b.vault.ch)) [] with
    | none => cmdDone b 1
    | some segs =>
      let b := setObj b obj { Obj.reset with
        st := .open, packed := bit arg 16, parts := BitVec.ofNat 16 arg, gen := (x.gen + 1) % 2 ^ 32, len := len,
        blocks := if bit arg 16 then rget b (vaultB + 0x58) else 0, segs := segs,
        birth := segs.map (fun _ => b.vault.poweredS) }
      cmdDone b 0

/-- CREATE with the registers' operands. [DEDUCED: log 54] -/
def cmdCreate (p : Params) (b : Block) (obj : Nat) : Block :=
  createNew p b obj (rget64 b (vaultB + 0x4C)) (rget b (vaultB + 0x54)) (getObj b obj)

/-- CLOSE begins: nothing more is admitted, and the rest is programmed as 0; `headers` is what the controller reads back.
[DEDUCED: log 54] -/
def cmdClose (b : Block) (obj : Nat) (headers : List DWord) : Block :=
  let x := getObj b obj
  if b.vault.st ≠ .ready ∨ x.st ≠ .open then cmdDone b 3
  else
    let x := { x with closing := true, headers := if x.packed then headers.take x.blocks else [] }
    modVault (setObj b obj x) (fun v => { v with busy := 2, cmdObj := obj })

/-- A header that meets R187 for some operand: some width, as a base block or a delta block. -/
def headerFits (h : Nat) : Bool :=
  [4, 8, 16, 32].any (fun w => !blockBad w false h || !blockBad w true h)

/-- The stored form of a PACKED object checks (R332). [DEDUCED: log 59] -/
def formOk (x : Obj) : Bool :=
  x.headers.length = x.blocks && x.headers.all (fun h => headerFits h.toNat) &&
    x.len = roundUp (8 * x.blocks) 16 + (x.headers.map (fun h => hClen h.toNat)).foldl (· + ·) 0

/-- The place index of a PACKED object: the stored offset of every 256th block (R332). -/
def placeIndex (x : Obj) : List Nat :=
  (List.range (ceilDiv x.blocks 256)).map (fun (i : Nat) =>
    roundUp (8 * x.blocks) 16 + ((x.headers.take (256 * i)).map (fun h => hClen h.toNat)).foldl (· + ·) 0)

/-- The further segments that the place index of a PACKED object takes (R332). -/
def indexSegs (b : Block) (x : Obj) : Nat :=
  ceilDiv (x.len + 8 * (placeIndex x).length) (segBytes b.vault.ch) - x.segs.length

/-- CLOSE of a PACKED object that checks: the place index is appended to the stored form, in further segments where the
object's own do not hold it; no free position for them is NOSPACE (R332). [DESIGN CHOICE: log 145] -/
def closePacked (p : Params) (b : Block) (obj : Nat) (x : Obj) : Block :=
  match takeSegs p b.vault (indexSegs b x) [] with
  | none => cmdDone (setObj b obj { x with headers := [] }) 1
  | some segs => cmdDone (setObj b obj { x with
      st := .ready, index := placeIndex x, segs := x.segs ++ segs
      birth := x.birth ++ segs.map (fun _ => b.vault.poweredS) }) 0

/-- CLOSE completes once every accepted line has been programmed. [DEDUCED: log 59] -/
def closeEnd (p : Params) (b : Block) : Block :=
  let v := b.vault
  let x := getObj b v.cmdObj
  if v.busy ≠ 2 ∨ x.dirty ≠ [] then b
  else
    let full := { x with closing := false, frontier := ceilDiv x.len cwBytes, written := [] }
    vaultSettle (
      if !x.packed then cmdDone (setObj b v.cmdObj { full with st := .ready }) 0
      else if formOk x then closePacked p b v.cmdObj full
      else cmdDone (setObj b v.cmdObj { full with headers := [] }) 4)

/-- CLOSE_COMPLETE (R343): CLOSE completes after every accepted line has been programmed. -/
def execCloseComplete (s : State) : Host.Outcome State Fault Refusal :=
  effect (fun p b => if vaultReady b && b.vault.ch ≠ 0 then closeEnd p b else b) s

/-- DELETE begins: new MOVEs are refused at once. -/
def cmdDelete (b : Block) (obj : Nat) : Block :=
  let x := getObj b obj
  if b.vault.st ≠ .ready ∨ (x.st ≠ .open ∧ x.st ≠ .ready) then cmdDone b 3
  else modVault (setObj b obj { x with st := .deleting }) (fun v => { v with busy := 3, cmdObj := obj })

/-- DELETE completes once no MOVE holds the object: its segments are free. -/
def deleteEnd (b : Block) : Block :=
  let v := b.vault
  if v.busy ≠ 3 ∨ objHeld b v.cmdObj then b
  else vaultSettle (cmdDone (modObj b v.cmdObj (fun x => { Obj.reset with gen := x.gen })) 0)

/-- DELETE_DRAINED (R343): With no MOVE holding the object, DELETE frees its segments and completes. -/
def execDeleteDrained (s : State) : Host.Outcome State Fault Refusal :=
  effect (fun _ b => if vaultReady b then deleteEnd b else b) s

/-- A block of the log or image area. -/
def areaBlk (ch blk : Nat) : Bool := ch < 4 && blk % 1024 ≥ 1016 && (blk / 1024 = 0 || blk / 1024 = 2)

/-- A block of the metadata area (R339). -/
def metaBlk (ch blk : Nat) : Bool := ch < 4 && blk % 1024 ≥ 1016 && blk / 1024 = 1

/-- A block can hold no data: one of a position, or the spare that serves it, is replaced (R338); a spare that serves none is
used for none; one of the metadata area is a failed copy (R342). [DESIGN CHOICE: log 144] -/
def blkFails (b : Block) (ch blk : Nat) : Block :=
  if metaBlk ch blk then vaultEv b 0x50 5
  else if blk % 1024 < 936 then (blockFail b ch (blk / 1024 * 936 + blk % 1024)).2
  else match (getVCh b ch).bad.find? (fun e => e.2 = blk) with
    | some e => if e.1 = blk then b else (blockFail b ch (e.1 / 1024 * 936 + e.1 % 1024)).2
    | none => modVCh b ch (fun c => { c with bad := c.bad ++ [(blk, blk)] })

/-- FORMAT begins (R324): the factory marks enter the bad-block tables, and the blocks they name are not erased; every object
goes when the erases are over. [DEDUCED: log 56] -/
def cmdFormat (p : Params) (b : Block) (geometryOk : Bool) (bad : List (Nat × Nat)) : Block :=
  if b.vault.st = .off ∨ b.vault.st = .mounting ∨ b.vault.objs.any (fun e => e.2.st = .open || objHeld b e.1) then cmdDone b 3
  else if !geometryOk then cmdDone (modVault b (fun v => { v with st := .failed })) 5
  else
    let b := modVault b (fun v => { v with
      st := .formatting, busy := 4, ch := p.vaultCh, fmtDone := [], retired := [],
      chans := v.chans.map (fun e => (e.1, { e.2 with bad := [], offs := [] })) })
    let marks := bad.eraseDups.filter (fun e => e.1 < p.vaultCh && e.2 < p.luns * 4096 && !areaBlk e.1 e.2)
    forEach marks (modVault b (fun v => { v with fmtDone := marks })) (fun b e => blkFails b e.1 e.2)

/-- Blocks that FORMAT erases: all but the log and image areas (R339). [DEDUCED: log 56] -/
def fmtBlocks (p : Params) (c : Nat) : Nat := c * p.luns * 4096 - 16 * min 4 c

/-- While FORMAT runs, a block has been erased or has failed its erase; the last one ends FORMAT. -/
def fmtStep (p : Params) (b : Block) (ch blk : Nat) : Block :=
  let v := b.vault
  if v.st ≠ .formatting then b
  else
    let l := if v.fmtDone.contains (ch, blk) then v.fmtDone else v.fmtDone ++ [(ch, blk)]
    if fmtBlocks p v.ch ≤ l.length then
      vaultSettle (cmdDone (modVault b (fun v => { v with
        st := .ready, fmtDone := [], cws := [], order := [], scrubQ := [],
        objs := v.objs.map (fun e => (e.1, { Obj.reset with gen := e.2.gen })) })) 0)
    else modVault b (fun v => { v with fmtDone := l })

/-- The bytes of an area within a range are gone. -/
def wipeBytes (t : Tab Byte) (off len : Nat) : Tab Byte := t.filter (fun e => e.1 < off || off + len ≤ e.1)

/-- The log queue's erase ends: the blocks of its range hold nothing, or the medium has failed it (R18). [DESIGN CHOICE: log
60] -/
def logErased (b : Block) (ok : Bool) : Block :=
  match b.vault.logOp with
  | some (3, area, off, len) =>
    let b := modVault b (fun v => { v with logOp := none, logErr := !ok })
    vaultSettle (if !ok then vaultEv b 0x4F 0
      else modMgmt b (fun m => if area then { m with imgArea := wipeBytes m.imgArea off len }
        else { m with logArea := wipeBytes m.logArea off len }))
  | _ => b

/-- The erase of a block completes; the last one ends FORMAT, and one in the log queue's areas ends its operation. -/
def blkErased (p : Params) (b : Block) (ch blk : Nat) : Block :=
  let b := modVCh b ch (fun c => { c with
    erases := tmod c.erases blk 0 (· + 1), reads := tdel c.reads blk, offs := tdel c.offs blk })
  let b := count b .vault 0x07 1 none
  if areaBlk ch blk then logErased b true else fmtStep p b ch blk

/-- BLOCK_ERASED (R324): A NAND block erase, taking about 3 ms, completes, which lets FORMAT, refresh and image or log
erases go on or finish. -/
def execBlockErased (ch blk : Nat) (s : State) : Host.Outcome State Fault Refusal :=
  effect (fun p b => if b.vault.powered && ch < p.vaultCh && blk < p.luns * 4096 then blkErased p b ch blk else b) s

/-- ERASE_FAIL (R338): A block erase fails: the block is replaced; in the log queue's areas the queue's operation ends with
an error, and the event reaches the referee as one of VAULT (R18). -/
def execEraseFail (ch blk : Nat) (s : State) : Host.Outcome State Fault Refusal :=
  effect (fun p b =>
    if b.vault.powered && ch < p.vaultCh && blk < p.luns * 4096 then
      if areaBlk ch blk then logErased b false
      else if b.vault.fenced || isDead b || decide (b.vault.ch ≤ ch) then b
      else fmtStep p (blkFails b ch blk) ch blk
    else b) s

/-- A write of VT_CMD's MOUNT. -/
def cmdMount (b : Block) : Block :=
  if b.vault.st = .off then cmdDone b 3 else modVault b (fun v => { v with st := .mounting, busy := 5 })

/-- An object as a metadata copy gives it; what the write buffer holds of it stays. [DEDUCED: log 143] -/
def mountObj (old : Obj) (m : MetaObj) : Obj :=
  let live : Bool := old.st ≠ .free && decide (old.gen = m.gen)
  { st := if m.st = 1 then .open else if m.st = 2 then .ready else if m.st = 3 then .deleting else .free,
    packed := m.packed, parts := m.parts, gen := m.gen, len := m.len, blocks := m.blocks, segs := m.segs, headers := m.headers,
    index := if m.packed ∧ m.st = 2 then placeIndex { Obj.reset with blocks := m.blocks, headers := m.headers } else [],
    closing := false, frontier := if live then old.frontier else m.frontier,
    written := if live then old.written else m.written, dirty := if live then old.dirty else [], susp := [], poison := m.poison, marked := [],
    birth := m.birth }

/-- Writes that the controller has not programmed fail: those it accepted and those on their way to it, but for those that
are kept (R331). -/
def vaultWritesFail (b : Block) (keep : Nat → WrReq → Bool) : Block :=
  forEach (b.stations.map (·.1)) b (fun b n =>
    let ws := (getStn b n).vWrTags.filter (fun e => !keep e.1 e.2)
    let b := if ws ≠ [] then vaultEv b 0x4F 0 else b
    let b := modStn b n (fun st => { st with vWrTags := st.vWrTags.filter (fun e => keep e.1 e.2) })
    forEach ws b (fun b e => vaultWrFail b n e.2))

/-- MOUNT (R324, R339): geometry, then the newest copy that checks; the blocks in use are scrubbed next, oldest program
first (R334). Where no object is served nothing stands in the buffers (R320), and a write of an object that is gone fails. [DEDUCED: log 55] [DEDUCED: log 143] -/
def mountEnd (p : Params) (b : Block) (geometryOk : Bool) (copy : Option MetaCopy) : Block :=
  if !geometryOk then
    cmdDone (modVault (vaultWritesFail b (fun _ _ => false)) (fun v => { v with st := .failed, cws := [] })) 5
  else match copy with
    | none => cmdDone (modVault (vaultWritesFail b (fun _ _ => false)) (fun v =>
        { v with st := .unformatted, cws := [], objs := [] })) 6
    | some m =>
      let chans := m.bad.foldl (fun t e => tmod t e.1 VChan.reset (fun c => { c with bad := c.bad ++ [(e.2.1, e.2.2)] }))
        (b.vault.chans.map (fun e => (e.1, { e.2 with bad := [], erases := [], offs := [] })))
      let chans := m.erases.foldl (fun t e => tmod t e.1 VChan.reset (fun c => { c with erases := tput c.erases e.2.1 e.2.2 })) chans
      let b := modVault b (fun v => { v with
        st := .ready, ch := p.vaultCh, chans := chans, retired := m.retired, cws := [],
        objs := m.objs.foldl (fun t o => tput t o.obj (mountObj (tgetD v.objs o.obj Obj.reset) o)) [] })
      let b := vaultWritesFail b (fun t w => decide (t < 256) ||
        (getObj b (w.va / 2 ^ 44)).dirty.contains (pageOfCw b.vault.ch (w.va % 2 ^ 44 / cwBytes)))
      let segs := (segList b.vault).foldl (fun acc e =>
        (acc.takeWhile (fun x => x.2.2.2 ≤ e.2.2.2)) ++ [e] ++ acc.dropWhile (fun x => x.2.2.2 ≤ e.2.2.2)) []
      cmdDone (modVault b (fun v => { v with scrubQ := segs.map (fun e => (e.1, e.2.1,
        (List.range p.vaultCh).flatMap (fun ch => [ch * 1024, ch * 1024 + 511, ch * 1024 + 1023]))) })) 0

/-- MOUNT (R324): Vault command, run at each vault power-up, that restores objects from the metadata area. -/
def execMount (geometryOk : Bool) (copy : Option MetaCopy) (s : State) : Host.Outcome State Fault Refusal :=
  effect (fun p b => if vaultRuns b && b.vault.st = .mounting then vaultSettle (mountEnd p b geometryOk copy) else b) s

/-! ## Fence, soft reset and failed channels (R342) -/

/-- Outstanding reads are delivered poisoned; unprogrammed writes fail. -/
def vaultFail (b : Block) : Block :=
  vaultWritesFail (vaultServeAll b) (fun _ _ => false)

/-- A fence of the VAULT source stops the data queue. [DEDUCED: log 57] -/
def vaultFence (b : Block) : Block :=
  let b := modVault b (fun v => { v with fenced := true })
  let b := vaultFail b
  modVault b (fun v => { v with cws := [], objs := v.objs.map (fun e => (e.1, { e.2 with dirty := [] })) })

/-- A soft reset discards both buffers and returns the controller to MOUNTING; the objects persist. -/
def vaultReset (b : Block) : Block :=
  let b := vaultFail b
  modVault b (fun v => { v with
    st := if v.powered then .mounting else .off, busy := if v.powered then 5 else 0, result := 0,
    cmdObj := 0, cws := [], order := [], fmtDone := [], scrubQ := [],
    objs := v.objs.map (fun e => (e.1, { e.2 with dirty := [], closing := false })) })

/-- Every LUN of a channel fails to respond: the channel is FAILED. -/
def execVaultChannelFailed (ch : Nat) (s : State) : Host.Outcome State Fault Refusal :=
  effect (fun p b =>
    if b.vault.powered && ch < p.vaultCh && !(getVCh b ch).failed then
      vaultEv (modVCh b ch (fun c => { c with failed := true })) 0x50 3 else b) s

end Sys2Proof.Machine
end

