-- ==== Sys2Proof/Machine/Power.lean ====
section
/-! DEFINITION. The power controller and the log ring: power states of stations and hub, operating points, sensors (R369 to
R376, R380, R381). -/
namespace Sys2Proof.Machine

/-! ## The log ring (R380, R381) -/

/-- The always-on log writer appends a record; a full ring loses its oldest. -/
def logAppend (b : Block) (typ sev src : Nat) (w2 w3 : Nat) : Block :=
  modMgmt b (fun m =>
    let r : LogRec := { seq := m.logSeq, typ := typ, sev := sev, src := src, boot := m.boots, time := b.ponTime,
                        w2 := BitVec.ofNat 64 w2, w3 := BitVec.ofNat 64 w3 }
    let lost := match m.log with
      | x :: _ => decide (2048 ≤ m.log.length) && decide (m.logCopied ≤ x.seq)
      | [] => false
    { m with
      log := (if 2048 ≤ m.log.length then m.log.drop 1 else m.log) ++ [r]
      logSeq := m.logSeq + 1
      overwritten := m.overwritten + b2n lost })

/-! ## Groups and operating points (R373 to R375) -/

def grpOf (n : Nat) : Nat := n / 8
def grpCount (p : Params) : Nat := (p.stations + 7) / 8
/-- Register of group g on the PWR page (R390). -/
def grpR (g : Nat) : Nat := pwrB + 0x48 + 4 * g
def getGrp (b : Block) (g : Nat) : Group := b.pwr.groups.getD g Group.reset
def modGrp (b : Block) (g : Nat) (f : Group → Group) : Block := modPwr b (fun w => { w with groups := w.groups.modify g f })
def grpStations (p : Params) (g : Nat) : List Nat := (List.range p.stations).filter (fun n => grpOf n = g)

/-- A station's power state as `PAGE_STATE.POWER` codes it (R28). -/
def powerCode (x : Power) : Nat :=
  match x with
  | .off => 0
  | .lull => 1
  | .active => 2
  | _ => 3

def inTransition (b : Block) (n : Nat) : Bool := powerCode (getStn b n).power = 3

/-- The group's PLL runs while a station of the group is not off (R373). -/
def pllOn (p : Params) (b : Block) (g : Nat) : Bool := (grpStations p g).any (fun n => (getStn b n).power ≠ .off)

/-- The lowest of the three limits (R374). -/
def opTarget (b : Block) (g : Nat) : Nat := min (rbits b (grpR g) 1 0) (min (getGrp b g).capM (getGrp b g).capT)

/-- Which limit the point comes from (R381): where several give it, the record's value is free. [DEDUCED: log 62] -/
def opLimit (b : Block) (g pt : Nat) : Nat × Block :=
  let l := ((if rbits b (grpR g) 1 0 = pt then [0] else []) ++ (if (getGrp b g).capM = pt then [1] else []) ++
    (if (getGrp b g).capT = pt then [2] else []))
  match l with
  | [x] => (x, b)
  | _ => let (v, b) := draw b
    (l.getD (v % l.length) 0, b)

/-- The divider switches to a point: the group runs at it, and the change is logged. [DEDUCED: log 62] -/
def opSwitch (b : Block) (g pt : Nat) : Block :=
  let old := (getGrp b g).cur
  let b := modGrp b g (fun x => { x with cur := pt, req := none })
  if old = pt then b
  else
    let (lim, b) := opLimit b g pt
    logAppend b 0x03 0 g (g + old * 2 ^ 4 + pt * 2 ^ 6 + lim * 2 ^ 8) 0

/-- A management reset lasts: the processor has been reset, by its watchdog, a fence or a restart, and its ROM has not handed
over yet (R19). [DEDUCED: log 146] -/
def mgmtDown (b : Block) : Bool :=
  decide (b.mgmt.st = .halted) || (decide (b.mgmt.st = .rom) && decide (2 ≤ b.mgmt.reason))

/-- Requests of Torvyo that the power controller has not begun are discarded (R19). [DEDUCED: log 146] -/
def dropRequests (b : Block) : Block :=
  modPwr b (fun w => { w with groups := w.groups.map (fun x => { x with capM := x.capWas.getD x.capM, capWas := none }) })

/-- The point a group moves to: the lowest limit; while a management reset lasts only a thermal or droop cap moves it, and
only down (R19, R374). -/
def opGoal (b : Block) (g : Nat) : Nat :=
  if mgmtDown b then min (getGrp b g).cur (getGrp b g).capT else opTarget b g

/-- The power controller moves a group towards the lowest limit: upward it requests the voltage and waits for the rail,
downward it switches first. A transition of a station of the group completes first (R389); dead ball holds every point. -/
def opChange (p : Params) (b : Block) (g : Nat) : Block :=
  let x := getGrp b g
  let t := opGoal b g
  let begun := fun (b : Block) => modGrp b g (fun x => { x with capWas := none })
  if isDead b || !pllOn p b g || (grpStations p g).any (inTransition b) || decide (grpCount p ≤ g) then b
  else if t < x.cur then opSwitch (begun b) g t
  else if x.cur < t ∧ x.req = none ∧ rbit b (grpR g) 9 = false then modGrp (begun b) g (fun x => { x with req := some t })
  else b

/-- OP_POINT_CHANGE (R375): The power controller changes a group's operating point in the upward or downward order. -/
def execOpPointChange (g : Nat) (s : State) : Host.Outcome State Fault Refusal := effect (fun p b => opChange p b g) s

/-- The rail reports the requested voltage: the divider switches, to no more than the limits then allow. [DEDUCED: log 66] -/
def railGood (b : Block) (g : Nat) : Block :=
  match (getGrp b g).req with
  | none => b
  | some t => if isDead b then b else opSwitch b g (min t (max (opTarget b g) (getGrp b g).cur))

/-- RAIL_GOOD (R419): GRPg_VGOOD indicates the rail has reached the requested voltage. -/
def execRailGood (g : Nat) (s : State) : Host.Outcome State Fault Refusal := effect (fun _ b => railGood b g) s

/-- No rail-good indication: the group keeps its point (R375). [DEDUCED: log 66] -/
def railTimeout (b : Block) (g : Nat) : Block :=
  match (getGrp b g).req with
  | none => b
  | some t =>
    let b := modGrp b g (fun x => { x with req := none })
    let b := setCause (rsetBits b (grpR g) 0x200) 1559 2
    senseEv (logAppend b 0x06 2 g g t) 0x53

/-- RAIL_TIMEOUT (R375): No rail-good indication within RAIL_TMO sets RAIL_ERR. -/
def execRailTimeout (g : Nat) (s : State) : Host.Outcome State Fault Refusal := effect (fun _ b => railTimeout b g) s

/-! ## Sensors (R369) -/

/-- A cap falls one step (R369, R390). [DEDUCED: log 64] -/
def capDrop (b : Block) (g : Nat) (droop : Bool) : Block :=
  let c := (getGrp b g).capT
  if c = 0 then b
  else
    let b := modGrp b g (fun x => { x with capT := c - 1 })
    let b := rcount b (pwrB + 0x80) 1
    let b := modMgmt b (fun m => if droop then { m with droopCaps := m.droopCaps + 1 }
      else { m with thermCaps := m.thermCaps + 1 })
    setCause (logAppend b 0x04 1 g (g + b2n droop * 2 ^ 3 + (c - 1) * 2 ^ 4) 0) 1559 1

/-- 1 ms in AO_REFCLK cycles. -/
def msTicks : Nat := 50000

/-- Whether a sensor's warning may repeat: at most once per 1 ms (R369). [DEDUCED: log 63] -/
def mayWarn (b : Block) (key : Nat) : Bool :=
  match tget b.pwr.warnAt key with
  | none => true
  | some t => t + msTicks ≤ b.aoTime

/-- Notes that a warning event has gone out now (R369). [DEDUCED: log 63] -/
def markWarn (b : Block) (key : Nat) : Block := modPwr b (fun w => { w with warnAt := tput w.warnAt key b.aoTime })

/-- The groups that a thermal sensor's warning lowers. -/
def warnGroups (p : Params) (idx : Nat) : List Nat := if 48 ≤ idx then List.range (grpCount p) else [grpOf idx]

def senseExists (p : Params) (idx : Nat) : Bool := decide (idx < p.stations) || decide (48 ≤ idx ∧ idx ≤ 51)

/-- A thermal sample: the warning with its effects, then the critical trip. -/
def thermal (p : Params) (b : Block) (idx : Nat) (q : BitVec 12) : Block :=
  let b := modPwr b (fun w => { w with sense := tput w.sense idx q })
  let t := sgn 12 q.toNat
  let b := if ((4 * rbits b (pwrB + 0x70) 7 0 : Nat) : Int) ≤ t ∧ mayWarn b idx then
      let b := senseEv (markWarn b idx) 0x53
      let b := forEach (warnGroups p idx) b (fun b g =>
        modGrp (capDrop b g false) g (fun x => { x with hot := if x.hot.contains idx then x.hot else x.hot ++ [idx] }))
      logAppend b 0x05 1 idx idx q.toNat
    else b
  if 500 ≤ t then senseEv (logAppend b 0x05 3 idx idx q.toNat) 0x54 else b

/-- THERMAL_SAMPLE (R369): A thermal sensor sample may trip a warning with a cap step, or trip critical. -/
def execThermalSample (idx : Nat) (q : BitVec 12) (s : State) : Host.Outcome State Fault Refusal :=
  effect (fun p b => if b.pwr.boot ≠ .reset ∧ senseExists p idx then thermal p b idx q else b) s

/-- Droop trips of a group within the last 1 ms. -/
def recentDroops (b : Block) (g : Nat) : List Nat := (getGrp b g).droopT.filter (fun t => decide (b.aoTime < t + msTicks))

/-- A droop trip of a station: counted; more than DROOP_N of its group within 1 ms warn and lower its cap. [DEDUCED: log 64] -/
def droop (b : Block) (n : Nat) : Block :=
  let g := grpOf n
  let b := rcount b (pwrB + 0x7C) 1
  let b := modPwr b (fun w => { w with stnDroops := tmod w.stnDroops n 0 (fun x => satAdd 0xFFFFFFFF x 1) })
  let l := recentDroops b g ++ [b.aoTime]
  let b := modGrp b g (fun x => { x with droopT := l })
  if rbits b (pwrB + 0x70) 31 16 < l.length ∧ mayWarn b (64 + g) then
    let b := senseEv (markWarn b (64 + g)) 0x53
    if (getGrp b g).capT = 0 then logAppend b 0x04 1 g (g + 2 ^ 3) 0 else capDrop b g true
  else b

/-- DROOP_TRIP (R369): A droop trip stretches the group's sclk and may warn and lower its cap. -/
def execDroopTrip (n : Nat) (s : State) : Host.Outcome State Fault Refusal :=
  effect (fun p b => if b.pwr.boot ≠ .reset ∧ n < p.stations then droop b n else b) s

/-- The rail of a running group leaves its band: a droop trip of each of its stations (R440). -/
def execVgoodFall (g : Nat) (s : State) : Host.Outcome State Fault Refusal :=
  effect (fun p b => if b.pwr.boot ≠ .reset ∧ pllOn p b g then forEach (grpStations p g) b droop else b) s

/-- The monitored clocks: group PLLs 0 to 5, hub PLL 6, lclk 7, vclk 8, mclk 9, aclk 10. A clock is watched while it
runs. [DESIGN CHOICE: log 65] -/
def clockRuns (p : Params) (b : Block) (clk : Nat) : Bool :=
  if clk < 6 then pllOn p b clk
  else match clk with
    | 6 | 9 => b.pwr.hubOn
    | 7 => (List.range p.linkPorts).any (fun i => pageEnable b (lportB i))
    | 8 => b.vault.powered
    | 10 => (List.range p.stations).any (fun n => pageEnable b (nearB n))
    | _ => false

/-- CLOCK_MONITOR_TRIP (R369): A monitored clock leaves ±2 % or loses lock, raising SENSE_CRIT. -/
def execClockMonitorTrip (clk : Nat) (s : State) : Host.Outcome State Fault Refusal :=
  effect (fun p b => if b.pwr.boot ≠ .reset ∧ clockRuns p b clk then senseEv b 0x54 else b) s

/-- A cap rises one step after 1 ms in which the sensors that lowered it read at least 5 °C below TWARN and the group made
no more than DROOP_N droop trips. -/
def capRaise (b : Block) (g : Nat) : Block :=
  let x := getGrp b g
  let lim : Int := 4 * (((rbits b (pwrB + 0x70) 7 0 : Nat) : Int) - 5)
  let cool := x.hot.all (fun i => match tget b.pwr.sense i with
    | some q => decide (sgn 12 q.toNat ≤ lim)
    | none => true)
  if x.capT < 3 ∧ cool ∧ (recentDroops b g).length ≤ rbits b (pwrB + 0x70) 31 16 ∧ !isDead b then
    modGrp b g (fun x => { x with capT := x.capT + 1, hot := if x.capT = 2 then [] else x.hot })
  else b

/-- CAP_RAISE (R369): After 1 ms of cool and quiet conditions, a thermal or droop cap rises one step. -/
def execCapRaise (g : Nat) (s : State) : Host.Outcome State Fault Refusal :=
  effect (fun p b => if b.pwr.boot ≠ .reset ∧ g < grpCount p then capRaise b g else b) s

/-! ## Power states of stations (R370 to R372) -/

/-- The station whose pages an access reaches. -/
def accStn (x : Access) : Option Nat := (pageOf x.addr.toNat).bind pageStn

/-- A strand that lets its station sleep: idle, or waiting on a tally with nothing in flight (R371). [DEDUCED: log 67] -/
def strandQuiet (s : Strand) : Bool :=
  s.entry.isNone || (decide (s.blocked = .wait) && s.ops.all (fun o => !isData o) && decide (s.sigs = []))

/-- A station is idle (R371): and no response of its ports is outstanding (R420). [DEDUCED: log 67] -/
def stnIdle (b : Block) (n : Nat) : Bool :=
  let st := getStn b n
  (stnStrands b n).all (fun e => strandQuiet e.2) && decide (st.haz = []) && decide (st.staged = []) &&
    decide (st.nearRd = []) && decide (st.nearWr = []) && decide (st.inQ = []) && decide (st.rdTags = []) &&
    decide (st.wRdTags = []) && decide (st.vRdTags = []) && decide (st.wrTags = []) && decide (st.wWrTags = []) &&
    decide (st.vWrTags = []) && decide (st.pfOut = []) && decide (st.oldRd = []) && decide (st.oldPf = []) && decide (st.resetting = 0) && !(getSrc b n).fencing &&
    b.cfg.held.all (fun x => decide (accStn x ≠ some n))

def stnWake (b : Block) (n : Nat) : Bool := rbit b (stnB n + 0x40) 0
def noOff (b : Block) (n : Nat) : Bool := rget64 b (pwrB + 0x60) |>.testBit n
def noLull (b : Block) (n : Nat) : Bool := rget64 b (pwrB + 0x68) |>.testBit n

/-- Entry into lull begins; a management reset holds every station's state (R19). -/
def lullEntry (b : Block) (n : Nat) : Block :=
  let st := getStn b n
  if st.power = .active ∧ stnIdle b n ∧ !noLull b n ∧ !stnWake b n ∧ !isDead b ∧ !mgmtDown b ∧ !st.wakeReq then
    setStn b n { st with power := .toLull }
  else b

/-- LULL_ENTRY (R371): After LULL_IDLE of idleness a station begins entry into lull. -/
def execLullEntry (n : Nat) (s : State) : Host.Outcome State Fault Refusal := effect (fun _ b => lullEntry b n) s

/-- Entry into off begins, unless a thaw is requested: the station that was entering lull then loses nothing (R20). -/
def offEntry (b : Block) (n : Nat) : Block :=
  let st := getStn b n
  if st.power = .lull ∧ !noLull b n ∧ !noOff b n ∧ !stnWake b n ∧ rbits b (pwrB + 0x40) 31 16 ≠ 0 ∧ !isDead b ∧ !mgmtDown b ∧
      !st.wakeReq then
    setStn b n { st with power := .toOff }
  else b

/-- OFF_ENTRY (R371): After OFF_IDLE in lull a station begins entry into off. -/
def execOffEntry (n : Nat) (s : State) : Host.Outcome State Fault Refusal := effect (fun _ b => offEntry b n) s

/-- What a station loses in off (R370): caches, instruction buffers, shaper history and statistics, codec slots. -/
def offLoss (b : Block) (n : Nat) : Block :=
  let b := modStn b n (fun st => { st with
    dcache := [], pfQ := [], hist := [], slots := List.replicate 4 CSlot.reset })
  { b with strands := b.strands.map (fun e => if e.1 / 256 = n then (e.1, { e.2 with
      lines := [], ranges := [], stats := Stats.reset, entry := e.2.entry.map (fun x => { x with xl := [] }) }) else e) }

/-- A group whose last station has gone off holds its rail at the lowest voltage (R373). [DEDUCED: log 61] -/
def grpSleep (p : Params) (b : Block) (g : Nat) : Block :=
  if pllOn p b g ∨ isDead b then b else modGrp b g (fun x => { x with cur := 0, req := none })

/-- An entry into lull or off completes. -/
def transDone (p : Params) (b : Block) (n : Nat) : Block :=
  match (getStn b n).power with
  | .toLull => modStn b n (fun st => { st with power := .lull })
  | .toOff => grpSleep p (offLoss (modStn b n (fun st => { st with power := .off })) n) (grpOf n)
  | _ => b

/-- A requested thaw begins; one that meets an entry into off loses what off loses (R20). No station thaws in dead ball. -/
def thaw (b : Block) (n : Nat) : Block :=
  let st := getStn b n
  if !st.wakeReq || isDead b then b
  else match st.power with
    | .lull | .toLull => setStn b n { st with power := .thawLull }
    | .off => setStn b n { st with power := .thawOff }
    | .toOff => offLoss (setStn b n { st with power := .thawOff }) n
    | _ => b

/-- THAW (R372): A doorbell, tally wake, access, timeout, packet or WAKE write requests a station's thaw. -/
def execThaw (n : Nat) (s : State) : Host.Outcome State Fault Refusal := effect (fun _ b => thaw b n) s

/-- The group's rail returns to its operating point with the first thaw from off, unless RAIL_ERR holds it (R372, R375).
[DEDUCED: log 61] -/
def grpWake (b : Block) (n : Nat) : Block :=
  let g := grpOf n
  if rbit b (grpR g) 9 ∨ (getGrp b g).cur ≠ 0 then b else modGrp b g (fun x => { x with cur := opTarget b g })

/-- A thaw completes: the station is active, the sums that its wake queue held apply, and its strands refetch what off
lost. -/
def thawEnd (b : Block) (n : Nat) : Block :=
  let st := getStn b n
  let off : Bool := st.power = .thawOff
  if off || decide (st.power = .thawLull) then
    let b := setStn b n { st with power := .active, wakeReq := false }
    let b := count (rcount b (stnB n + 0x4C) 1) (.station n) 0x1B 1 none
    let b := rcount b (pwrB + (if off then 0x94 else 0x98)) 1
    let b := if off && !isDead b then grpWake b n else b
    if isDead b then b
    else
      let b := applyWake b n
      if stnFenced b n then b
      else forEach ((stnStrands b n).filter (fun e => e.2.entry.isSome && decide (e.2.st = .run))) b (fun b e => refetch b n e.1)
  else b

/-! ## The hub core (R376) -/

def chanQuiet (x : Chan) : Bool :=
  decide (x.tail = x.done) && decide (x.reading = []) && decide (x.got = []) && x.accepting.isNone &&
    decide (x.accepted = []) && decide (x.compl = [])

/-- The conditions under which the hub core may power down. [DEDUCED: log 68] -/
def hubIdle (p : Params) (b : Block) : Bool :=
  (List.range p.stations).all (fun n => (getStn b n).power = .off) && decide (rbits b (pwrB + 0x44) 15 0 ≠ 0) &&
    b.chans.all (fun e => chanQuiet e.2) && decide (b.walks = []) &&
    b.parts.all (fun e => e.2.cur.isNone && e.2.pend.isNone && decide (e.2.recs = [])) &&
    (List.range p.linkPorts).all (fun i => (getPort b i).st = .off) && !pageEnable b vaultB && !b.vault.powered &&
    b.adds.all (fun a => (talStn a.tally).isSome) && decide (b.hubWr = []) && decide (b.hubQ = []) && decide (b.irqs = []) &&
    decide (b.invQ = []) && decide (b.invals = []) && decide (b.cfg.held = [])

/-- HUB_POWER_DOWN (R376): When its conditions hold for HUB_IDLE, the hub core powers down into retention. -/
def execHubPowerDown (s : State) : Host.Outcome State Fault Refusal :=
  effect (fun p b =>
    if b.pwr.hubOn && !b.pwr.hubGoingUp && hubIdle p b && !isDead b && !mgmtDown b then modPwr b (fun w => { w with hubOn := false }) else b) s

/-- Whether something needs the hub core (R376): an access that waits, a global tally operation, an interrupt message.
[DEDUCED: log 68] -/
def hubWanted (b : Block) : Bool :=
  decide (b.cfg.held ≠ []) || b.adds.any (fun a => (talStn a.tally).isNone) || decide (b.irqs ≠ [])

/-- HUB_POWER_UP (R376): An access, global tally operation or interrupt cause powers the hub core up. -/
def execHubPowerUp (s : State) : Host.Outcome State Fault Refusal :=
  effect (fun _ b =>
    if b.pwr.boot = .hubReady ∧ !b.pwr.hubOn ∧ !isDead b ∧ hubWanted b then modPwr b (fun w => { w with hubGoingUp := true })
    else b) s

end Sys2Proof.Machine
end

