-- ==== Sys2Proof/Machine/Clock.lean ====
section
/-! DEFINITION. One cycle of AO_REFCLK with no command waiting: the two always-on times, the vault's powered seconds, and the
counters of clock cycles (R334, R353, R381, R394, R416). -/
namespace Sys2Proof.Machine

/-- Cycles of a clock of `num` / `den` cycles per AO_REFCLK cycle that fall into cycle t. -/
def cyclesIn (num den t : Nat) : Nat := (t + 1) * num / den - t * num / den

/-- Twice the sclk cycles per AO_REFCLK cycle at an operating point (R374, R416). -/
def sclkRate (point : Nat) : Nat :=
  match point with
  | 0 => 20
  | 1 => 36
  | 2 => 45
  | _ => 60

/-- Event 0x01 of every location whose clock runs (R394, R395). -/
def clockEvents (p : Params) (b : Block) : Block :=
  let t := b.aoTime
  let b := if b.pwr.hubOn then count b .hub 1 (cyclesIn 20 1 t) none else b
  let b := if b.vault.powered then count b .vault 1 (cyclesIn 18 1 t) none else b
  let b := forEach ((List.range p.linkPorts).filter (fun i => decide ((getPort b i).st = .up))) b (fun b i =>
    count b (.port i) 1 (cyclesIn 125 4 t) none)
  forEach ((List.range p.stations).filter (stnActive b)) b (fun b n =>
    count b (.station n) 1 (cyclesIn (sclkRate (getGrp b (grpOf n)).cur) 2 t) none)

/-- Powered time of the vault: a second has 50,000,000 cycles. -/
def vaultTime (v : Vault) : Vault :=
  if !v.powered then v
  else if v.poweredT + 1 < 50000000 then { v with poweredT := v.poweredT + 1 }
  else { v with poweredT := 0, poweredS := v.poweredS + 1 }

/-- The block idles for one AO_REFCLK cycle. [DESIGN CHOICE: log 2] -/
def aoTick (p : Params) (b : Block) : Block :=
  let b := modVault (clockEvents p b) vaultTime
  { b with aoTime := b.aoTime + 1, ponTime := b.ponTime + 1 }

/-- A step with an empty queue. [DESIGN CHOICE: log 2] -/
def idle (s : State) : Host.Outcome State Fault Refusal := effect aoTick s

end Sys2Proof.Machine
end

