-- ==== Sys2Proof/Machine/Referee.lean ====
section
/-! DEFINITION. The referee: sources and escalation, records and the queue, fences, dead ball (R346 to R366). -/
namespace Sys2Proof.Machine

/-- What a source's fence stops (R346). -/
inductive Target
  | none
  | station (n : Nat)
  | xlat
  | link (p : Nat)
  | vault
  | mgmt
  | pmu
  deriving DecidableEq, Repr

def srcTarget (src : Nat) : Target :=
  if src < 48 then .station src
  else if src = 48 then .xlat
  else if 50 ≤ src ∧ src < 54 then .link (src - 50)
  else if src = 54 then .vault
  else if src = 55 then .mgmt
  else if src = 56 then .pmu
  else .none

/-- Whether a source is present (R6, R26, R346). -/
def srcPresent (p : Params) (src : Nat) : Bool :=
  if src < 48 then src < p.stations
  else if 50 ≤ src ∧ src < 54 then src - 50 < p.linkPorts
  else if src = 54 then 0 < p.vaultCh
  else src < 60

/-- Initial severity of an event kind (R352): 0 MINOR, 1 MAJOR, 2 CRITICAL. -/
def kindSev (kind : Nat) : Nat :=
  if kind = 0x42 ∨ kind = 0x55 then 1
  else if kind = 0x54 ∨ kind = 0x56 ∨ kind = 0x58 ∨ kind = 0x59 then 2
  else 0

/-- The event kinds of a source (R352). -/
def kindsOf (src : Nat) : List Nat :=
  if src < 48 then [0x40, 0x41, 0x42, 0x43, 0x44, 0x46, 0x55]
  else if src = 48 then [0x44, 0x48, 0x49]
  else if src = 49 then [0x47]
  else if src = 50 then [0x44, 0x4A, 0x4B, 0x4C, 0x4D]
  else if src < 54 then [0x44, 0x4A, 0x4B, 0x4C]
  else if src = 54 then [0x44, 0x4E, 0x4F, 0x50]
  else if src = 55 then [0x51, 0x52]
  else if src = 56 then [0x44]
  else if src = 57 then [0x44, 0x45, 0x46]
  else if src = 58 then [0x53, 0x54]
  else [0x57, 0x58]

def sevOf (x : SrcSt) : Nat :=
  match x with
  | .idle | .minor => 0
  | .major => 1
  | .critical => 2

/-- State code of SRC_STATE (R366). -/
def srcCode (x : SrcSt) : Nat :=
  match x with
  | .idle => 0
  | .minor => 1
  | .major => 2
  | .critical => 3

/-- MAJOR_ACT: the collector's is fixed at DEAD_BALL (R358, R366). -/
def majorAct (b : Block) (src : Nat) : Nat := if src = srcColl then 2 else rbits b (fsR src 0) 9 8
def escN (b : Block) (src : Nat) : Nat := rbits b (fsR src 0) 7 0
def escWin (b : Block) (src : Nat) : Nat := rbits b (fsR src 0) 31 16

/-- Queue a record of class EVENT or REACTION into its source's holding buffer. -/
def raiseRec (b : Block) (src cls kind unit sev : Nat) (insvc : Bool) (addr detail : DWord) : Block :=
  holdRec b { src := src, cls := cls, kind := kind, unit := unit, sev := sev, insvc := insvc, seq := 0,
              time := BitVec.ofNat 64 b.aoTime, addr := addr, detail := detail }

/-- A reaction record (R350, R358): no strand, no address. -/
def reaction (b : Block) (src kind : Nat) (insvc : Bool) (detail : Nat) : Block :=
  raiseRec b src 2 kind noUnit (sevOf (getSrc b src).st) insvc 0 (BitVec.ofNat 64 detail)

/-- The STOP marker of R304. [DEDUCED: log 71] -/
def stopPkt : Packet := { h0 := 10, h1 := 0, mask := 0, data := 0 }

/-- Dead ball is entered (R358, R359): the first trigger is kept, every UP port holds its STOP alone. [DEDUCED: log 71]
[DEDUCED: log 99] -/
def enterDead (b : Block) (src kind : Nat) : Block :=
  if b.ref.dead then b
  else
    let b := reaction b src 0x62 ((getSrc b src).st ≠ .idle) (kind * 2 ^ 8)
    let b := modRef b (fun r => { r with dead := true, dbSrc := src, dbKind := kind })
    let b := setCause b 1557 0x10
    let b := logAppend b 0x07 3 0 0 0
    let b := modMgmt b (fun m => { m with deadBalls := m.deadBalls + 1 })
    { b with ports := b.ports.map (fun (e : Nat × Port) =>
        (e.1, if e.2.st = .up then { e.2 with outQ := [⟨4, 4, stopPkt, []⟩] } else e.2)) }

/-! ## Fences (R350, R67) -/

/-- The page whose FENCE bit belongs to a target. -/
def targetPage : Target → Option Nat
  | .station n => some (stnB n)
  | .xlat => some xlatB
  | .link p => some (lportB p)
  | .vault => some vaultB
  | .pmu => some hcntB
  | _ => none

/-- A unit stops at once (R67, R277, R303, R342, R19). [DEDUCED: log 46] -/
def fenceUnit (b : Block) (t : Target) : Block :=
  match t with
  | .station n =>
    let b := linkUnavail (stationStop b n 0x21) n
    modStn b n (fun st => { st with fenced := true, wasReset := false })
  | .xlat => xlatFence b
  | .link p => if (getPort b p).fenced then b else modPort (portDown b p 5) p (fun pt => { pt with fenced := true })
  | .vault => if b.vault.fenced then b else vaultFence b
  | .mgmt => dropRequests (modMgmt b (fun m => { m with st := .halted, wdog := false, taken := none, outQ := [] }))
  | .pmu | .none => b

/-- The unit has stopped (R346). -/
def unitStopped (b : Block) (t : Target) : Bool :=
  match t with
  | .station n => (getStn b n).fenced
  | .xlat => pageFence b xlatB && xlatQuiet b
  | .link p => (getPort b p).fenced
  | .vault => b.vault.fenced
  | .mgmt => b.mgmt.st = .halted
  | .pmu => pageFence b hcntB
  | .none => false

/-- A fence that the referee commanded is complete: FENCED sets, its record is queued, its cause latches. -/
def fenceDone (b : Block) (src us : Nat) : Block :=
  let b := modSrc b src (fun s => { s with fencing := false, fenced := true })
  setCause (reaction b src 0x61 true (us % 2 ^ 32)) 1557 4

/-- The referee commands a fence; a target that the driver has fenced already is found complete. -/
def fenceCmd (b : Block) (src : Nat) : Block :=
  let t := srcTarget src
  if t = .none then b
  else
    let already := unitStopped b t
    let b := match targetPage t with
      | some a => rsetBits b (a + 8) 2
      | none => b
    if already then fenceDone b src 0
    else fenceUnit (modSrc b src (fun s => { s with fencing := true, fenced := false })) t

/-! ## Events (R347 to R350, R356) -/

/-- The source becomes MAJOR or CRITICAL, and the referee reacts. [DEDUCED: log 74] -/
def escalate (b : Block) (src kind : Nat) (old new : SrcSt) (insvc : Bool) : Block :=
  let major := new = .major && (old = .idle || old = .minor)
  let db := major && majorAct b src = 2
  let b := modSrc b src (fun s => { s with st := if db then .critical else new })
  let b := if major then
      setCause (reaction b src 0x60 insvc (escN b src + escWin b src * 2 ^ 8)) 1557 2
    else b
  if db || (new = .critical) then enterDead b src kind
  else if major && majorAct b src = 0 then fenceCmd b src
  else b

/-- What an event of the block's own storage leaves behind beside its record. [DEDUCED: log 72] -/
def eventSide (b : Block) (e : Ev) : Block :=
  match e.kind with
  | 0x49 => brokenMark b (e.unit % 16)
  | 0x57 => rcount b (fcB + 0x64) 1
  | _ => b

/-- A counted event reaches the referee: it is counted and recorded, and may escalate. -/
def srcEvent (b : Block) (e : Ev) : Block :=
  let s := getSrc b e.src
  let insvc : Bool := s.st ≠ .idle
  let b := rcount b (fsR e.src 8) 1
  let cnt := if s.window then min 255 (s.count + 1) else 1
  let hit := decide (escN b e.src ≠ 0) && decide (escN b e.src ≤ cnt)
  let sev := kindSev e.kind
  let st0 := if s.st = .idle then SrcSt.minor else s.st
  let new := if sev = 2 then SrcSt.critical
    else if (sev = 1 || hit) && st0 = .minor then .major
    else st0
  let shown := if new = .major ∧ st0 = .minor ∧ majorAct b e.src = 2 then SrcSt.critical else new
  let b := setSrc b e.src { getSrc b e.src with st := st0, window := !hit, count := if hit then 0 else cnt }
  let b := raiseRec b e.src 1 e.kind e.unit (sevOf shown) insvc e.addr e.detail
  escalate b e.src e.kind st0 new insvc

/-- Take the oldest event that a source's pin carries. -/
def takePin (l : List Ev) (src : Nat) : Option (Ev × List Ev) :=
  match l with
  | [] => none
  | e :: t => if e.src = src then some (e, t) else (takePin t src).map (fun x => (x.1, e :: x.2))

/-- Content faults that stand at the front of what a source's pin carries go to its holding buffer. -/
def drainData : Nat → Block → Nat → Block
  | 0, b, _ => b
  | f + 1, b, src =>
    match takePin b.ref.pins src with
    | some (e, t) =>
      if e.kind < 0x40 then
        drainData f (holdRec (modRef b (fun r => { r with pins := t })) (dataOf b e)) src
      else b
    | none => b

/-- The referee samples a source: its oldest event, then the content faults that were raised after it (R347, R364). -/
def sample (b : Block) (src : Nat) : Block :=
  match takePin b.ref.pins src with
  | none => b
  | some (e, t) =>
    let b := modRef b (fun r => { r with pins := t })
    drainData (t.length + 1) (srcEvent b e) src

/-- An error of storage or spine that no other command of the table brings about reaches the pin. [DEDUCED: log 30]
[DEDUCED: log 72] [DEDUCED: log 108] [DEDUCED: log 113] -/
def extPin (b : Block) (src : Nat) (x : ExtEvent) : Block :=
  if (kindsOf src).contains x.kind then
    let e : Ev := { src := src, kind := x.kind, unit := x.unit % 4096, addr := x.addr, detail := x.detail }
    eventSide (modRef b (fun r => { r with pins := r.pins ++ [e] })) e
  else b

/-- An escalation window ends below ESC_N and closes (R349). -/
def execEscalationWindowEnd (src : Nat) (s : State) : Host.Outcome State Fault Refusal :=
  effect (fun _ b => if (getSrc b src).window then modSrc b src (fun x => { x with window := false, count := 0 }) else b) s

/-! ## The queue (R354, R355) -/

/-- A record enters the queue under its SEQ. -/
def enqueue (b : Block) (r : Rec) : Block :=
  let was := b.ref.queue.length
  let b := modRef b (fun x => { x with queue := x.queue ++ [{ r with seq := x.seq }], seq := x.seq + 1 })
  let b := count b .hub 0x0B 1 none
  if was = 0 then setCause b 1557 1 else b

/-- The lowest source that awaits a summary. -/
def summarySrc (b : Block) : Option Nat :=
  (List.range 60).find? (fun i => decide ((getSrc b i).lostEv + (getSrc b i).lostData ≠ 0))

/-- A SUMMARY record of a source is inserted (R355). -/
def insertSummary (b : Block) (src : Nat) : Block :=
  let s := getSrc b src
  let b := setSrc b src { s with lostEv := 0, lostData := 0 }
  enqueue b { src := src, cls := 3, kind := 0x7F, unit := noUnit, sev := 0, insvc := decide (s.st ≠ .idle), seq := 0,
              time := BitVec.ofNat 64 b.aoTime, addr := 0, detail := BitVec.ofNat 64 (s.lostEv + s.lostData * 2 ^ 32) }

/-- The next source in rotation that holds a record. -/
def holdSrc (b : Block) : Option Nat :=
  (((List.range 60).map (fun (i : Nat) => (b.ref.rot + i) % 60)).find? (fun i => decide ((getSrc b i).hold ≠ [])))

/-- One record reaches the queue in an AO_REFCLK cycle: summaries first, then the holding buffers in rotation. -/
def queueOne (b : Block) : Block :=
  if 512 ≤ b.ref.queue.length then b
  else match summarySrc b with
    | some i => insertSummary b i
    | none => match holdSrc b with
      | none => b
      | some i => match (getSrc b i).hold with
        | [] => b
        | r :: t =>
          let b := modSrc b i (fun s => { s with hold := t })
          enqueue (modRef b (fun x => { x with rot := i + 1 })) r

/-- RECORD_QUEUE (R347): The queue takes one record per AO_REFCLK cycle from the holding buffers in rotation. -/
def execRecordQueue (s : State) : Host.Outcome State Fault Refusal :=
  effect (fun _ b => if b.pwr.boot = .reset then b else queueOne b) s

/-- FC_POP: the oldest record goes, and a summary that waits takes its place at once (R354, R355). -/
def popRec (b : Block) : Block :=
  if b.ref.queue = [] then b
  else
    let b := modRef b (fun r => { r with queue := r.queue.drop 1 })
    match summarySrc b with
    | some i => insertSummary b i
    | none => b

/-- Word Q0 of a record (R353). -/
def recQ0 (r : Rec) : Nat :=
  r.src + r.cls * 2 ^ 6 + r.kind * 2 ^ 8 + r.unit * 2 ^ 16 + r.sev * 2 ^ 28 + b2n r.insvc * 2 ^ 30 + r.seq.toNat * 2 ^ 32

/-- A record's eight words, Q0 low word first. -/
def recWords (r : Rec) : List Word :=
  [BitVec.ofNat 32 (recQ0 r), BitVec.ofNat 32 (recQ0 r / 2 ^ 32), BitVec.ofNat 32 r.time.toNat,
   BitVec.ofNat 32 (r.time.toNat / 2 ^ 32), BitVec.ofNat 32 r.addr.toNat, BitVec.ofNat 32 (r.addr.toNat / 2 ^ 32),
   BitVec.ofNat 32 r.detail.toNat, BitVec.ofNat 32 (r.detail.toNat / 2 ^ 32)]

/-- A read of FC_REC0 latches the oldest record; zeros when there is none (R354). -/
def latchRec (b : Block) : Block :=
  modRef b (fun r => { r with latch := match r.queue with
    | [] => List.replicate 8 0
    | x :: _ => recWords x })

/-! ## Fences and dead ball -/

/-- FENCE_COMPLETE (R350): A fenced target reports completion, and FENCED sets with a record. -/
def execFenceComplete (src us : Nat) (s : State) : Host.Outcome State Fault Refusal :=
  effect (fun _ b => if (getSrc b src).fencing && unitStopped b (srcTarget src) then fenceDone b src us else b) s

/-- A station has reported its halt; one in lull or off does so at once (R359). [DEDUCED: log 73] -/
def stnHalted (b : Block) (n : Nat) : Bool :=
  (getStn b n).halted || decide ((getStn b n).power = .off) || decide ((getStn b n).power = .lull)

/-- Every unit has reported its halt: SAFE_OUT asserts (R359). [DEDUCED: log 73] -/
def safeNow (p : Params) (b : Block) : Block :=
  if (List.range p.stations).all (stnHalted b) && (b.ref.linkHalted || decide (p.linkPorts = 0)) then
    modRef b (fun r => { r with safe := true })
  else b

/-- A station, or the link engine, reports its halt (R359). A station in transition finishes it first. -/
def haltReport (p : Params) (b : Block) (n : Option Nat) : Block :=
  if !isDead b then b
  else match n with
    | some n => if n < p.stations ∧ !inTransition b n then safeNow p (modStn b n (fun st => { st with halted := true })) else b
    | none =>
      if (List.range p.linkPorts).all (fun i => (getPort b i).st ≠ .up || (getPort b i).stopSent) then
        safeNow p (modRef b (fun r => { r with linkHalted := true }))
      else b

/-- HALT_REPORT (R359): A station or the link engine reports its halt in dead ball; SAFE_OUT asserts when all have
reported. -/
def execHaltReport (n : Option Nat) (s : State) : Host.Outcome State Fault Refusal := effect (fun p b => haltReport p b n) s

/-- 2 µs after the trigger SAFE_OUT asserts without the reports that are missing. -/
def execSafeTimeout (s : State) : Host.Outcome State Fault Refusal :=
  effect (fun _ b =>
    if isDead b ∧ !b.ref.safe then modRef b (fun r => { r with safe := true, haltIncomplete := true }) else b) s

/-- The two pins (R357, R359, R421). -/
def whistle (b : Block) : Bool :=
  decide (b.pwr.boot = .reset) || b.ref.dead || b.ref.srcs.any (fun e => decide (e.2.st ≠ .idle))
def safeOut (b : Block) : Bool := decide (b.pwr.boot = .reset) || b.ref.safe

end Sys2Proof.Machine
end

