-- ==== Sys2Proof/Machine/Verify.lean ====
section
/-! DEFINITION. The verification of firmware images: SHA-384 and ECDSA over P-384 (R367, R384). The spec names both; their
constants and steps are those of FIPS 180-4 and FIPS 186-4. [PRESUMED: log 149] -/
namespace Sys2Proof.Machine

/-- Continue with a number's value: evaluation computes it first. -/
def evalNat {α : Type} (x : Nat) (f : Nat → α) : α :=
  match x with
  | 0 => f 0
  | n + 1 => f (n + 1)

/-! ## SHA-384 -/

/-- Round constants. -/
def shaK : List Nat :=
  [0x428A2F98D728AE22, 0x7137449123EF65CD, 0xB5C0FBCFEC4D3B2F, 0xE9B5DBA58189DBBC,
   0x3956C25BF348B538, 0x59F111F1B605D019, 0x923F82A4AF194F9B, 0xAB1C5ED5DA6D8118,
   0xD807AA98A3030242, 0x12835B0145706FBE, 0x243185BE4EE4B28C, 0x550C7DC3D5FFB4E2,
   0x72BE5D74F27B896F, 0x80DEB1FE3B1696B1, 0x9BDC06A725C71235, 0xC19BF174CF692694,
   0xE49B69C19EF14AD2, 0xEFBE4786384F25E3, 0x0FC19DC68B8CD5B5, 0x240CA1CC77AC9C65] ++
  [0x2DE92C6F592B0275, 0x4A7484AA6EA6E483, 0x5CB0A9DCBD41FBD4, 0x76F988DA831153B5,
   0x983E5152EE66DFAB, 0xA831C66D2DB43210, 0xB00327C898FB213F, 0xBF597FC7BEEF0EE4,
   0xC6E00BF33DA88FC2, 0xD5A79147930AA725, 0x06CA6351E003826F, 0x142929670A0E6E70,
   0x27B70A8546D22FFC, 0x2E1B21385C26C926, 0x4D2C6DFC5AC42AED, 0x53380D139D95B3DF,
   0x650A73548BAF63DE, 0x766A0ABB3C77B2A8, 0x81C2C92E47EDAEE6, 0x92722C851482353B] ++
  [0xA2BFE8A14CF10364, 0xA81A664BBC423001, 0xC24B8B70D0F89791, 0xC76C51A30654BE30,
   0xD192E819D6EF5218, 0xD69906245565A910, 0xF40E35855771202A, 0x106AA07032BBD1B8,
   0x19A4C116B8D2D0C8, 0x1E376C085141AB53, 0x2748774CDF8EEB99, 0x34B0BCB5E19B48A8,
   0x391C0CB3C5C95A63, 0x4ED8AA4AE3418ACB, 0x5B9CCA4F7763E373, 0x682E6FF3D6B2B8A3,
   0x748F82EE5DEFB2FC, 0x78A5636F43172F60, 0x84C87814A1F0AB72, 0x8CC702081A6439EC] ++
  [0x90BEFFFA23631E28, 0xA4506CEBDE82BDE9, 0xBEF9A3F7B2C67915, 0xC67178F2E372532B,
   0xCA273ECEEA26619C, 0xD186B8C721C0C207, 0xEADA7DD6CDE0EB1E, 0xF57D4F7FEE6ED178,
   0x06F067AA72176FBA, 0x0A637DC5A2C898A6, 0x113F9804BEF90DAE, 0x1B710B35131C471B,
   0x28DB77F523047D84, 0x32CAAB7B40C72493, 0x3C9EBE0A15C9BEBC, 0x431D67C49C100D4C,
   0x4CC5D4BECB3E42B6, 0x597F299CFC657E2A, 0x5FCB6FAB3AD6FAEC, 0x6C44198C4A475817]

/-- The initial hash value. -/
def shaInit : List Nat :=
  [0xCBBB9D5DC1059ED8, 0x629A292A367CD507, 0x9159015A3070DD17, 0x152FECD8F70E5939,
   0x67332667FFC00B31, 0x8EB44A8768581511, 0xDB0C2E0D64F98FA7, 0x47B5481DBEFA4FA4]

def rotr64 (x n : Nat) : Nat := x / 2 ^ n + x % 2 ^ n * 2 ^ (64 - n)
def shaBig0 (x : Nat) : Nat := rotr64 x 28 ^^^ rotr64 x 34 ^^^ rotr64 x 39
def shaBig1 (x : Nat) : Nat := rotr64 x 14 ^^^ rotr64 x 18 ^^^ rotr64 x 41
def shaLow0 (x : Nat) : Nat := rotr64 x 1 ^^^ rotr64 x 8 ^^^ (x / 2 ^ 7)
def shaLow1 (x : Nat) : Nat := rotr64 x 19 ^^^ rotr64 x 61 ^^^ (x / 2 ^ 6)
def shaCh (e f g : Nat) : Nat := (e &&& f) ^^^ ((2 ^ 64 - 1 - e) &&& g)
def shaMaj (a b c : Nat) : Nat := (a &&& b) ^^^ (a &&& c) ^^^ (b &&& c)

/-- The working variables of a block, and the 16 words of the schedule that come next. -/
structure Sha where
  a : Nat
  b : Nat
  c : Nat
  d : Nat
  e : Nat
  f : Nat
  g : Nat
  h : Nat
  w : List Nat

/-- The rounds of a block. -/
def shaRounds : List Nat → Sha → Sha
  | [], s => s
  | k :: ks, ⟨a, b, c, d, e, f, g, h, w⟩ =>
    evalNat ((h + shaBig1 e + shaCh e f g + k + w.headD 0) % 2 ^ 64) fun t1 =>
    evalNat ((t1 + shaBig0 a + shaMaj a b c) % 2 ^ 64) fun x =>
    evalNat ((d + t1) % 2 ^ 64) fun y =>
    evalNat ((shaLow1 (w.getD 14 0) + w.getD 9 0 + shaLow0 (w.getD 1 0) + w.headD 0) % 2 ^ 64) fun n =>
      shaRounds ks ⟨x, a, b, c, y, e, f, g, w.drop 1 ++ [n]⟩

/-- One block of 16 words added to a hash value of 8 words. -/
def shaBlock (hv : List Nat) (w : List Nat) : List Nat :=
  match shaRounds shaK ⟨hv.getD 0 0, hv.getD 1 0, hv.getD 2 0, hv.getD 3 0, hv.getD 4 0, hv.getD 5 0, hv.getD 6 0, hv.getD 7 0, w⟩ with
  | ⟨a, b, c, d, e, f, g, h, _⟩ => List.zipWith (fun x y => (x + y) % 2 ^ 64) hv [a, b, c, d, e, f, g, h]

/-- A big-endian number. -/
def bigEnd (l : List Nat) : Nat := l.foldl (fun acc x => acc * 256 + x) 0

/-- The first n pieces of k elements of a list. -/
def pieces (k : Nat) : Nat → List Nat → List (List Nat)
  | 0, _ => []
  | n + 1, l => l.take k :: pieces k n (l.drop k)

/-- The message as bytes, padded to whole blocks. -/
def shaPad (msg : List Nat) : List Nat :=
  let n := msg.length
  msg ++ [0x80] ++ List.replicate ((256 - (n + 17) % 128) % 128) 0 ++
    ((List.range 16).map (fun (i : Nat) => 8 * n / 2 ^ (8 * (15 - i)) % 256))

/-- SHA-384 of a message of bytes, as a big-endian number of 384 bits. -/
def sha384 (msg : List Nat) : Nat :=
  let m := shaPad msg
  let blocks := (pieces 128 (m.length / 128) m).map (fun x => (pieces 8 16 x).map bigEnd)
  ((blocks.foldl shaBlock shaInit).take 6).foldl (fun acc x => acc * 2 ^ 64 + x) 0

/-! ## ECDSA over P-384 -/

/-- The field's prime, the order of the base point, the coefficient b, the base point. -/
def ecP : Nat := 0xFFFFFFFFFFFFFFFFFFFFFFFFFFFFFFFFFFFFFFFFFFFFFFFFFFFFFFFFFFFFFFFEFFFFFFFF0000000000000000FFFFFFFF
def ecN : Nat := 0xFFFFFFFFFFFFFFFFFFFFFFFFFFFFFFFFFFFFFFFFFFFFFFFFC7634D81F4372DDF581A0DB248B0A77AECEC196ACCC52973
def ecB : Nat := 0xB3312FA7E23EE7E4988E056BE3F82D19181D9C6EFE8141120314088F5013875AC656398D8A2ED19D2A85C8EDD3EC2AEF
def ecGx : Nat := 0xAA87CA22BE8B05378EB1C71EF320AD746E1D3B628BA79B9859F741E082542A385502F25DBF55296C3A545E3872760AB7
def ecGy : Nat := 0x3617DE4A96262C6F5D9E98BF9292DC29F8F41DBD289A147CE9DA3113B5F0B8C00A60B1CE1D7E819D7A431D7C90EA0E5F

/-- A point (x / z^2, y / z^3) of the curve; z = 0 is the point at infinity. -/
structure EcPoint where
  x : Nat
  y : Nat
  z : Nat

def ecSub (a b : Nat) : Nat := (a + ecP - b) % ecP

/-- Twice a point. -/
def ecDouble : EcPoint → EcPoint
  | ⟨x, y, z⟩ =>
    evalNat (z * z % ecP) fun z2 =>
    evalNat (y * y % ecP) fun y2 =>
    evalNat (4 * x * y2 % ecP) fun s =>
    evalNat (3 * (ecSub x z2 * (x + z2)) % ecP) fun m =>
    evalNat (ecSub (m * m % ecP) (2 * s % ecP)) fun x3 =>
    evalNat (ecSub (m * ecSub s x3 % ecP) (8 * y2 * y2 % ecP)) fun y3 =>
    evalNat (2 * y * z % ecP) fun z3 => ⟨x3, y3, z3⟩

/-- The sum of two points. -/
def ecAdd : EcPoint → EcPoint → EcPoint
  | ⟨x1, y1, z1⟩, ⟨x2, y2, z2⟩ =>
    if z1 = 0 then ⟨x2, y2, z2⟩
    else if z2 = 0 then ⟨x1, y1, z1⟩
    else
      evalNat (z1 * z1 % ecP) fun a =>
      evalNat (z2 * z2 % ecP) fun b =>
      evalNat (x1 * b % ecP) fun u1 =>
      evalNat (x2 * a % ecP) fun u2 =>
      evalNat (y1 * b * z2 % ecP) fun s1 =>
      evalNat (y2 * a * z1 % ecP) fun s2 =>
      if u1 = u2 then (if s1 = s2 then ecDouble ⟨x1, y1, z1⟩ else ⟨1, 1, 0⟩)
      else
        evalNat (ecSub u2 u1) fun h =>
        evalNat (ecSub s2 s1) fun r =>
        evalNat (h * h % ecP) fun h2 =>
        evalNat (h * h2 % ecP) fun h3 =>
        evalNat (u1 * h2 % ecP) fun v =>
        evalNat (ecSub (ecSub (r * r % ecP) h3) (2 * v % ecP)) fun x3 =>
        evalNat (ecSub (r * ecSub v x3 % ecP) (s1 * h3 % ecP)) fun y3 =>
        evalNat (h * z1 * z2 % ecP) fun z3 => ⟨x3, y3, z3⟩

/-- u1 times a point plus u2 times another, from bit n - 1 down. -/
def ecSum (g q gq : EcPoint) (u1 u2 : Nat) : Nat → EcPoint → EcPoint
  | 0, acc => acc
  | n + 1, acc =>
    let d := ecDouble acc
    ecSum g q gq u1 u2 n (match u1.testBit n, u2.testBit n with
      | true, true => ecAdd d gq
      | true, false => ecAdd d g
      | false, true => ecAdd d q
      | false, false => d)

/-- base ^ e modulo m, from bit n - 1 of e down. -/
def powMod (m base e : Nat) : Nat → Nat → Nat
  | 0, acc => acc
  | n + 1, acc => evalNat (if e.testBit n then acc * acc % m * base % m else acc * acc % m) (powMod m base e n)

/-- A public key is a point of the curve. -/
def ecOnCurve (x y : Nat) : Bool :=
  decide (x < ecP) && decide (y < ecP) && decide (y * y % ecP = (x * x % ecP * x + ecB + 3 * (ecP - x)) % ecP)

/-- The signature (r, s) of a hash is valid under the public key (x, y). -/
def ecdsaOk (x y r s hash : Nat) : Bool :=
  decide (0 < r) && decide (r < ecN) && decide (0 < s) && decide (s < ecN) && ecOnCurve x y &&
    evalNat (powMod ecN s (ecN - 2) 384 1) fun w =>
    evalNat (hash * w % ecN) fun u1 =>
    evalNat (r * w % ecN) fun u2 =>
    let g : EcPoint := ⟨ecGx, ecGy, 1⟩
    let q : EcPoint := ⟨x, y, 1⟩
    match ecSum g q (ecAdd g q) u1 u2 384 ⟨1, 1, 0⟩ with
    | ⟨x3, _, z3⟩ =>
      let z2 := z3 * z3 % ecP
      decide (z3 ≠ 0) && (decide (x3 = r * z2 % ecP) || (decide (r + ecN < ecP) && decide (x3 = (r + ecN) * z2 % ecP)))

/-! ## Images (R383, R384) -/

/-- n bytes of a memory from an offset; a byte that it does not hold is 0. -/
def tabBytes : Nat → Nat → Tab Byte → List Nat
  | 0, _, _ => []
  | n + 1, off, [] => 0 :: tabBytes n (off + 1) []
  | n + 1, off, (k, v) :: t => if k = off then v.toNat :: tabBytes n (off + 1) t else 0 :: tabBytes n (off + 1) ((k, v) :: t)

/-- The key and the signature of an image of a length are good: KEY has the key hash, and SIG is valid over what it covers. -/
def imgSigned (key : BitVec 384) (t : Tab Byte) (len : Nat) : Bool :=
  let l := tabBytes len 0 t
  let num := fun (off : Nat) => bigEnd ((l.drop off).take 48)
  decide (sha384 ((l.drop 16).take 96) = key.toNat) &&
    ecdsaOk (num 16) (num 64) (num 112) (num 160) (sha384 (l.take 112 ++ l.drop 208))

end Sys2Proof.Machine
end

