-- ==== Sys2Proof/Machine/Mgmt.lean ====
section
/-! DEFINITION. The management subsystem: the mailbox and its messages, the log's copy, the update path, restarts (R367,
R368, R377 to R386). -/
namespace Sys2Proof.Machine

/-! ## The mailbox (R377) -/

/-- A message enters M2H: a reply sets REPLY, a notice NOTICE; an ALERT's word 8 is the count of those dropped. -/
def enterM2h (b : Block) (m : Msg) : Block :=
  let b := modMgmt b (fun x => { x with
    m2h := if m.code = 0x82 then { m with data := m.data ++ [BitVec.ofNat 32 x.dropped] } else m
    m2hValid := true
    dropped := if m.code = 0x82 then 0 else x.dropped })
  setCause b 1558 (if m.code < 0x80 then 1 else 2)

/-- A reply or notice is posted; it waits in order while M2H holds an unacknowledged one. -/
def postMsg (b : Block) (m : Msg) : Block :=
  if b.mgmt.m2hValid ∨ b.mgmt.outQ ≠ [] then modMgmt b (fun x => { x with outQ := x.outQ ++ [m] }) else enterM2h b m

/-- The host acknowledges M2H: the next message that waits enters it. -/
def ackM2h (b : Block) : Block :=
  let b := modMgmt b (fun x => { x with m2hValid := false })
  match b.mgmt.outQ with
  | [] => b
  | m :: t => enterM2h (modMgmt b (fun x => { x with outQ := t })) m

/-- The message taken is answered with its CODE and SEQ. [DEDUCED: log 75] -/
def reply (b : Block) (m : Msg) (result : Nat) (data : List Word) : Block :=
  postMsg (modMgmt b (fun x => { x with taken := none })) { m with result := result, data := data }

/-- The firmware serves messages: the ROM in recovery, or Torvyo. -/
def mgmtServes (b : Block) : Bool := decide (b.mgmt.st = .recovery) || decide (b.mgmt.st = .running)

/-- The management side takes the message of H2M; a CODE that is none of the mailbox's is answered BAD_CODE. -/
def mailboxTake (b : Block) : Block :=
  if !b.mgmt.h2mFull || b.mgmt.taken.isSome || !mgmtServes b then b
  else
    let len := rbits b (mboxB + 0x70) 19 16
    let m : Msg := { code := rbits b (mboxB + 0x70) 7 0, seq := rbits b (mboxB + 0x70) 15 8, result := 0,
                     data := (List.range len).map (fun (i : Nat) => BitVec.ofNat 32 (rget b (mboxB + 0x40 + 4 * i))) }
    let b := setCause (modMgmt b (fun x => { x with h2mFull := false, taken := some m })) 1558 4
    if 1 ≤ m.code ∧ m.code ≤ 0x0D then b else reply b m 1 []

/-- MAILBOX_TAKE (R377): The management side takes the H2M message, emptying the slot and setting FREE. -/
def execMailboxTake (s : State) : Host.Outcome State Fault Refusal := effect (fun _ b => mailboxTake b) s

/-- Serve the message taken when it is the row's: the ROM answers BUSY to what only Torvyo serves (R379). [DEDUCED: log 12] -/
def serve (b : Block) (code : Nat) (torvyo : Bool) (f : Block → Msg → Block) : Block :=
  match b.mgmt.taken with
  | none => b
  | some m =>
    if m.code ≠ code ∨ !mgmtServes b then b
    else if torvyo && decide (b.mgmt.st = .recovery) then reply b m 3 []
    else f b m

/-- Argument word i; one that the message does not carry is 0. [DEDUCED: log 75] -/
def arg (m : Msg) (i : Nat) : Nat := (m.data.getD i 0).toNat

/-- The word at 0x0C8 of the MBOX page (R391). -/
def mbImage (b : Block) : Nat :=
  if b.mgmt.st = .running then b.mgmt.version.toNat % 2 ^ 16 + b2n b.mgmt.fromMbox * 2 ^ 16 + 2 ^ 17 else 0

/-- PING (R378): Mailbox request returning the image and ROM versions. [DESIGN CHOICE: log 115] -/
def execPing (s : State) : Host.Outcome State Fault Refusal :=
  effect (fun _ b => serve b 0x01 false (fun b m =>
    reply b m 0 [if b.mgmt.st = .running then b.mgmt.version else 0, Config.romVersion])) s

/-- GET_INFO (R378): Mailbox request returning image, reset counts and AO time. [DEDUCED: log 76] -/
def execGetInfo (s : State) : Host.Outcome State Fault Refusal :=
  effect (fun _ b => serve b 0x02 false (fun b m =>
    reply b m 0 [BitVec.ofNat 32 (mbImage b), BitVec.ofNat 32 b.mgmt.boots, BitVec.ofNat 32 b.aoTime,
                 BitVec.ofNat 32 (b.aoTime / 2 ^ 32), BitVec.ofNat 32 b.mgmt.mgmtResets])) s

/-- Estimated power: free values, the total within a budget in force (R378). [DESIGN CHOICE: log 9] -/
def powerWords (b : Block) (seed : Nat) : List Word :=
  let w := fun i => Config.freeWord seed i
  let total := if b.mgmt.budget = 0 then w 0 else BitVec.ofNat 32 ((w 0).toNat % (b.mgmt.budget + 1))
  total :: (List.range 7).map (fun (i : Nat) => w (i + 1))

/-- POWER_READ (R378): Mailbox request returning estimated power per group and hub. -/
def execPowerRead (s : State) : Host.Outcome State Fault Refusal :=
  effect (fun _ b => serve b 0x03 true (fun b m =>
    let (v, b) := draw b
    reply b m 0 (powerWords b v))) s

/-! ## The log (R380 to R382) -/

/-- A log record's eight words (R381). -/
def logWords (r : LogRec) : List Word :=
  let q0 := r.seq % 2 ^ 32 + r.typ * 2 ^ 32 + r.sev * 2 ^ 40 + r.src * 2 ^ 42 + r.boot % 2 ^ 16 * 2 ^ 48
  [BitVec.ofNat 32 q0, BitVec.ofNat 32 (q0 / 2 ^ 32), BitVec.ofNat 32 r.time, BitVec.ofNat 32 (r.time / 2 ^ 32),
   BitVec.ofNat 32 r.w2.toNat, BitVec.ofNat 32 (r.w2.toNat / 2 ^ 32), BitVec.ofNat 32 r.w3.toNat,
   BitVec.ofNat 32 (r.w3.toNat / 2 ^ 32)]

/-- The vault is present and READY; a fence of VAULT leaves the log queue running (R342). -/
def vaultUsable (p : Params) (b : Block) : Bool :=
  decide (0 < p.vaultCh) && b.vault.powered && decide (b.vault.st = .ready) && !isDead b

/-- The oldest SEQ held, in the area or the ring. -/
def oldestSeq (m : Mgmt) (v : Vault) : Nat :=
  if v.logLo < v.logHi then v.logLo else match m.log with
    | r :: _ => r.seq
    | [] => m.logSeq

/-- Bytes of argument words. -/
def wordBytes (ws : List Word) : List Byte :=
  ws.flatMap (fun w => (List.range 4).map (fun (i : Nat) => BitVec.ofNat 8 (w.toNat / 2 ^ (8 * i))))

def putBytes (t : Tab Byte) (off : Nat) : List Byte → Tab Byte
  | [] => t
  | x :: l => putBytes (tput t off x) (off + 1) l

/-- A little-endian 32-bit field of an image or an area. -/
def imgWord (t : Tab Byte) (off : Nat) : Nat :=
  (tgetD t off 0).toNat + (tgetD t (off + 1) 0).toNat * 2 ^ 8 + (tgetD t (off + 2) 0).toNat * 2 ^ 16 +
    (tgetD t (off + 3) 0).toNat * 2 ^ 24

/-- Where a record stands in the log area: 16,777,216 places of 32 bytes by SEQ. [DESIGN CHOICE: log 60] -/
def logPlace (seq : Nat) : Nat := 32 * (seq % 16777216)

/-- LOG_READ: from the ring first, otherwise from the area, whose read may fail on the medium (R18). -/
def logRead (p : Params) (b : Block) (m : Msg) (fault : Bool) : Block :=
  let tail : List Word := [BitVec.ofNat 32 (oldestSeq b.mgmt b.vault), BitVec.ofNat 32 (b.mgmt.logSeq - 1)]
  match b.mgmt.log.find? (fun r => r.seq % 2 ^ 32 = arg m 0) with
  | some r => reply b m 0 (logWords r ++ tail)
  | none =>
    let held := (arg m 0 + 2 ^ 32 - b.vault.logLo % 2 ^ 32) % 2 ^ 32 < b.vault.logHi - b.vault.logLo
    if !held then reply b m 5 []
    else if !vaultUsable p b then reply b m 6 []
    else if fault then reply (vaultEv b 0x4E 2) m 5 []
    else reply b m 0 ((List.range 8).map (fun (i : Nat) =>
      BitVec.ofNat 32 (imgWord b.mgmt.logArea (logPlace (arg m 0) + 4 * i))) ++ tail)

/-- LOG_READ (R378): Mailbox request returning one log record by SEQ. -/
def execLogRead (fault : Bool) (s : State) : Host.Outcome State Fault Refusal :=
  effect (fun p b => serve b 0x04 true (fun b m => logRead p b m fault)) s

/-- LOG_MARK (R378): Mailbox request appending a MARK record with the host's payload. -/
def execLogMark (s : State) : Host.Outcome State Fault Refusal :=
  effect (fun _ b => serve b 0x05 true (fun b m =>
    let q := b.mgmt.logSeq
    reply (logAppend b 0x09 0 0 (arg m 0 + arg m 1 * 2 ^ 32) (arg m 2 + arg m 3 * 2 ^ 32)) m 0 [BitVec.ofNat 32 q])) s

/-- TIME_SYNC (R378): Mailbox request logging a TIME_SYNC record with host time. -/
def execTimeSync (s : State) : Host.Outcome State Fault Refusal :=
  effect (fun _ b => serve b 0x0D true (fun b m =>
    let q := b.mgmt.logSeq
    reply (logAppend b 0x0A 0 0 (arg m 0 + arg m 1 * 2 ^ 32) 0) m 0 [BitVec.ofNat 32 q])) s

/-- Records of the ring not copied to the area. -/
def uncopied (m : Mgmt) : Nat := (m.log.filter (fun r => decide (m.logCopied ≤ r.seq))).length

/-- Copy the ring's uncopied records to the area, which holds 16,777,216. -/
def logCopyAll (b : Block) : Block :=
  let m := b.mgmt
  let first := if b.vault.logLo < b.vault.logHi then b.vault.logLo else max m.logCopied (match m.log with
    | r :: _ => r.seq
    | [] => m.logSeq)
  let recs := m.log.filter (fun r => decide (m.logCopied ≤ r.seq))
  let b := modMgmt b (fun x => { x with
    logCopied := m.logSeq
    logArea := recs.foldl (fun t r => putBytes t (logPlace r.seq) (wordBytes (logWords r))) x.logArea })
  modVault b (fun v => { v with logLo := max first (m.logSeq - 16777216), logHi := m.logSeq })

/-- LOG_FLUSH (R382): Mailbox request copying uncopied log records to the vault log area. -/
def execLogFlush (s : State) : Host.Outcome State Fault Refusal :=
  effect (fun p b => serve b 0x0B true (fun b m =>
    if vaultUsable p b then reply (logCopyAll b) m 0 [BitVec.ofNat 32 (uncopied b.mgmt)] else reply b m 6 [])) s

/-- LOG_COPY (R382): When 512 records are uncopied, Torvyo copies them to the vault log area. -/
def execLogCopy (s : State) : Host.Outcome State Fault Refusal :=
  effect (fun p b =>
    if b.mgmt.st = .running ∧ vaultUsable p b ∧ 512 ≤ uncopied b.mgmt then logCopyAll b else b) s

/-- The severities that a record type is written with, and whether Torvyo or the power controller writes it (R380, R381). -/
def logOk (torvyo : Bool) (typ sev : Nat) : Bool :=
  if torvyo then
    (typ = 0x01 && sev = 0) || (typ = 0x08 && (sev = 0 || sev = 2)) || ((typ = 0x09 || typ = 0x0A) && sev = 0) ||
      (decide (0x40 ≤ typ ∧ typ ≤ 0x7F) && decide (sev < 4))
  else
    ((typ = 0x02 || typ = 0x04) && sev = 1) || (typ = 0x03 && sev = 0) || (typ = 0x05 && (sev = 1 || sev = 3)) ||
      (typ = 0x06 && sev = 2) || (typ = 0x07 && sev = 3)

/-- LOG_APPEND (R380): The always-on log writer appends a record for the power controller or Torvyo. [DEDUCED: log 79] -/
def execLogAppend (torvyo : Bool) (body : LogBody) (s : State) : Host.Outcome State Fault Refusal :=
  effect (fun _ b =>
    if b.pwr.boot ≠ .reset ∧ logOk torvyo body.typ body.sev ∧ (!torvyo ∨ b.mgmt.st = .running) then
      logAppend b body.typ body.sev (body.src % 64) body.w2.toNat body.w3.toNat
    else b) s

/-! ## Restarts (R19, R368, R385) -/

/-- A length that an image may have (R383). -/
def imgLenOk (n : Nat) : Bool := n % 16 = 0 && decide (1024 ≤ n) && decide (n ≤ 196608)

/-- MAGIC and the length fields meet R383. -/
def imgHeadOk (t : Tab Byte) (len : Nat) : Bool :=
  imgWord t 0 = 0x4F595654 && imgLenOk (imgWord t 8) && decide (imgWord t 8 ≤ len) && imgWord t 12 % 2 = 0 &&
    decide (imgWord t 12 < imgWord t 8)

/-- The management processor and its SRAM are reset, and the ROM starts; the restart is logged. What is being delivered of
an answered request stays when the firmware restarts of itself. [DEDUCED: log 77] [DEDUCED: log 79] -/
def mgmtReset (b : Block) (reason : Nat) (own : Bool) : Block :=
  if b.mgmt.st = .reset ∨ b.mgmt.st = .halted then b
  else
    let b := modMgmt b (fun m => { m with
      st := .rom, taken := none, outQ := if own then m.outQ else [], dropped := 0, budget := 0, update := none, sram := []
      version := 0, fromMbox := false, due := none, wdog := true, wdogMs := 1000, reason := reason
      mgmtResets := m.mgmtResets + 1 })
    logAppend (dropRequests b) 0x02 1 0 reason (rget b (mboxB + 0xC4))

/-- The ROM enters recovery and owes its notice. -/
def enterRecovery (b : Block) (reason : Nat) : Block :=
  modMgmt b (fun m => { m with st := .recovery, recover := false, due := some ⟨0x83, 0, 0, [BitVec.ofNat 32 reason]⟩ })

/-- An image runs, and Torvyo owes READY. -/
def runImage (b : Block) (version : Word) (mbox : Bool) : Block :=
  modMgmt b (fun m => { m with
    st := .running, version := version, fromMbox := mbox, recover := false, update := none
    due := some ⟨0x81, 0, 0, [version, BitVec.ofNat 32 m.reason]⟩ })

/-- An image verifies under the sampled key hash; a hash of zeros accepts none (R383, R384). -/
def imgVerifies (b : Block) (img : Tab Byte) (len : Nat) : Bool :=
  imgHeadOk img len && decide (b.pwr.key ≠ 0) && imgSigned b.pwr.key img (imgWord img 8)

/-- The ROM loader's steps: watchdog, key, vault, the image held in the image area, its verification. It waits while the vault mounts. [DEDUCED: log 12]
[DEDUCED: log 80] -/
def mgmtLoad (p : Params) (b : Block) : Block :=
  if b.mgmt.st ≠ .rom then b
  else
    let b := modMgmt b (fun m => { m with wdog := true, wdogMs := 1000 })
    if b.pwr.key = 0 then enterRecovery b 3
    else if b.mgmt.recover then enterRecovery b 2
    else if p.vaultCh = 0 then enterRecovery b 0
    else if !b.vault.powered then (if isDead b then enterRecovery b 0 else vaultPowerUp b)
    else if b.vault.st = .mounting ∧ !b.vault.fenced ∧ !isDead b then b
    else
      let img := b.mgmt.imgArea.filter (fun e => e.1 < 196608)
      vaultSettle (if b.vault.st = .failed ∨ b.mgmt.imgArea = [] then enterRecovery b 0
        else if imgVerifies b img 196608 then
          runImage (modMgmt b (fun m => { m with sram := img })) (BitVec.ofNat 32 (imgWord img 4)) false
        else enterRecovery b 1)

/-- MGMT_RESTART (R385): The ROM loader loads and verifies the image from the vault and jumps to it, or enters recovery.
-/
def execMgmtRestart (s : State) : Host.Outcome State Fault Refusal :=
  effect (fun p b => mgmtLoad p b) s

/-- The watchdog expires. -/
def execWatchdogExpiry (s : State) : Host.Outcome State Fault Refusal :=
  effect (fun _ b =>
    if b.mgmt.wdog ∧ b.mgmt.st ≠ .reset ∧ b.mgmt.st ≠ .halted then
      mgmtReset (signalEv (rcount b (mboxB + 0xC4) 1) srcMgmt 0x51 noUnit 0 (3 * 2 ^ 32)) 2 false
    else b) s

/-- Firmware restarts the watchdog's count. -/
def execWatchdogRestart (s : State) : Host.Outcome State Fault Refusal :=
  effect (fun _ b =>
    if b.mgmt.st = .reset ∨ b.mgmt.st = .halted then b else modMgmt b (fun m => { m with wdog := true })) s

/-- A corrected memory error is counted; an uncorrectable one resets the processor as its watchdog does (R367). [DEDUCED:
log 78] -/
def execMgmtMemoryError (uncorrectable : Bool) (s : State) : Host.Outcome State Fault Refusal :=
  effect (fun _ b =>
    if b.mgmt.st = .reset ∨ b.mgmt.st = .halted then b
    else if uncorrectable then mgmtReset (signalEv b srcMgmt 0x52 noUnit 0 (5 * 2 ^ 32)) 2 false
    else modMgmt b (fun m => { m with memCe := m.memCe + 1 })) s

/-- An access outside the map of R367 resets the processor. [DEDUCED: log 78] -/
def execMgmtAccessFault (s : State) : Host.Outcome State Fault Refusal := effect (fun _ b => mgmtReset b 2 false) s

/-- RESET_MGMT (R378): Mailbox request restarting the management processor, optionally into recovery. -/
def execResetMgmt (s : State) : Host.Outcome State Fault Refusal :=
  effect (fun _ b => serve b 0x0A false (fun b m =>
    let rec_ := bit (arg m 0) 0
    modMgmt (mgmtReset (reply b m 0 []) 3 true) (fun x => { x with recover := rec_ }))) s

/-! ## Updates (R383 to R386) -/

/-- Torvyo needs the vault; the ROM holds the image in SRAM (R385, R386). -/
def updateVault (p : Params) (b : Block) : Bool := decide (b.mgmt.st = .recovery) || vaultUsable p b

/-- UPDATE_BEGIN (R378): Mailbox request starting a firmware update of given length. -/
def execUpdateBegin (s : State) : Host.Outcome State Fault Refusal :=
  effect (fun p b => serve b 0x07 false (fun b m =>
    if !updateVault p b then reply b m 6 []
    else if !imgLenOk (arg m 0) then reply b m 2 []
    else reply (modMgmt b (fun x => if x.st = .recovery then { x with update := some (arg m 0), sram := [] }
      else { x with update := some (arg m 0), imgArea := [] })) m 0 [])) s

/-- UPDATE_DATA (R378): Mailbox request writing up to 44 bytes of the new image. -/
def execUpdateData (s : State) : Host.Outcome State Fault Refusal :=
  effect (fun p b => serve b 0x08 false (fun b m =>
    if !updateVault p b then reply b m 6 []
    else match b.mgmt.update with
      | none => reply b m 3 []
      | some len =>
        let bs := wordBytes (m.data.drop 1)
        if m.data = [] ∨ len < arg m 0 + bs.length then reply b m 2 []
        else reply (modMgmt b (fun x => if x.st = .recovery then { x with sram := putBytes x.sram (arg m 0) bs }
          else { x with imgArea := putBytes x.imgArea (arg m 0) bs })) m 0 [])) s

/-- The update's outcome is answered and logged. -/
def updateEnd (b : Block) (m : Msg) (ok : Bool) (ver : Word) : Block :=
  let b := logAppend b 0x08 (if ok then 0 else 2) 0 (if ok then 0 else 4) ver.toNat
  reply (modMgmt b (fun x => { x with update := none })) m (if ok then 0 else 4) (if ok then [ver] else [])

/-- UPDATE_COMMIT: the image verifies under R384, or keeps the firmware where it is. -/
def updateCommit (p : Params) (b : Block) (m : Msg) : Block :=
  if !updateVault p b then reply b m 6 []
  else match b.mgmt.update with
    | none => reply b m 3 []
    | some len =>
      let rom : Bool := b.mgmt.st = .recovery
      let img := if rom then b.mgmt.sram else b.mgmt.imgArea
      let ver := BitVec.ofNat 32 (imgWord img 4)
      let ok := imgVerifies b img len
      let b := updateEnd b m ok ver
      if !ok then b
      else if rom then
        runImage (if vaultUsable p b then modMgmt b (fun x => { x with imgArea := x.sram }) else b) ver true
      else mgmtReset b 4 true

/-- UPDATE_COMMIT (R386): Mailbox request verifying the new image and restarting into it. -/
def execUpdateCommit (s : State) : Host.Outcome State Fault Refusal :=
  effect (fun p b => serve b 0x09 false (fun b m => updateCommit p b m)) s

/-! ## Budget and statistics (R378) -/

/-- SET_BUDGET (R378): Mailbox request setting a power cap that Torvyo enforces. [DESIGN CHOICE: log 115] -/
def execSetBudget (s : State) : Host.Outcome State Fault Refusal :=
  effect (fun _ b => serve b 0x06 true (fun b m =>
    if arg m 0 ≠ 0 ∧ arg m 0 < Config.idlePower then reply b m 2 []
    else reply (modMgmt b (fun x => { x with budget := arg m 0 })) m 0 [])) s

/-- Torvyo sets a group's OP_CAP_M: where the point is to move for it, the move is a request until it begins (R19). -/
def setCapM (b : Block) (g cap : Nat) : Block :=
  let x := getGrp b g
  let b := modGrp b g (fun x => { x with capM := cap })
  let moves := decide (min (rbits b (grpR g) 1 0) (min cap x.capT) ≠ x.cur)
  modGrp b g (fun y => { y with capWas := if moves then some (x.capWas.getD x.capM) else none })

/-- Under a budget Torvyo re-evaluates every group's OP_CAP_M: the caps that meet it are free values. [DESIGN CHOICE: log 9] -/
def execBudgetEvaluate (s : State) : Host.Outcome State Fault Refusal :=
  effect (fun p b =>
    if b.mgmt.st = .running ∧ b.mgmt.budget ≠ 0 then
      forEach (List.range (grpCount p)) b (fun b g =>
        let (v, b) := draw b
        setCapM b g (v % 4))
    else b) s

/-- GET_STATS (R378): Mailbox request returning cap, dead ball and log-loss statistics. -/
def execGetStats (s : State) : Host.Outcome State Fault Refusal :=
  effect (fun _ b => serve b 0x0C true (fun b m =>
    reply b m 0 [BitVec.ofNat 32 b.mgmt.thermCaps, BitVec.ofNat 32 b.mgmt.droopCaps, BitVec.ofNat 32 b.mgmt.deadBalls,
                 BitVec.ofNat 32 b.mgmt.overwritten])) s

/-! ## Notices (R378) -/

/-- The notice that a restart owes is posted. -/
def sendDue (b : Block) (code reason idx : Nat) : Block :=
  match b.mgmt.due with
  | none => b
  | some m =>
    if m.code = code ∧ arg m idx = reason then postMsg (modMgmt b (fun x => { x with due := none })) m else b

/-- READY (R378): Management notice that Torvyo runs, with its version and start reason. -/
def execReady (reason : BitVec 3) (s : State) : Host.Outcome State Fault Refusal :=
  effect (fun _ b => if b.mgmt.st = .running then sendDue b 0x81 reason.toNat 1 else b) s

/-- RECOVERY (R385): ROM notice that the loader is in recovery, with its reason. -/
def execRecovery (reason : BitVec 2) (s : State) : Host.Outcome State Fault Refusal :=
  effect (fun _ b => if b.mgmt.st = .recovery then sendDue b 0x83 reason.toNat 0 else b) s

/-- An ALERT for a log record of severity WARN or above; at most 16 wait. -/
def alertOf (b : Block) (seq : Nat) : Block :=
  match b.mgmt.log.find? (fun r => r.seq = seq) with
  | none => b
  | some r =>
    if r.sev = 0 then b
    else if 16 ≤ (b.mgmt.outQ.filter (fun m => m.code = 0x82)).length then
      modMgmt b (fun x => { x with dropped := x.dropped + 1 })
    else postMsg b ⟨0x82, 0, 0, logWords r⟩

/-- ALERT (R378): Management notice carrying a log record of severity WARN or above. -/
def execAlert (seq : Nat) (s : State) : Host.Outcome State Fault Refusal :=
  effect (fun _ b => if b.mgmt.st = .running then alertOf b seq else b) s

/-! ## The vault log queue (R18, R339, R367) -/

/-- Bytes of the log area, and of the image area. -/
def logAreaBytes (p : Params) : Nat := min 4 p.vaultCh * 8 * 16777216

/-- Bytes [off, off + len) of a memory. -/
def areaBytes (t : Tab Byte) (off len : Nat) : Tab Byte := t.filter (fun e => off ≤ e.1 && e.1 < off + len)

/-- Bytes of SRAM (R367). -/
def sramBytes : Nat := 262144

/-- A read or program of the log queue: bytes of an area go into SRAM, or those that SRAM holds into the area; the medium may
fail it, which is an error and an event of VAULT (R18). -/
def logMove (b : Block) (op : Nat) (area : Bool) (offset len sram : Nat) (data : List Byte) (fault : Bool) : Block :=
  if fault then vaultEv (modVault b (fun v => { v with logErr := true })) (if op = 1 then 0x4E else 0x4F) (if op = 1 then 2 else 0)
  else
    let b := modVault b (fun v => { v with logErr := false })
    let src := areaBytes (if area then b.mgmt.imgArea else b.mgmt.logArea) offset len
    let copied := src.foldl (fun t e => tput t (e.1 - offset + sram) e.2) (wipeBytes b.mgmt.sram sram len)
    modMgmt b (fun m =>
      if op = 1 then { m with sram := copied }
      else if area then { m with imgArea := putBytes m.imgArea offset (data.take len) }
      else { m with logArea := putBytes m.logArea offset (data.take len) })

/-- A command of the log queue: an erase goes on until its block is erased; a slice that is off is powered up for it.
[DESIGN CHOICE: log 60] -/
def logQueue (p : Params) (b : Block) (op : Nat) (area : Bool) (offset len sram : Nat) (data : List Byte) (fault : Bool) : Block :=
  if p.vaultCh = 0 ∨ op = 0 ∨ b.vault.logOp.isSome then b
  else if len % 4096 ≠ 0 ∨ logAreaBytes p < offset + len ∨ sramBytes < sram + len then modVault b (fun v => { v with logErr := true })
  else
    let b := vaultPowerUp b
    if op = 3 then modVault b (fun v => { v with logOp := some (3, area, offset, len), logErr := false })
    else vaultSettle (logMove b op area offset len sram data fault)

/-- LOG_QUEUE_COMMAND (R367): The management processor starts a read, program or erase on the vault log queue; `sram` is the
offset in SRAM, `data` what SRAM holds there. -/
def execLogQueueCommand (op : BitVec 2) (area : Bool) (offset len sram : Nat) (data : List Byte) (fault : Bool) (s : State) : Host.Outcome State Fault Refusal :=
  effect (fun p b =>
    if (b.mgmt.st = .rom ∨ b.mgmt.st = .recovery ∨ b.mgmt.st = .running) ∧ !isDead b then
      logQueue p b op.toNat area offset len sram data fault
    else b) s

end Sys2Proof.Machine
end

