-- ==== Sys2Proof/Machine/Flags.lean ====
section
/-! DEFINITION. What the pages show: the header words (R28), the activity that FROZEN fields are tested against, and every
read-only field that shows the state of a unit (R71 to R74, R167, R194, R215, R243, R257, R279, R280, R316 to R319, R344,
R345, R365, R366, R390 to R392, R401, R402). -/
namespace Sys2Proof.Machine

/-- The 32-bit half of a 64-bit value. -/
def lo32 (x : Nat) : Nat := x % 2 ^ 32
def hi32 (x : Nat) : Nat := x / 2 ^ 32 % 2 ^ 32

/-! ## State codes -/

def chCode (x : ChState) : Nat :=
  match x with
  | .disabled => 0
  | .idle => 1
  | .running => 2
  | .xlatWait => 3
  | .draining => 4
  | .stopped => 5

def partCode (x : PState) : Nat :=
  match x with
  | .off => 0
  | .ready => 1
  | .building => 2
  | .draining => 3
  | .broken => 4

def portCode (x : PortSt) : Nat :=
  match x with
  | .off => 0
  | .train => 1
  | .sync => 2
  | .up => 3
  | .down => 4
  | .mismatch => 5
  | .stopped => 6

def gopCode (x : GState) : Nat :=
  match x with
  | .idle => 0
  | .armed => 1
  | .gather => 2
  | .release => 3
  | .failed => 4

def vaultCode (x : VState) : Nat :=
  match x with
  | .off => 0
  | .mounting => 1
  | .ready => 2
  | .unformatted => 3
  | .formatting => 4
  | .failed => 5

def objCode (x : ObjSt) : Nat :=
  match x with
  | .free => 0
  | .open => 1
  | .ready => 2
  | .deleting => 3

def mgmtCode (x : MgmtSt) : Nat :=
  match x with
  | .reset => 0
  | .rom => 1
  | .recovery => 2
  | .running => 3
  | .halted => 4

/-! ## Strands (R73) -/

/-- Whether a strand, one of its operations or its line fetches waits on a walk or a fault record. -/
def waitsXlat (b : Block) (n k : Nat) : Bool :=
  b.walks.any (fun w => w.reqs.any (reqOfStrand n (some k))) ||
    b.parts.any (fun e => e.2.recs.any (fun r => r.reqs.any (reqOfStrand n (some k))))

/-- STATE of a strand. [DEDUCED: log 21] -/
def strandCode (b : Block) (n k : Nat) : Nat :=
  let s := getStrand b n k
  match s.st with
  | .idle => 0
  | .drain => 5
  | .stopped => 6
  | .run =>
    if s.blocked = .wait then 3
    else if waitsXlat b n k then 4
    else if (unitAt s s.pc).isNone then 1
    else 2

/-- Strands of a station that are not IDLE, numbered from lo up to hi. -/
def busyStrands (b : Block) (n lo hi : Nat) : Nat :=
  ((stnStrands b n).filter (fun e => decide (lo ≤ e.1) && decide (e.1 < hi) && decide (e.2.st ≠ .idle))).length

/-! ## Activity (R28 and the units' chapters) -/

/-- The operations of a station. -/
def stnOps (b : Block) (n : Nat) : List (Nat × Op) :=
  (stnStrands b n).flatMap (fun e => e.2.ops.map (fun o => (e.1, o)))

def actChans (b : Block) (n : Nat) : Nat := ((List.range 32).filter (chActive b n)).length

/-- A STAT has taken its record, and no longer awaits its shaper work (R103, R167). -/
def recTaken (o : Op) : Bool := decide (o.phase = .issue) || decide (o.phase = .issued)

def shpActive (b : Block) (n : Nat) : Bool :=
  decide ((getStn b n).ctx ≠ []) || (stnOps b n).any (fun e => decide (e.2.kind = .stat) && !recTaken e.2)

def codecActive (b : Block) (n : Nat) : Bool :=
  let st := getStn b n
  decide (st.decCtx ≠ []) || decide (st.encCtx ≠ []) ||
    (stnOps b n).any (fun e => decide (e.2.kind = .tload) || holdsBinding e.2)

/-- ACTIVE of a NEAR page (R215): a scratch line that waits for a slot may be a write, a read, or an inbound link access. -/
def nearActive (b : Block) (n : Nat) : Bool :=
  let st := getStn b n
  decide (st.staged ≠ []) || decide (st.nearRd ≠ []) || streamLive b n ||
    (stnOps b n).any (fun e => decide (e.2.kind = .fill) || decide (e.2.kind = .copy)) ||
    (stnStrands b n).any (fun e => (nearWriteOf b n e.1 e.2).isSome || (nearReadOf b n e.1 e.2).isSome) ||
    st.inQ.any (fun e => winScratch e.win)

def ordActive (b : Block) (n : Nat) : Bool := decide ((getStn b n).haz ≠ [])

/-- STN.ACTIVE, ACTIVE of a station (R74). [DEDUCED: log 21] -/
def stnActivity (b : Block) (n : Nat) : Bool :=
  if stnFenced b n then decide ((getStn b n).haz ≠ []) else
  decide (0 < busyStrands b n 0 256) || decide (0 < actChans b n) || shpActive b n || codecActive b n || nearActive b n ||
    ordActive b n

/-- A partition is active (R279). -/
def partActive (p : Params) (b : Block) (q : Nat) : Bool :=
  let x := getPart b q
  x.cur.isSome || x.pend.isSome || x.recs.any (fun r => decide (r.reqs ≠ []) || decide (r.phase = .deferred)) ||
    b.walks.any (fun w => w.part = q) ||
    (List.range p.stations).any (fun n => (List.range 32).any (fun c => decide (chOwner b n c = q) && chActive b n c))

/-- A tally that refuses a set: a waiter, a pending bit or the SYSTEM flag (R257). -/
def talHeld (x : Tally) : Bool := decide (x.waiters ≠ []) || decide (talPend x ≠ 0) || talSys x

/-- The tallies of the page that starts at flat index t0. -/
def pageTals (b : Block) (t0 : Nat) : List Tally :=
  (b.tallies.filter (fun e => decide (t0 ≤ e.1) && decide (e.1 < t0 + 256))).map (·.2)

def gopActive (b : Block) (s : Nat) : Bool :=
  let g := getGop b s
  gopEn b s || decide (g.st = .gather) || decide (g.st = .release)

def linkActive (p : Params) (b : Block) : Bool :=
  decide ((getPort b 4).inQ ≠ []) || (List.range p.linkPorts).any (fun i =>
    let x := getPort b i
    decide (x.st ≠ .off) || decide (x.inQ ≠ []) || decide (x.outQ ≠ []) || decide (x.replay ≠ [])) ||
    (List.range p.stations).any (fun n =>
      let st := getStn b n
      decide (st.wRdTags ≠ []) || decide (liveWr st.wWrTags ≠ []) || decide (st.inQ ≠ [])) ||
    (List.range 8).any (gopActive b)

/-- A MOVE whose operation names a window of page j. -/
def owinBusy (p : Params) (b : Block) (j : Nat) : Bool :=
  (List.range p.stations).any (fun n =>
    let st := getStn b n
    st.wRdTags.any (fun e => decide (e.2.va / 2 ^ 48 % 256 / 32 = j)) ||
      st.wWrTags.any (fun e => decide (e.2.va / 2 ^ 48 % 256 / 32 = j)))

/-- A packet held for an inbound window of page j. -/
def iwinBusy (p : Params) (b : Block) (j : Nat) : Bool :=
  (List.range p.linkPorts ++ [4]).any (fun i => (getPort b i).inQ.any (fun e => pktReq e.pkt && decide (pktWin e.pkt / 32 = j))) ||
    (List.range p.stations).any (fun n => (getStn b n).inQ.any (fun e => decide (pktWin e.pkt / 32 = j)))

def vaultActive (b : Block) : Bool :=
  decide (b.vault.busy ≠ 0) || b.stations.any (fun e => decide (e.2.vWrTags ≠ []) || decide (e.2.vRdTags ≠ [])) ||
    b.vault.objs.any (fun e => objHeld b e.1)

/-- Any medium operation runs on a channel of group g: a codeword being read, a page held unprogrammed, a format or a log
operation. -/
def vchActive (b : Block) (g : Nat) : Bool :=
  let c := b.vault.ch
  decide (b.vault.st = .mounting) || decide (b.vault.st = .formatting) || b.vault.logOp.isSome ||
    (decide (c ≠ 0) && (b.vault.cws.any (fun x => !x.done && decide (x.cw % c / 16 = g)) ||
      b.vault.objs.any (fun e => e.2.dirty.any (fun d => decide (d / 1024 % c / 16 = g)))))

def cntsOn (b : Block) (l : CntLoc) : Bool := (List.range (cntNum l)).any (fun i => rbit b (cntAddr l i) 8)

/-- PAGE_STATE.ACTIVE. -/
def pageActive (p : Params) (b : Block) (pg : Page) : Bool :=
  match pg with
  | .hub | .cfg | .part _ => false
  | .xlat => (List.range 16).any (partActive p b)
  | .fc => decide (b.ref.queue ≠ []) || b.ref.srcs.any (fun e => decide (e.2.st ≠ .idle))
  | .hcnt => cntsOn b .hub
  | .pwr => (List.range p.stations).any (inTransition b) || b.pwr.groups.any (fun g => g.req.isSome) || b.pwr.hubGoingUp
  | .gtal j => (pageTals b (256 * j)).any talHeld
  | .stn n => stnActivity b n
  | .chan n => decide (0 < actChans b n)
  | .strd n s => decide (0 < busyStrands b n (128 * s) (128 * s + 128))
  | .shp n => shpActive b n
  | .codec n => codecActive b n
  | .near n => nearActive b n
  | .ltal n s => (pageTals b (8192 + 512 * n + 256 * s)).any talHeld
  | .ord n => ordActive b n
  | .scnt n => cntsOn b (.station n)
  | .dbell n c => chActive b n c
  | .link => linkActive p b
  | .lport i => let x := (getPort b i).st; decide (x = .train) || decide (x = .sync) || decide (x = .up)
  | .lowin j => owinBusy p b j
  | .liwin j => iwinBusy p b j
  | .vault => vaultActive b
  | .vch g => vchActive b g
  | .mbox => b.mgmt.h2mFull

/-- The flat index of a tally by page and place. -/
def talIndex (pg : Page) (k : Nat) : Nat :=
  match pg with
  | .gtal j => 256 * j + k
  | .ltal n s => 8192 + 512 * n + 256 * s + k
  | _ => 0

/-- The activity that a FROZEN field at an offset is tested against (R38, R72, R257, R279, R316). -/
def frozenActive (p : Params) (b : Block) (pg : Page) (off : Nat) : Bool :=
  match pg with
  | .chan n => if 0x800 ≤ off then chActive b n ((off - 0x800) / 0x40) else pageActive p b pg
  | .xlat => if 0x800 ≤ off then partActive p b ((off - 0x800) / 0x80) else pageActive p b pg
  | .gtal _ | .ltal _ _ =>
    if 0x800 ≤ off then
      let x := getTal b (talIndex pg ((off - 0x800) / 8))
      talHeld x && !x.poison
    else false
  | .link => if 0x100 ≤ off then gopActive b ((off - 0x100) / 0x40) else pageActive p b pg
  | _ => pageActive p b pg

/-! ## The header (R27, R28) -/

/-- Type code, instance and SUBIDX of a page. -/
def pageIdent (pg : Page) : Nat × Nat × Nat :=
  match pg with
  | .hub => (0x01, 0, 0)
  | .cfg => (0x02, 0, 0)
  | .xlat => (0x03, 0, 0)
  | .fc => (0x04, 0, 0)
  | .hcnt => (0x05, 0, 0)
  | .pwr => (0x06, 0, 0)
  | .gtal j => (0x07, 0, j)
  | .stn n => (0x10, n, 0)
  | .chan n => (0x11, n, 0)
  | .strd n s => (0x12, n, s)
  | .shp n => (0x13, n, 0)
  | .codec n => (0x14, n, 0)
  | .near n => (0x15, n, 0)
  | .ltal n s => (0x16, n, s)
  | .ord n => (0x17, n, 0)
  | .scnt n => (0x18, n, 0)
  | .dbell n c => (0x20, n, c)
  | .link => (0x30, 0, 0)
  | .lport i => (0x31, i, 0)
  | .lowin j => (0x32, 0, j)
  | .liwin j => (0x33, 0, j)
  | .vault => (0x40, 0, 0)
  | .vch g => (0x41, g, 0)
  | .part q => (0x50, q, 0)
  | .mbox => (0x60, 0, 0)

/-- PAGES and BLOCK_CAPS of a page. -/
def pageCaps (pg : Page) : Nat × Nat :=
  match pg with
  | .gtal _ => (32, 0)
  | .strd _ _ | .ltal _ _ => (2, 0)
  | .lowin _ | .liwin _ => (8, 0)
  | .stn _ | .codec _ | .near _ => (1, 7)
  | .shp _ => (1, 0xF)
  | .link | .vault => (1, 1)
  | .hcnt | .scnt _ => (1, 3)
  | _ => (1, 0)

/-- PAGE_STATE.FENCED: the fence is in force and complete (R28, R346). -/
def pageFenced (b : Block) (pg : Page) : Bool :=
  pageFence b (pageB pg) && (match pg with
    | .stn n => (getStn b n).fenced
    | .xlat => xlatQuiet b
    | .lport i => (getPort b i).fenced
    | .vault => b.vault.fenced
    | _ => true)

/-- A soft reset of the page has been accepted and is not complete (R29). -/
def pageResetting (b : Block) (pg : Page) : Bool := rbit b (pageB pg + 8) 2

def pagePower (b : Block) (pg : Page) : Nat :=
  match pageStn pg with
  | some n => powerCode (getStn b n).power
  | none => if b.pwr.hubOn then 2 else 0

/-- PAGE_STATE.BLOCK_STATE. -/
def blockState (p : Params) (b : Block) (pg : Page) : Nat :=
  match pg with
  | .xlat => (b.walks.filter (·.running)).length
  | .fc => b.ref.queue.length
  | .pwr => ((List.range p.stations).filter (stnActive b)).length
  | .gtal j => ((pageTals b (256 * j)).filter (fun x => decide (x.waiters ≠ []))).length
  | .stn n => busyStrands b n 0 256 + n / 8 * 2 ^ 9
  | .chan n => actChans b n
  | .strd n s => busyStrands b n (128 * s) (128 * s + 128)
  | .shp n => (getStn b n).ctx.length
  | .codec n => maskOf ((List.range 4).filter (fun i => ((getStn b n).slots[i]?.getD CSlot.reset).valid))
  | .near n => (getStn b n).staged.length
  | .ltal n s => ((pageTals b (8192 + 512 * n + 256 * s)).filter (fun x => decide (x.waiters ≠ []))).length
  | .ord n => hazUsed (getStn b n)
  | .link => maskOf ((List.range p.linkPorts).filter (fun i => decide ((getPort b i).st = .up)))
  | .lport i => portCode (getPort b i).st
  | .vault => vaultCode b.vault.st
  | _ => 0

def headerReg (p : Params) (b : Block) (pg : Page) (off : Nat) : Option Nat :=
  if off = 0 then
    let i := pageIdent pg
    some (i.1 * 2 ^ 24 + i.2.1 * 2 ^ 16 + 0x0102)
  else if off = 4 then
    some ((pageIdent pg).2.2 * 2 ^ 24 + (pageCaps pg).1 * 2 ^ 16 + (pageCaps pg).2)
  else if off = 0xC then
    some (b2n (pageActive p b pg) + b2n (pageFenced b pg) * 2 + b2n (pageResetting b pg) * 4 +
      b2n (rbit b (pageB pg + 8) 3) * 8 + pagePower b pg * 16 + blockState p b pg % 2 ^ 16 * 2 ^ 16)
  else none

/-! ## Registers that show a unit's state -/

/-- DB_STATUS and CH_STATUS without HELD. -/
def chStatus (b : Block) (n c : Nat) : Nat :=
  let x := getChan b n c
  chCode x.st + b2n (chActive b n c) * 8 + x.err * 2 ^ 8

def dbellReg (b : Block) (n c off : Nat) : Option Nat :=
  let x := getChan b n c
  if off = 0x40 then some x.tail.toNat
  else if off = 0x44 then some x.head.toNat
  else if off = 0x48 then some x.done.toNat
  else if off = 0x4C then some (chStatus b n c)
  else if off = 0x54 then some x.errSeq.toNat
  else none

def chanReg (b : Block) (n off : Nat) : Option Nat :=
  if off = 0x44 then some (((List.range 32).map (chReserve b n)).foldl (· + ·) 0)
  else if off < 0x800 then none
  else
    let c := (off - 0x800) / 0x40
    let x := getChan b n c
    let o := (off - 0x800) % 0x40
    if o = 0x1C then some (32 * n + c)
    else if o = 0x20 then some (chStatus b n c + (heldBy b n c).length * 2 ^ 16)
    else if o = 0x24 then some x.head.toNat
    else if o = 0x28 then some x.tail.toNat
    else if o = 0x2C then some x.done.toNat
    else if o = 0x30 then some x.errSeq.toNat
    else none

/-- What the registers of a STRD page show (R73). [DEDUCED: log 83] -/
def strdReg (b : Block) (n s off : Nat) : Option Nat :=
  if off < 0x800 then none
  else
    let k := 128 * s + (off - 0x800) / 0x10
    let x := getStrand b n k
    let o := (off - 0x800) % 0x10
    if o = 0 then
      some (strandCode b n k + x.chan * 2 ^ 3 + (if x.entry.isSome then chPrio b n x.chan else 0) * 2 ^ 8 + x.err * 2 ^ 16)
    else if o = 4 then some x.seq.toNat
    else if o = 8 then some (lo32 x.pc)
    else some (hi32 x.pc)

def stnReg (b : Block) (n off : Nat) : Option Nat :=
  let st := getStn b n
  if off = 0x44 then some (n / 8 + st.pfOut.length * 2 ^ 8 + (st.rdTags.length + st.pfOut.length) * 2 ^ 16)
  else if off = 0x48 then some st.stopCode
  else none

/-- The item of the shaper's history that SHP_HIST_SEL selects (R167). -/
def histItem (b : Block) (n : Nat) : Nat :=
  let sel := rget b (shpB n + 0x48)
  let h := tgetD (getStn b n).hist (bits sel 5 0) Hist.reset
  let e := bits sel 12 8
  if e < 16 then h.entries[e]?.getD 0 else if e = 16 then h.acc else if e = 17 then h.count else 0

def shpReg (b : Block) (n off : Nat) : Option Nat :=
  let st := getStn b n
  if off = 0x44 then
    some (st.ctx.length + b2n st.rowBuf.isSome * 16 + b2n st.smooth.isSome * 32 + b2n st.colAcc.isSome * 64)
  else if off = 0x4C then some (histItem b n)
  else none

/-- The slots for which a TLOAD is at step 2, 3 or 4 of R179 (R194). -/
def tloadsWait (b : Block) (n : Nat) : Nat :=
  maskOf (((stnOps b n).filter (fun e => decide (e.2.kind = .tload) && decide (e.2.phase = .bind))).map (fun e => tloadSlot e.2))

def codecReg (b : Block) (n off : Nat) : Option Nat :=
  let st := getStn b n
  if 0x40 ≤ off ∧ off < 0x50 then
    let i := (off - 0x40) / 4
    let x := st.slots[i]?.getD CSlot.reset
    some (x.gen + b2n x.valid * 2 ^ 8 + b2n x.loading * 2 ^ 9 + x.table.length * 2 ^ 10 + slotBound b n i * 2 ^ 20)
  else if off = 0x50 then
    some (tloadsWait b n + st.encCtx.length * 2 ^ 4 + st.decCtx.length * 2 ^ 8)
  else none

def nearReg (p : Params) (n off : Nat) : Option Nat :=
  if off = 0x44 then some (p.tileSize[n]?.getD 0)
  else if off = 0x48 then some (p.rdLat[n]?.getD 0 + p.wrAckLat[n]?.getD 0 * 2 ^ 8)
  else none

/-- Code of a space (R109). -/
def spaceNo (x : Space) : Nat := spaceCode x

/-- The entry that HAZ_SEL selects, as HAZ_INFO, HAZ_LO and HAZ_HI show it (R243). Hazard entries and landing records take
their numbers in the order in which they are held. [DESIGN CHOICE: log 82] -/
def hazShown (b : Block) (n : Nat) : Nat × Nat × Nat :=
  let st := getStn b n
  let sel := rbits b (ordB n + 0x58) 8 0
  let e := if sel < 64 then (st.haz.filter (fun h => !h.landing))[sel]?
    else (st.haz.filter (·.landing))[sel - 64]?
  match e with
  | some h => (1 + spaceNo h.space * 2 + b2n h.write * 8 + b2n (h.landing || h.done) * 16 + h.strand * 2 ^ 5 + h.part * 2 ^ 13, h.lo, h.hi)
  | none => (0, 0, 0)

def ordReg (b : Block) (n off : Nat) : Option Nat :=
  let st := getStn b n
  let l := tgetD b.hazLatch n (0, 0, 0)
  if off = 0x44 then some (hazUsed st + landUsed st * 2 ^ 8)
  else if off = 0x48 then
    some ((liveWr st.wrTags).length + (liveWr st.wWrTags).length + (liveWr st.vWrTags).length + st.nearWr.length)
  else if off = 0x5C then some (hazShown b n).1
  else if off = 0x60 then some (lo32 l.2.1.toNat)
  else if off = 0x64 then some (hi32 l.2.1.toNat)
  else if off = 0x68 then some (lo32 l.2.2.toNat)
  else if off = 0x6C then some (hi32 l.2.2.toNat)
  else none

def talReg (b : Block) (pg : Page) (off : Nat) : Option Nat :=
  let x := getTal b (talIndex pg (rbits b (pageB pg + 0x4C) 7 0))
  if off = 0x50 then some (b2n x.poison + b2n (talSys x) * 2 + x.waiters.length * 4)
  else if off = 0x58 then some (lo32 (talPend x))
  else if off = 0x5C then some (hi32 (talPend x))
  else if off < 0x400 then none
  else if off < 0x800 then some (lo32 (getTal b (talIndex pg ((off - 0x400) / 4))).value.toNat)
  else
    let v := (getTal b (talIndex pg ((off - 0x800) / 8))).value.toNat
    some (if off % 8 = 0 then lo32 v else hi32 v)

def deferredOf (x : Part) : Nat := (x.recs.filter (fun r => decide (r.phase = .deferred))).length

def xlatReg (p : Params) (b : Block) (off : Nat) : Option Nat :=
  if off = 0x40 then
    some ((b.walks.filter (·.running)).length + (b.walks.filter (fun w => !w.running)).length * 2 ^ 8)
  else if off < 0x800 then none
  else
    let q := (off - 0x800) / 0x80
    let x := getPart b q
    let o := (off - 0x800) % 0x80
    if o = 4 then
      some (partCode x.st + b2n (partActive p b q) * 8 + b2n x.pend.isSome * 16 + x.cerr * 2 ^ 8 + x.gen * 2 ^ 16)
    else if o = 0x20 then some x.fqProd
    else if o = 0x28 then some (deferredOf x)
    else if o = 0x38 then some x.fcProd
    else none

def partReg (b : Block) (q off : Nat) : Option Nat :=
  let x := getPart b q
  if off = 0x50 then some (x.gen + partCode x.st * 2 ^ 16)
  else if off = 0x54 then some (x.recs.filter (fun r => decide (r.phase ≠ .retry))).length
  else if off = 0x58 then some (rget b (xpR q 0x40))
  else none

def linkReg (p : Params) (b : Block) (off : Nat) : Option Nat :=
  if off = 0x54 then some (b2n (badTopology p b) + b2n b.linkReset * 2 + b2n b.colour * 4)
  else if off < 0x100 then none
  else
    let g := getGop b ((off - 0x100) / 0x40)
    let o := (off - 0x100) % 0x40
    if o = 0x14 then some (gopCode g.st)
    else if o = 0x18 then some g.epoch.toNat
    else if o = 0x28 then some (lo32 g.value.toNat)
    else if o = 0x2C then some (hi32 g.value.toNat)
    else none

def lportReg (b : Block) (i off : Nat) : Option Nat :=
  let x := getPort b i
  if off = 0x40 then some (portCode x.st + x.peerChip * 2 ^ 3 + x.peerPort * 2 ^ 13)
  else if off = 0x58 then some (1552 + i)
  else none

/-- Positions in the poison lists of all objects (R328). -/
def poisonTotal (b : Block) : Nat := (b.vault.objs.map (fun (e : Nat × Obj) => e.2.poison.length)).foldl (· + ·) 0

/-- The length that VT_OBJ_LEN shows (R332, R344). -/
def shownLen (x : Obj) : Nat :=
  if x.packed ∧ x.st = .ready then roundUp (8 * x.blocks) 4096 + 4096 * x.blocks else x.len

def vaultReg (p : Params) (b : Block) (off : Nat) : Option Nat :=
  let v := b.vault
  let x := getObj b (rbits b (vaultB + 0x5C) 11 0)
  if off = 0x40 then some (vaultCode v.st + v.ch * 2 ^ 3 + (if v.st = .off then 0 else p.luns - 1) * 2 ^ 11)
  else if off = 0x44 then
    some ((if v.ch = 0 then 0 else posCount p - v.retired.length) + (freePos p v).length * 2 ^ 16)
  else if off = 0x48 then
    some (b2n (v.busy ≠ 0) * 8 + v.result * 16 + rbits b (vaultB + 0x48) 19 8 * 2 ^ 8)
  else if off = 0x60 then some (objCode x.st + b2n x.packed * 8 + x.parts.toNat * 2 ^ 16)
  else if off = 0x64 then some (x.gen % 2 ^ 32)
  else if off = 0x68 then some (lo32 (shownLen x))
  else if off = 0x6C then some (hi32 (shownLen x))
  else if off = 0x88 then some 1556
  else if off = 0x9C then some (poisonTotal b)
  else if off = 0xA0 then some (lo32 v.poweredS)
  else if off = 0xA4 then some (hi32 v.poweredS)
  else none

/-- Erase counts of a channel's blocks in use: those of the positions that hold a segment. -/
def erasesUsed (b : Block) (ch : Nat) : List Nat :=
  let x := getVCh b ch
  (usedPos b.vault).map (fun pos => tgetD x.erases (realBlk x (posBlk pos)) 0)

/-- Spare blocks of a channel that no bad-block entry uses; none before the medium is striped. [DEDUCED: log 84] -/
def sparesFree (p : Params) (b : Block) (ch : Nat) : Nat :=
  if b.vault.ch = 0 then 0
  else ((List.range (4 * p.luns)).map (fun (i : Nat) => spareTop ch i - 936)).foldl (· + ·) 0 - (getVCh b ch).bad.length

/-- What the registers of a VCH page show (R345). [DEDUCED: log 84] -/
def vchReg (p : Params) (b : Block) (g off : Nat) : Option Nat :=
  if off = 0x40 then some p.vcRate
  else if off < 0x800 then none
  else
    let ch := 16 * g + (off - 0x800) / 0x20
    let o := (off - 0x800) % 0x20
    let x := getVCh b ch
    if p.vaultCh ≤ ch then some 0
    else if o = 0 then some (if b.vault.st = .off then 0 else if x.failed then 2 else 1)
    else if o = 4 then
      let l := erasesUsed b ch
      some ((l.foldl min (l.head?.getD 0)) + (l.foldl max 0) * 2 ^ 16)
    else if o = 0x10 then some x.bad.length
    else if o = 0x14 then some (sparesFree p b ch)
    else none

/-- FC_STATUS: the sources in service (R348). -/
def fcStatus (b : Block) : Nat :=
  maskOf ((b.ref.srcs.filter (fun e => decide (e.2.st ≠ .idle))).map (·.1))

/-- What the registers of the FC page show (R354, R366). [DEDUCED: log 74] -/
def fcReg (p : Params) (b : Block) (off : Nat) : Option Nat :=
  let r := b.ref
  if off = 0x40 then some (lo32 (fcStatus b))
  else if off = 0x44 then some (hi32 (fcStatus b))
  else if off = 0x4C then
    some (b2n r.dead + r.dbSrc * 2 ^ 2 + r.dbKind * 2 ^ 8 + b2n r.haltIncomplete * 2 ^ 16 + b2n (whistle b) * 2 ^ 17 +
      b2n (safeOut b) * 2 ^ 18)
  else if off = 0x50 then some r.queue.length
  else if off = 0x60 then some 1557
  else if off = 0x68 then some r.seq.toNat
  else if 0x80 ≤ off ∧ off < 0xA0 then some ((r.latch[(off - 0x80) / 4]?.getD 0).toNat)
  else if off < 0x400 then none
  else
    let s := (off - 0x400) / 0x10
    let x := getSrc b s
    let o := (off - 0x400) % 0x10
    if !srcPresent p s then some 0
    else if o = 0 ∧ s = srcColl then some (mergeBits (rget b (fsR s 0)) 0x200 0x300)
    else if o = 4 then
      some (srcCode x.st + b2n x.fencing * 4 + b2n x.fenced * 8 + (if x.window then x.count else 0) * 2 ^ 4)
    else none

def pwrReg (p : Params) (b : Block) (off : Nat) : Option Nat :=
  if 0x48 ≤ off ∧ off < 0x60 then
    let g := (off - 0x48) / 4
    let x := getGrp b g
    if grpCount p ≤ g then some 0
    else some (rget b (grpR g) + x.cur * 2 ^ 2 + x.capM * 2 ^ 4 + x.capT * 2 ^ 6 + b2n (pllOn p b g) * 2 ^ 8)
  else if off = 0x78 then
    let i := rbits b (pwrB + 0x74) 5 0
    some (if senseExists p i then ((tget b.pwr.sense i).getD 0).toNat else 0)
  else if off = 0x8C then some 1559
  else if off = 0x90 then
    some (b2n b.pwr.hubOn + b2n ((List.range p.linkPorts).any (fun i => pageEnable b (lportB i))) * 2 + b2n b.vault.powered * 4 +
      b2n (isDead b) * 8)
  else none

def mboxReg (b : Block) (off : Nat) : Option Nat :=
  let m := b.mgmt
  if off = 0x74 then some (mgmtCode m.st + b2n m.h2mFull * 8 + b2n m.m2hValid * 16)
  else if 0x80 ≤ off ∧ off < 0xB0 then some ((m.m2h.data[(off - 0x80) / 4]?.getD 0).toNat)
  else if off = 0xB0 then
    some (m.m2h.code % 256 + m.m2h.seq % 256 * 2 ^ 8 + m.m2h.result % 256 * 2 ^ 16 + m.m2h.data.length * 2 ^ 24)
  else if off = 0xC0 then some 1558
  else if off = 0xC8 then some (mbImage b)
  else none

/-- The location and number of the counter that an offset of a page belongs to (R392). -/
def cntAt (pg : Page) (off : Nat) : Option (CntLoc × Nat) :=
  match (match pg with
    | .hcnt => some CntLoc.hub
    | .scnt n => some (.station n)
    | .lport i => some (.port i)
    | .vault => some .vault
    | _ => none) with
  | some l => if 0x100 ≤ off ∧ off < 0x100 + 0x10 * cntNum l then some (l, (off - 0x100) / 0x10) else none
  | none => none

def cntReg (b : Block) (l : CntLoc) (i off : Nat) : Option Nat :=
  let x := getCnt b l i
  let o := off % 0x10
  if o = 0 then some (rget b (cntAddr l i) % 2 ^ 16 + x.wcount.toNat * 2 ^ 16)
  else if o = 8 then some (lo32 x.value.toNat)
  else if o = 0xC then some (hi32 x.value.toNat)
  else none

/-- The value of a register that shows a unit's state; none for one that reads as it is stored. -/
def liveReg (p : Params) (b : Block) (pg : Page) (off : Nat) : Option Nat :=
  if off < 0x40 then headerReg p b pg off
  else match cntAt pg off with
  | some (l, i) => cntReg b l i off
  | none => match pg with
    | .hub => if off = 0x40 then some (p.stations + p.linkPorts * 2 ^ 6 + p.vaultCh * 2 ^ 9) else none
    | .cfg => none
    | .xlat => xlatReg p b off
    | .fc => fcReg p b off
    | .hcnt => if off = 0x48 then some (lo32 b.frzTime) else if off = 0x4C then some (hi32 b.frzTime) else none
    | .pwr => pwrReg p b off
    | .gtal _ | .ltal _ _ => talReg b pg off
    | .stn n => stnReg b n off
    | .chan n => chanReg b n off
    | .strd n s => strdReg b n s off
    | .shp n => shpReg b n off
    | .codec n => codecReg b n off
    | .near n => nearReg p n off
    | .ord n => ordReg b n off
    | .scnt _ => if off = 0x40 then some (b2n (rbit b (hcntB + 0x40) 0)) else none
    | .dbell n c => dbellReg b n c off
    | .link => linkReg p b off
    | .lport i => lportReg b i off
    | .lowin _ | .liwin _ => none
    | .vault => vaultReg p b off
    | .vch g => vchReg p b g off
    | .part q => partReg b q off
    | .mbox => mboxReg b off

/-- What a read of a register returns: its fields alone; reserved bits and reserved offsets read 0 (R33). -/
def readReg (p : Params) (b : Block) (pg : Page) (off : Nat) : Nat :=
  match pageRow pg off with
  | none => 0
  | some r => ((liveReg p b pg off).getD (rget b (pageB pg + off))) &&& (r.live ||| r.staged ||| r.frozen ||| r.ro)

end Sys2Proof.Machine
end

