-- ==== Sys2Proof/Machine/Access.lean ====
section
/-! DEFINITION. The configuration port (R31 to R41): access classes, responses, shadows, update classes, the record of
refused accesses, and what each register does when it is written. -/
namespace Sys2Proof.Machine

/-- What the medium answers to a vault command: headers read back at CLOSE, geometry and factory marks at FORMAT. -/
structure Med where
  headers    : List DWord
  geometryOk : Bool
  bad        : List (Nat × Nat)
  deriving DecidableEq, Repr

/-- A free answer of the medium. [DESIGN CHOICE: log 6] [DEDUCED: log 10] -/
def freeMed (b : Block) : Med × Block :=
  let (x, b') := draw b
  ({ headers := Config.freeWords b.fresh, geometryOk := x % 2 = 1, bad := Config.freePairs b.fresh }, b')

/-! ## Errors and their record (R28, R32, R40, R41) -/

/-- Bits of PAGE_ERR (R28). -/
def eFrozen : Nat := 0
def eRo : Nat := 1
def ePriv : Nat := 2
def eLock : Nat := 3
def eSize : Nat := 4
def eRsvd : Nat := 5
def eRefused : Nat := 6
def eParity : Nat := 7
def eDecode : Nat := 8

/-- The response of an access (R32). [DEDUCED: log 100] -/
def respond (b : Block) (r : Resp) (d : Nat) : Block :=
  { b with cfg := { b.cfg with resp := r, rdata := BitVec.ofNat 32 d } }

/-- The word address of an access (R33). -/
def accAddr (x : Access) : Nat := x.addr.toNat / 4 * 4

/-- The PAGE_ERR_INFO image of an access (R28). -/
def accInfo (x : Access) (resp kind : Nat) : Nat :=
  errInfo x.attr.req.toNat x.attr.part.toNat (b2n x.attr.priv) (b2n x.write) resp kind

/-- Record an access error on a page; with its bit of PAGE_ERR_EN set it also raises an event of CFG. -/
def cfgError (b : Block) (base i addr info : Nat) : Block :=
  let b := pageErr b base i addr info
  if rbit b (base + 0x14) i && i ≠ eParity then signalEv b srcCfg 0x45 noUnit addr (info + 5 * 2 ^ 32) else b

/-- A page refuses an access. -/
def refuse (b : Block) (x : Access) (base i kind : Nat) : Block :=
  respond (cfgError b base i (accAddr x) (accInfo x 2 kind)) .errSlv 0

/-- The address decodes to no page. -/
def refuseDec (b : Block) (x : Access) : Block :=
  respond (rcount (cfgError b cfgB eDecode (accAddr x) (accInfo x 3 0)) (cfgB + 0x40) 1) .errDec 0

/-- The source of a page's code errors (R41, R400). -/
def pageSrc (pg : Page) : Nat :=
  match pg with
  | .hub | .cfg | .pwr | .gtal _ | .part _ | .mbox => srcCfg
  | .xlat => srcXlat
  | .fc => srcColl
  | .hcnt => srcPmu
  | .stn n | .chan n | .strd n _ | .shp n | .codec n | .near n | .ltal n _ | .ord n | .scnt n | .dbell n _ => n
  | .link | .lowin _ | .liwin _ => srcLink 0
  | .lport i => srcLink i
  | .vault | .vch _ => srcVault

/-! ## Access classes (R31, R397) -/

/-- Whether the hub admits an access to a page. -/
def admits (b : Block) (x : Access) (pg : Page) : Bool :=
  x.attr.priv || (match pg with
    | .part q => decide (x.attr.part.toNat = q)
    | .dbell n c => decide (x.attr.part.toNat = chOwner b n c)
    | _ => !x.write && (cntAt pg (accAddr x % 0x1000)).isSome && rbit b (hcntB + 0x44) x.attr.part.toNat)

/-! ## Field corrections -/

/-- The 32-bit word with a field replaced. -/
def putField (w m l v : Nat) : Nat := mergeBits w (v <<< l) (span m l)

/-- A field of which 0 is stored as 1. -/
def atLeast1 (w m l : Nat) : Nat := putField w m l (max 1 (bits w m l))

/-- A field stored within bounds. -/
def within (w m l lo hi : Nat) : Nat := putField w m l (min hi (max lo (bits w m l)))

/-- The value that a register stores for a word written to it (R54, R57, R58, R228, R244, R262, R272, R274, R286, R293,
R300, R313, R326 to R337, R349, R351, R365, R366, R369, R377, R390, R392). [DEDUCED: log 18] -/
def fixWord (b : Block) (pg : Page) (off w : Nat) : Nat :=
  match pg with
  | .hub => if off = 0x84 then atLeast1 w 15 0 else w
  | .chan n =>
    if off = 0x40 then within w 15 0 256 65535
    else if off < 0x800 then w
    else if (off - 0x800) % 0x40 = 4 then
      let c := (off - 0x800) / 0x40
      let rest := (((List.range 32).filter (· ≠ c)).map (chReserve b n)).foldl (· + ·) 0
      putField w 8 0 (min (bits w 8 0) (256 - rest))
    else if (off - 0x800) % 0x40 = 8 then within w 26 16 1 1024
    else w
  | .ord _ => if off = 0x40 then atLeast1 w 15 0 else w
  | .xlat =>
    if off = 0x44 then within w 4 0 1 16
    else if off < 0x800 then w
    else if (off - 0x800) % 0x80 = 0x14 then atLeast1 (within w 10 0 1 1024) 31 16
    else if (off - 0x800) % 0x80 = 0x34 then within w 3 0 6 12
    else w
  | .link =>
    if off = 0x44 then within w 31 16 64 65535 else if off = 0x48 then atLeast1 (atLeast1 w 15 0) 31 16 else w
  | .lport _ => if off = 0x44 then atLeast1 (within w 11 0 256 4095) 19 16 else w
  | .vault =>
    if off = 0x70 then atLeast1 (atLeast1 (atLeast1 w 6 4) 15 8) 31 16
    else if off = 0x74 then atLeast1 (atLeast1 w 15 0) 31 16
    else if off = 0x78 then atLeast1 w 31 0
    else if off = 0x7C then atLeast1 (atLeast1 w 7 0) 15 8
    else w
  | .fc =>
    if off = 0x54 then atLeast1 w 15 0
    else if 0x400 ≤ off ∧ off % 0x10 = 0 then
      let w := atLeast1 w 31 16
      if (off - 0x400) / 0x10 = srcColl then putField w 9 8 (rbits b (fcB + off) 9 8)
      else if bits w 9 8 = 3 then putField w 9 8 0 else w
    else w
  | .pwr =>
    if off = 0x40 then atLeast1 w 11 0
    else if off = 0x44 then atLeast1 w 31 16
    else if off = 0x70 then atLeast1 (within w 7 0 60 120) 15 8
    else w
  | .mbox => if off = 0x70 then within w 19 16 0 12 else w
  | _ => if (cntAt pg off).isSome ∧ off % 0x10 = 4 then within w 19 0 1 1000000 else w

/-- The value that a 64-bit pair stores (R316, R318, R319). -/
def fixPair (pg : Page) (off v : Nat) : Nat :=
  match pg with
  | .link => if 0x100 ≤ off ∧ (off - 0x100) % 0x40 = 0x20 then v / 64 * 64 else v
  | .lowin _ =>
    if (off - 0x800) % 0x20 = 8 then (if 2 ^ 48 < v then 2 ^ 48 else v / 65536 * 65536) else v % 2 ^ 48 / 65536 * 65536
  | .liwin _ => if (off - 0x800) % 0x20 = 8 then (if 2 ^ 48 < v then 2 ^ 48 else v / 256 * 256) else v / 256 * 256
  | _ => v

/-- Event counts: a write of any value sets them to 0. -/
def isCount (pg : Page) (off : Nat) : Bool :=
  match pg with
  | .hub => off = 0x88 || off = 0x8C
  | .cfg => off = 0x40
  | .chan _ => off = 0x48
  | .stn _ => off = 0x4C || off = 0x50 || off = 0x54
  | .shp _ => off = 0x50
  | .codec _ => off = 0x54
  | .near _ => off = 0x58 || off = 0x5C || off = 0x60
  | .ord _ => off = 0x4C || off = 0x50 || off = 0x54
  | .gtal _ | .ltal _ _ => off = 0x44 || off = 0x48
  | .xlat => off = 0x48 || off = 0x4C || (0x800 ≤ off && (off % 0x80 = 0x40 || off % 0x80 = 0x4C))
  | .link => off = 0x50 || off = 0x58
  | .lport _ => off = 0x48 || off = 0x4C || off = 0x5C
  | .liwin _ => 0x800 ≤ off && off % 0x20 = 0x18
  | .vault => off = 0x8C || off = 0x90 || off = 0x94 || off = 0x98
  | .vch _ => 0x800 ≤ off && (off % 0x20 = 8 || off % 0x20 = 0xC)
  | .fc => off = 0x64 || (0x400 ≤ off && (off % 0x10 = 8 || off % 0x10 = 0xC))
  | .pwr => off = 0x7C || off = 0x80 || off = 0x94 || off = 0x98
  | .mbox => off = 0xC4
  | _ => false

/-! ## Channels (R46, R47, R65, R69) -/

/-- A doorbell write of value t. [DEDUCED: log 19] [DEDUCED: log 20] -/
def doorbell (p : Params) (b : Block) (n c : Nat) (t : Word) : Block :=
  let x := getChan b n c
  let size := 2 ^ chLog2 b n c
  if t = x.tail then b
  else if (t - x.tail).toNat ≤ size ∧ (t - x.done).toNat ≤ size then
    let b := setChan b n c { x with tail := t }
    if x.st = .disabled then b
    else
      let b := if chAccepts b n c then reqThaw b n else b
      pump p b n c
  else if x.st = .disabled then setCause (setChan b n c { x with err := 0x31 }) (32 * n + c) 8
  else stopChan b n c 0x31 none

/-- The configuration checks of an enable. -/
def chConfigOk (b : Block) (n c : Nat) : Bool :=
  let l := chLog2 b n c
  decide (4 ≤ l) && decide (l ≤ 16) && decide (chRing b n c % 2 ^ (l + 5) = 0) && decide (1 ≤ chCap b n c) &&
    decide (chReserve b n c ≤ chCap b n c)

/-- ENABLE of a channel goes from 0 to 1. -/
def chEnableOn (p : Params) (b : Block) (n c : Nat) : Block :=
  let b := modChan b n c (fun x => { x with err := 0, st := if x.tail = x.head then .idle else .running })
  if chConfigOk b n c then
    let b := if chAccepts b n c ∧ (getChan b n c).tail ≠ (getChan b n c).head then reqThaw b n else b
    pump p b n c
  else stopChan b n c 0x30 none

/-- ENABLE goes from 1 to 0: every entry that has not started is cancelled, in index order. -/
def chDisable (p : Params) (b : Block) (n c : Nat) : Block :=
  let x := getChan b n c
  let b := detachReq b (fun r => match r with
    | .chan n' c' => decide (n' = n) && decide (c' = c)
    | _ => false)
  let held := x.accepted ++ (match x.accepting with
    | some e => [e]
    | none => [])
  let lo := x.head + (if x.accepting.isSome then 1 else 0)
  let b := setChan b n c { x with
    accepted := [], accepting := none, accOff := false, head := x.tail, cancelTo := x.tail
    cancelFrom := if x.cancelFrom = x.cancelTo then lo else x.cancelFrom }
  let b := forEach held b (fun b e => beginCompl b n c (complOf e 0x22 0xFFFF false))
  let b := modChan b n c (fun y => { y with st := if y.st = .stopped then .stopped else .draining })
  pump p b n c

/-- RESUME of a STOPPED channel. [DEDUCED: log 17] -/
def chResume (p : Params) (b : Block) (n c : Nat) : Block :=
  let x := getChan b n c
  if x.st ≠ .stopped then b
  else pump p (setChan b n c { x with st := .idle, err := 0 }) n c

/-- A write of CH_CTRL. [DEDUCED: log 17] -/
def chCtrl (p : Params) (b : Block) (n c w : Nat) : Block :=
  let was := chEnable b n c
  let stopped : Bool := (getChan b n c).st = .stopped
  let b := rset b (chR n c 0) (w &&& 0xF3D)
  let on := bit w 0
  let b := if on && !was then chEnableOn p b n c else if !on && was then chDisable p b n c else b
  if bit w 1 && stopped && (was || !on) then chResume p b n c else b

/-! ## Units' registers -/

/-- NEAR_CFG as it is stored, and HORIZON after it (R196). -/
def lowestBits (n : Nat) (x : Nat) : Nat := maskOf ((setBits 8 x).take n)

/-- Store NEAR_CFG and HORIZON as R196 corrects them. Locked mode that R205 ended may resume once LOCK_EN has been 0. -/
def nearStore (b : Block) (n cfg : Nat) : Block :=
  let own := lowestBits 6 (bits cfg 7 0)
  let wr := bits cfg 15 8 &&& own
  let lock := bits cfg 23 16 &&& wr
  let cfg := own + wr * 2 ^ 8 + lock * 2 ^ 16 + bits cfg 28 24 * 2 ^ 24 + (if lock = 0 then 0 else bits cfg 29 29) * 2 ^ 29
  let b := rset b (nearB n + 0x40) cfg
  let b := if bits cfg 29 29 = 0 then modStn b n (fun st => { st with lockOff := false }) else b
  let bound := if lock = 0 then 768 else 768 / popCount 8 lock
  rset b (nearB n + 0x4C) (min (getStn b n).horizon bound)

/-- A write of SHP_HIST_DATA (R167). -/
def histWrite (b : Block) (n w : Nat) : Except Nat Block :=
  let sel := rget b (shpB n + 0x48)
  let e := bits sel 12 8
  if 17 < e then .error eRsvd
  else .ok (modStn b n (fun st => { st with hist := tmod st.hist (bits sel 5 0) Hist.reset (fun h =>
    if e < 16 then { h with entries := (List.range 16).map (fun (i : Nat) => if i = e then w else h.entries[i]?.getD 0) }
    else if e = 16 then { h with acc := w }
    else { h with count := min w 16 }) }))

/-- A write of TAL_ADD: the value has changed when the response is sent (R231, R247, R249). -/
def talAddWrite (b : Block) (t w : Nat) : Block :=
  if w = 0 then b
  else applyAdds b t [{ src := .gop, tally := t, amount := w, stn := none, declared := .chip, settled := .chip, ack := none }]

/-- A write of TAL_VAL (R255, R257): the value is set, and the poison and the pending mask go. [DEDUCED: log 94] -/
def talValWrite (b : Block) (t v : Nat) : Block :=
  let x := getTal b t
  if talHeld x && !x.poison then b
  else testWaiters (setTal b t { x with value := BitVec.ofNat 48 v, rels := [], poison := false }) t

/-- A write of XP_CTRL (R267, R278). -/
def xpCtrl (p : Params) (b : Block) (q w : Nat) : Block :=
  let was := partOn b q
  let b := rset b (xpR q 0) (w &&& 1)
  let b := if was && !bit w 0 then xlatOff p b q else b
  if bit w 1 then commitReq b q (bit w 2) else b

/-- A write of a slot's control word (R308). -/
def gopCtrl (p : Params) (b : Block) (s w : Nat) : Except Nat Block × Block :=
  let was := gopEn b s
  let b' := rset b (gopR s 0) (mergeBits (rget b (gopR s 0)) w 0xE)
  match (if bit w 0 && !was then gopBadTally p b' s else none) with
  | some t => (.error eRefused, talMisuse b (srcLink 0) noUnit 0 t (0x100 + s) true none)
  | none => (.ok (gopSetEn p b' s (bit w 0)), b)

/-- A write of VT_CMD (R324). [DEDUCED: log 10] [DEDUCED: log 93] -/
def vtCmd (p : Params) (b : Block) (w : Nat) (med : Option Med) : Except Nat Block :=
  if b.vault.busy ≠ 0 then .error eFrozen
  else
    let b := rset b (vaultB + 0x48) (w &&& 0xFFF00)
    let obj := bits w 19 8
    let free : Bool := med.isNone && (decide (bits w 2 0 = 2) || decide (bits w 2 0 = 4))
    let m := med.getD (freeMed b).1
    let b := if free then (freeMed b).2 else b
    .ok (match bits w 2 0 with
      | 1 => cmdCreate p b obj
      | 2 => cmdClose b obj m.headers
      | 3 => cmdDelete b obj
      | 4 => cmdFormat p b m.geometryOk m.bad
      | 5 => cmdMount b
      | _ => b)

/-- Whether a clear of a source's bit acts (R361). -/
def srcClears (b : Block) (src : Nat) : Bool :=
  match (getSrc b src).st with
  | .minor => true
  | .major => (getSrc b src).fenced || decide (majorAct b src = 1) || decide (srcTarget src = .none)
  | _ => false

/-- A source returns to IDLE; MGMT's processor restarts when it was fenced (R346). [DEDUCED: log 107] -/
def srcClear (b : Block) (src : Nat) : Block :=
  if !srcClears b src then b
  else
    let b := modSrc b src (fun x => { x with st := .idle, window := false, count := 0, fencing := false, fenced := false })
    if src = srcMgmt ∧ b.mgmt.st = .halted then mgmtReset (modMgmt b (fun m => { m with st := .rom })) 5 false
    else b

/-- A write of FC_STATUS. [DEDUCED: log 107] -/
def fcStatusWrite (b : Block) (w : Nat) : Block := forEach (setBits 60 w) b srcClear

/-- A write of CNT_CTRL: EVENT, EN, MODE, OVF and the partition filter (R392). [DEDUCED: log 95] -/
def cntCtrl (b : Block) (l : CntLoc) (i w : Nat) : Block :=
  let a := cntAddr l i
  let old := rget b a
  let ev := if cntEvents l < bits w 7 0 then 0 else bits w 7 0
  let filt := match l with
    | .station _ => w &&& 0xF800
    | _ => 0
  let ovf := if bit w 10 then 0 else old &&& 0x400
  let b := if bit w 9 && !bit old 9 then setCnt b l i { getCnt b l i with acc := 0 } else b
  rset b a (ev + (w &&& 0x300) + ovf + filt)

/-- A write of CNT_CTRL's freeze word (R399): T_f is 32 ns after the response, 1 or 2 AO_REFCLK cycles on. [DEDUCED: log 96] -/
def freezeWrite (b : Block) (w : Nat) : Block :=
  let old := rget b (hcntB + 0x40)
  let snap := if bit w 1 then 0 else old &&& 2
  if bit w 0 && !bit old 0 then
    let (x, b) := draw b
    { rset b (hcntB + 0x40) (1 + snap) with frzTime := b.aoTime + 1 + x % 2 }
  else rset b (hcntB + 0x40) ((w &&& 1) + snap)

/-- The vector whose causes, or mask, an offset of a page holds (R64). -/
def causeVec (pg : Page) (off : Nat) : Option Nat :=
  match pg with
  | .dbell n c => if off = 0x50 then some (32 * n + c) else none
  | .xlat => if 0x800 ≤ off ∧ off % 0x80 = 0x44 then some (1536 + (off - 0x800) / 0x80) else none
  | .lport i => if off = 0x50 then some (1552 + i) else none
  | .vault => if off = 0x80 then some 1556 else none
  | .fc => if off = 0x58 then some 1557 else none
  | .mbox => if off = 0xB8 then some 1558 else none
  | .pwr => if off = 0x84 then some 1559 else none
  | _ => none

def maskVec (pg : Page) (off : Nat) : Option Nat :=
  match pg with
  | .chan n => if 0x800 ≤ off ∧ off % 0x40 = 0x18 then some (32 * n + (off - 0x800) / 0x40) else none
  | .xlat => if 0x800 ≤ off ∧ off % 0x80 = 0x48 then some (1536 + (off - 0x800) / 0x80) else none
  | .lport i => if off = 0x54 then some (1552 + i) else none
  | .vault => if off = 0x84 then some 1556 else none
  | .fc => if off = 0x5C then some 1557 else none
  | .mbox => if off = 0xBC then some 1558 else none
  | .pwr => if off = 0x88 then some 1559 else none
  | _ => none

/-- The writable fields of a register. -/
def rowMask (r : RegRow) : Nat := r.live ||| r.staged ||| r.frozen

/-- A register with no behaviour of its own stores what is written, corrected. -/
def storeReg (b : Block) (pg : Page) (off : Nat) (r : RegRow) (w : Nat) : Block :=
  rset b (pageB pg + off) (fixWord b pg off w &&& rowMask r)

/-- An admitted write of a 32-bit register: the new block, or the bit of PAGE_ERR with which the unit refuses it and the
block that the refusal leaves. [DEDUCED: log 18] -/
def regWrite (p : Params) (b : Block) (pg : Page) (off : Nat) (r : RegRow) (w : Nat) (med : Option Med) :
    Except Nat Block × Block :=
  let plain := storeReg b pg off r w
  let ok (x : Block) : Except Nat Block × Block := (.ok x, b)
  match causeVec pg off with
  | some v => ok (clearCause b v w)
  | none =>
  match maskVec pg off with
  | some v => ok (setMask b v (w &&& rowMask r))
  | none =>
  if isCount pg off then ok (rset b (pageB pg + off) 0)
  else match pg with
  | .dbell n c => if off = 0x40 then ok (doorbell p b n c (BitVec.ofNat 32 w)) else ok plain
  | .chan n =>
    if off < 0x800 then ok plain
    else
      let c := (off - 0x800) / 0x40
      if (off - 0x800) % 0x40 = 0 then ok (chCtrl p b n c w)
      else if (off - 0x800) % 0x40 = 8 then
        let top := chDepth plain n c * 512
        let full : Bool := chRate b n c = 0 || chRate plain n c = 0
        ok (modChan plain n c (fun x => { x with tokR := if full then top else min x.tokR top
                                                 tokW := if full then top else min x.tokW top }))
      else ok plain
  | .shp n => if off = 0x4C then (histWrite b n w, b) else ok plain
  | .near n =>
    if off = 0x40 then ok (nearStore b n w)
    else if off = 0x4C then
      ok (nearStore (modStn b n (fun st => { st with horizon := max 1 (bits w 9 0) })) n (rget b (nearB n + 0x40)))
    else ok plain
  | .gtal _ | .ltal _ _ => if 0x400 ≤ off then ok (talAddWrite b (talIndex pg ((off - 0x400) / 4)) w) else ok plain
  | .xlat =>
    if off = 0x44 then ok (startWalkers plain)
    else if off < 0x800 then ok plain
    else
      let q := (off - 0x800) / 0x80
      if (off - 0x800) % 0x80 = 0 then ok (xpCtrl p b q w)
      else if (off - 0x800) % 0x80 = 0x24 then ok (fqResolve b q w)
      else ok plain
  | .part q =>
    if off = 0x4C then ok (fcAdvise b q (rget64 b (partB q + 0x40)) (rget b (partB q + 0x48)) (bits w 2 0) true 0 0)
    else ok plain
  | .link => if 0x100 ≤ off ∧ (off - 0x100) % 0x40 = 0 then gopCtrl p b ((off - 0x100) / 0x40) w else ok plain
  | .lport _ | .scnt _ => match cntAt pg off with
    | some (l, i) => if off % 0x10 = 0 then ok (cntCtrl b l i w) else ok plain
    | none => ok plain
  | .vault =>
    if off = 0x48 then (vtCmd p b w med, b)
    else match cntAt pg off with
    | some (l, i) => if off % 0x10 = 0 then ok (cntCtrl b l i w) else ok plain
    | none => ok plain
  | .hcnt =>
    if off = 0x40 then ok (freezeWrite b w)
    else match cntAt pg off with
    | some (l, i) => if off % 0x10 = 0 then ok (cntCtrl b l i w) else ok plain
    | none => ok plain
  | .fc =>
    if off = 0x48 then ok (rclrBits b (fcB + 0x48) (w &&& 1))
    else if off = 0xA0 then ok (popRec b)
    else if 0x400 ≤ off ∧ !srcPresent p ((off - 0x400) / 0x10) then ok b
    else ok plain
  | .pwr =>
    if 0x48 ≤ off ∧ off < 0x60 then
      if grpCount p ≤ (off - 0x48) / 4 then ok b
      else ok (rset b (pwrB + off) ((w &&& 3) + (if bit w 9 then 0 else rget b (pwrB + off) &&& 0x200)))
    else ok plain
  | .mbox =>
    if off = 0x70 then ok (modMgmt plain (fun m => { m with h2mFull := true }))
    else if off = 0xB4 then ok (ackM2h b)
    else ok plain
  | _ => ok plain

/-- An admitted write of a 64-bit pair; `w1c` is the value with which write-1-to-clear bits are judged. -/
def pairWrite (b : Block) (pg : Page) (off : Nat) (lo hi : RegRow) (v w1c : Nat) : Block :=
  match pg with
  | .fc => fcStatusWrite b w1c
  | .gtal _ | .ltal _ _ => talValWrite b (talIndex pg ((off - 0x800) / 8)) v
  | _ => match cntAt pg off with
    | some (l, i) => setCnt b l i { getCnt b l i with value := BitVec.ofNat 48 v }
    | none =>
      let v := fixPair pg off v
      rset (rset b (pageB pg + off) (v &&& rowMask lo)) (pageB pg + off + 4) ((v / 2 ^ 32) &&& rowMask hi)

/-! ## Judging a write (R33 to R38) -/

/-- Whether a write would change bits of a mask of a register, by the value that a read gives. [DEDUCED: log 85] -/
def changes (p : Params) (b : Block) (pg : Page) (off m w : Nat) : Bool := decide ((readReg p b pg off ^^^ w) &&& m ≠ 0)

/-- The register is TAL_VAL of a poisoned tally: a write of it is always accepted (R255). -/
def poisonedVal (b : Block) (pg : Page) (off : Nat) : Bool :=
  match pg with
  | .gtal _ | .ltal _ _ => decide (0x800 ≤ off) && (getTal b (talIndex pg ((off - 0x800) / 8))).poison
  | _ => false

/-- LOCK and FROZEN: the bit of PAGE_ERR with which a write of a register is refused, if it is. [DEDUCED: log 85]
[DEDUCED: log 93] [DEDUCED: log 94] -/
def judge (p : Params) (b : Block) (pg : Page) (l : List (Nat × RegRow × Nat)) : Option Nat :=
  let l := l.filter (fun e => !poisonedVal b pg e.1)
  if rbit b (pageB pg + 8) 3 && l.any (fun e => changes p b pg e.1 (e.2.1.staged ||| e.2.1.frozen) e.2.2) then some eLock
  else if l.any (fun e => changes p b pg e.1 e.2.1.frozen e.2.2 && (frozenActive p b pg e.1 || pageResetting b pg)) then
    some eFrozen
  else none

/-! ## PAGE_CTRL (R28 to R30, R35, R346, R362) -/

/-- Pages whose ENABLE, FENCE and SOFT_RESET are reserved (R30). -/
def pageUnitless (pg : Page) : Bool :=
  match pg with
  | .cfg | .gtal _ | .ltal _ _ | .lowin _ | .liwin _ | .dbell _ _ | .part _ | .mbox => true
  | _ => false

/-- The condition under which a write of 0 to FENCE is accepted (R346): the source is out of service, and a fenced station
has been reset since. [DEDUCED: log 91] -/
def mayRelease (b : Block) (pg : Page) : Bool :=
  decide ((getSrc b (pageSrc pg)).st = .idle) && (match pg with
    | .stn n => (getStn b n).wasReset
    | _ => true)

/-- What a new value of ENABLE does beside being stored. [DEDUCED: log 81] -/
def enableSide (p : Params) (old b : Block) (pg : Page) (on : Bool) : Block :=
  match pg with
  | .chan n => if on then forEach (List.range 32) b (fun b c => pump p b n c) else b
  | .xlat => if on then startWalkers b else b
  | .fc => irqAfter old b 1557
  | .pwr => irqAfter old b 1559
  | .lport i => if on then portOn p b i else portOffReq b i
  | .vault => if on then vaultPowerUp b else vaultSettle b
  | _ => b

/-- What a fence by the driver does (R67, R277, R303, R342, R72, R346). [DEDUCED: log 81] -/
def fenceSide (b : Block) (pg : Page) : Block :=
  match pg with
  | .stn n => if (getStn b n).fenced then b else fenceUnit b (.station n)
  | .xlat => fenceUnit b .xlat
  | .lport i => fenceUnit b (.link i)
  | .vault => fenceUnit b .vault
  | _ => b

/-- What a release does. -/
def releaseSide (p : Params) (b : Block) (pg : Page) : Block :=
  match pg with
  | .stn n => modStn b n (fun st => { st with fenced := false, wasReset := false })
  | .chan n => forEach (List.range 32) b (fun b c => pump p b n c)
  | .xlat => startWalkers b
  | .hub => startWalkers (forEach (List.range p.stations) b (fun b n =>
      forEach (List.range 32) b (fun b c => pump p b n c)))
  | .lport i => modPort b i (fun x => { x with fenced := false })
  | .vault => modVault b (fun v => { v with fenced := false })
  | _ => b

/-- The bit of PAGE_ERR with which a write of PAGE_CTRL is refused, if it is. [DEDUCED: log 89] [DEDUCED: log 90] [DEDUCED: log 139] -/
def ctrlRefused (b : Block) (pg : Page) (w : Nat) : Option Nat :=
  let base := pageB pg
  let fence := pageFence b base
  if pageUnitless pg then none
  else if pg = .fc ∧ bit w 2 then some eRefused
  else if rbit b (base + 8) 3 && (bit w 2 || (bit w 1 != fence && !(decide (pg = .fc) && bit w 1))) then some eLock
  else if pg = .pwr ∧ (bit w 1 ∨ bit w 2) then some eRefused
  else if fence && !bit w 1 && !mayRelease b pg then some eRefused
  else if bit w 2 && !(fence && bit w 1) then some eRefused
  else match pg with
    | .chan n => if bit w 2 ∧ 0 < actChans b n then some eRefused else none
    | .xlat => if bit w 2 && !xlatQuiet b then some eRefused else none
    | _ => none

/-- A write of PAGE_CTRL that is not refused. [DEDUCED: log 90] [DEDUCED: log 99] -/
def ctrlWrite (p : Params) (b : Block) (pg : Page) (w : Nat) : Block :=
  let base := pageB pg
  let old := rget b (base + 8)
  let lock := (old ||| w) &&& 8
  if pageUnitless pg then rset b (base + 8) lock
  else if pg = .fc ∧ bit w 1 then
    srcEvent (rsetBits b (base + 8) 2) { src := srcColl, kind := 0x59, unit := noUnit, addr := 0, detail := BitVec.ofNat 64 (5 * 2 ^ 32) }
  else
    let b0 := b
    let b := rset b (base + 8) ((w &&& 3) + (if bit w 2 then 4 else old &&& 4) + lock)
    let b := if bit w 0 != bit old 0 then enableSide p b0 b pg (bit w 0) else b
    let b := if bit w 1 && !bit old 1 then fenceSide b pg else if !bit w 1 && bit old 1 then releaseSide p b pg else b
    match pg with
    | .stn n => if bit w 2 && !bit old 2 then modStn b n (fun st => { st with resetting := 1 }) else b
    | _ => b

/-! ## Performing an access -/

/-- The address under which a register's code error stands: a pair's low word. -/
def codeAddr (a : Nat) (r : RegRow) : Nat := if r.pair = 2 then a - 4 else a

/-- A read of the register fails its code (R41), or its tally is poisoned (R255). [DEDUCED: log 98] -/
def codeBad (b : Block) (pg : Page) (off : Nat) (r : RegRow) : Bool :=
  b.badRegs.contains (codeAddr (pageB pg + off) r) || (match pg with
    | .gtal _ | .ltal _ _ =>
      decide (0x400 ≤ off) && (getTal b (talIndex pg (if off < 0x800 then (off - 0x400) / 4 else (off - 0x800) / 8))).poison
    | _ => false)

/-- A read whose access latches something first: HAZ_INFO (R243) and FC_REC0 (R354). -/
def readLatch (b : Block) (pg : Page) (off : Nat) : Block :=
  match pg with
  | .ord n =>
    if off = 0x5C then
      let h := hazShown b n
      { b with hazLatch := tput b.hazLatch n (BitVec.ofNat 32 h.1, BitVec.ofNat 64 h.2.1, BitVec.ofNat 64 h.2.2) }
    else b
  | .fc => if off = 0x80 then latchRec b else b
  | _ => b

def setRsh (b : Block) (t : Tab Word) : Block := { b with cfg := { b.cfg with rshadow := t } }
def setWsh (b : Block) (t : Tab Word) : Block := { b with cfg := { b.cfg with wshadow := t } }

/-- A read of a page that admits it (R33, R34). -/
def performRead (p : Params) (b : Block) (x : Access) (pg : Page) : Block :=
  let off := accAddr x % 0x1000
  let a := pageB pg + off
  match pageRow pg off with
  | none => respond b .ok 0
  | some r =>
    if codeBad b pg off r then refuse b x (pageB pg) eParity 0
    else
      let b := readLatch b pg off
      if r.pair = 1 then
        respond (setRsh b (tput b.cfg.rshadow a (BitVec.ofNat 32 (readReg p b pg (off + 4))))) .ok (readReg p b pg off)
      else if r.pair = 2 then
        match tget b.cfg.rshadow (a - 4) with
        | some v => respond (setRsh b (tdel b.cfg.rshadow (a - 4))) .ok v.toNat
        | none => respond b .ok (readReg p b pg off)
      else respond b .ok (readReg p b pg off)

/-- A write that is performed replaces the register's contents and its code (R41). -/
def recode (b : Block) (a : Nat) : Block := { b with badRegs := b.badRegs.filter (· ≠ a) }

/-- A write of a page that admits it (R33 to R38). Where a write breaks several conditions, the first of this order records
it: partial strobes, a reserved offset, a read-only register, PAGE_CTRL's own refusals, LOCK, FROZEN. [DEDUCED: log 92]
[DESIGN CHOICE: log 116] -/
def performWrite (p : Params) (b : Block) (x : Access) (pg : Page) (med : Option Med) : Block :=
  let off := accAddr x % 0x1000
  let a := pageB pg + off
  let w := x.data.toNat
  let no (b : Block) (i : Nat) : Block := refuse b x (pageB pg) i 0
  let ok (b : Block) (r : RegRow) : Block := respond (recode b (codeAddr a r)) .ok 0
  if x.attr.strb = 0 then respond b .ok 0
  else if x.attr.strb ≠ 15 then no b eSize
  else match pageRow pg off with
  | none => no b eRsvd
  | some r =>
    if r.roAll then no b eRo
    else if off = 8 then
      match ctrlRefused b pg w with
      | some i => no b i
      | none => ok (ctrlWrite p b pg w) r
    else if off = 0x10 then ok (rclrBits b a (w &&& 0x103FF)) r
    else if r.pair = 1 then respond (setWsh b (tput b.cfg.wshadow a x.data)) .ok 0
    else if r.pair = 2 then
      match pageRow pg (off - 4) with
      | none => no b eRsvd
      | some rl =>
        let sh := tget b.cfg.wshadow (a - 4)
        let b := setWsh b (tdel b.cfg.wshadow (a - 4))
        let lo := match sh with
          | some v => v.toNat
          | none => readReg p b pg (off - 4)
        let w1c := match sh with
          | some v => v.toNat
          | none => 0
        match judge p b pg [(off - 4, rl, lo), (off, r, w)] with
        | some i => no b i
        | none => ok (pairWrite b pg (off - 4) rl r (lo + w * 2 ^ 32) (w1c + w * 2 ^ 32)) r
    else match judge p b pg [(off, r, w)] with
      | some i => no b i
      | none => match regWrite p b pg off r w med with
        | (.ok b', _) => ok b' r
        | (.error i, b') => no b' i

/-- Writes that dead ball leaves to the driver (R359). [DEDUCED: log 86] -/
def deadWrite (pg : Page) (off : Nat) : Bool :=
  match pg with
  | .mbox => true
  | .fc => off = 0xA0 || off = 0x58
  | _ => false

/-- Answer an access that does not wait; the access class is judged before everything that the page judges. [DEDUCED: log 86]
[DEDUCED: log 87] [DESIGN CHOICE: log 116] -/
def performAcc (p : Params) (b : Block) (x : Access) (med : Option Med) : Block :=
  let b := count b .hub 0x0A 1 none
  match pageAt p (accAddr x) with
  | none => refuseDec b x
  | some pg =>
    let off := accAddr x % 0x1000
    if x.write && isDead b && !deadWrite pg off then refuse b x (pageB pg) eFrozen 0
    else if !admits b x pg then refuse b x (pageB pg) ePriv 0
    else if x.write then performWrite p b x pg med
    else performRead p b x pg

/-! ## Waiting (R29, R36, R37, R376, R388) -/

/-- An access that the always-on domain answers whatever the power states (R36). -/
def aoAccess (pg : Page) (off : Nat) : Bool :=
  match pg with
  | .fc | .pwr | .mbox => true
  | _ => (pageStn pg).isSome && (decide (off = 0) || decide (off = 4) || decide (off = 0xC))

/-- A soft reset in progress holds an access, other than a header read, to the pages it concerns (R29, R72). -/
def resetHolds (b : Block) (x : Access) (pg : Page) : Bool :=
  let owner := match pg with
    | .dbell n _ => some n
    | _ => pageStn pg
  (x.write || decide (0x40 ≤ accAddr x % 0x1000)) && (match owner with
    | some n =>
      decide ((getStn b n).resetting = 2) ||
        (match pg with
         | .dbell _ _ => pageResetting b (.chan n)
         | .stn _ => false
         | _ => pageResetting b pg)
    | none => pageResetting b pg)

/-- What happens to the access at the front. -/
inductive Fate
  | perform   -- answered now
  | wait      -- waits: for a reset, a transition, the hub core, AO ready or hub ready
  | thaw      -- waits, and asks for its station's thaw
  | turnAway  -- dead ball: refused without its page (R37)
  deriving DecidableEq, Repr

/-- What becomes of an access: it is performed, it waits, it thaws a station first, or it is refused (R36, R37, R376).
[DEDUCED: log 87] [DEDUCED: log 103] -/
def accFate (p : Params) (b : Block) (x : Access) : Fate :=
  let off := accAddr x % 0x1000
  match pageAt p (accAddr x) with
  | none =>
    if b.pwr.boot ≠ .hubReady then .wait else if b.pwr.hubOn ∨ isDead b then .perform else .wait
  | some pg =>
    let ao := match pg with
      | .fc | .pwr | .mbox => true
      | _ => false
    if b.pwr.boot = .reset ∨ (b.pwr.boot ≠ .hubReady ∧ !ao) then .wait
    else if resetHolds b x pg then .wait
    else if aoAccess pg off then .perform
    else if !b.pwr.hubOn then (if isDead b then .turnAway else .wait)
    else match pageStn pg with
    | none => .perform
    | some n => match (getStn b n).power with
      | .active => .perform
      | .lull => if isDead b then .perform else .thaw
      | .off => if isDead b then .turnAway else .thaw
      | _ => if isDead b then .wait else .thaw

/-- Meet the front access: answer it, or ask for what it waits for; true where it is answered. [DEDUCED: log 88]
[DEDUCED: log 100] -/
def meetAcc (p : Params) (b : Block) (x : Access) (med : Option Med) : Bool × Block :=
  match accFate p b x with
  | .perform => (true, performAcc p b x med)
  | .turnAway => (true, refuse (count b .hub 0x0A 1 none) x cfgB eRefused 3)
  | .wait => (false, b)
  | .thaw => (false, match accStn x with
    | some n => reqThaw b n
    | none => b)

/-- Answer the accesses that wait, in order, as far as they can be answered. -/
def cfgPumpN (p : Params) : Nat → Block → Block
  | 0, b => b
  | f + 1, b => match b.cfg.held with
    | [] => b
    | x :: t => match meetAcc p b x none with
      | (true, b') => cfgPumpN p f { b' with cfg := { b'.cfg with
          held := t, rsps := b'.cfg.rsps ++ [(b'.cfg.resp, b'.cfg.rdata)] } }
      | (false, b') => b'

/-- Answers the accesses held, oldest first, up to the first that must go on waiting; each response goes out in that order
(R36). [DEDUCED: log 88] -/
def cfgPump (p : Params) (b : Block) : Block :=
  if b.cfg.held = [] then b else cfgPumpN p b.cfg.held.length { b with cfg := { b.cfg with rsps := [] } }

/-- After a change that enters dead ball no access waits for a thaw any more: those held are met again (R37). -/
def deadPump (p : Params) (old b : Block) : Block := if isDead b && !isDead old then cfgPump p b else b

/-- One access of the configuration port: answered at once, or held behind those that wait. -/
def cfgAccess (p : Params) (b : Block) (x : Access) (med : Option Med) : Block :=
  let hold (b : Block) : Block := { b with cfg := { b.cfg with held := b.cfg.held ++ [x] } }
  if b.cfg.held ≠ [] then hold b
  else match meetAcc p b x med with
    | (true, b') => b'
    | (false, b') => hold b'

/-- A write, and a read, at a window address. -/
def cfgWrite (p : Params) (b : Block) (addr w : Nat) (a : Attr) : Block :=
  cfgAccess p b { addr := BitVec.ofNat 24 addr, write := true, data := BitVec.ofNat 32 w, attr := a } none

def cfgRead (p : Params) (b : Block) (addr : Nat) (a : Attr) : Block :=
  cfgAccess p b { addr := BitVec.ofNat 24 addr, write := false, data := 0, attr := a } none

end Sys2Proof.Machine
end

