-- ==== Sys2Proof/Machine/Control.lean ====
section
/-! DEFINITION. The commands that are accesses of the configuration port, each at its register's window address, soft
resets (R29, R72), code errors (R41), and what lets held accesses go on. -/
namespace Sys2Proof.Machine

/-- An existing station number and channel number, as the window has room for them. -/
def okStn (n : Nat) : Bool := n < 48
def okChan (n c : Nat) : Bool := n < 48 && c < 32

/-- A write at an address, where the operands name one. -/
def writeIf (ok : Bool) (addr w : Nat) (a : Attr) (s : State) : Host.Outcome State Fault Refusal :=
  effect (fun p b => if ok then cfgWrite p b addr w a else b) s

def readIf (ok : Bool) (addr : Nat) (a : Attr) (s : State) : Host.Outcome State Fault Refusal :=
  effect (fun p b => if ok then cfgRead p b addr a else b) s

/-- The base of the page that an address lies in. -/
def baseOf (a : BitVec 24) : Nat := a.toNat / 0x1000 * 0x1000

/-- A write of PAGE_CTRL that keeps the bits of mask m at their values and sets those of v. [DEDUCED: log 102] -/
def ctrlCmd (base m v : Nat) (a : Attr) (s : State) : Host.Outcome State Fault Refusal :=
  effect (fun p b => cfgWrite p b (base + 8) ((rget b (base + 8) &&& m) ||| v) a) s

/-! ## Channels -/

/-- DOORBELL_WRITE (R46): A write of DB_TAIL is checked against tail and done and stored or rejected. -/
def execDoorbellWrite (n c : Nat) (t : Word) (a : Attr) (s : State) : Host.Outcome State Fault Refusal :=
  writeIf (okChan n c) (dbellB n c + 0x40) t.toNat a s

/-- CHANNEL_ENABLE (R69): Writing CH_CTRL.ENABLE from 0 to 1 checks the configuration and enters IDLE or RUNNING.
[DEDUCED: log 102] -/
def execChannelEnable (n c : Nat) (w : Word) (a : Attr) (s : State) : Host.Outcome State Fault Refusal :=
  writeIf (okChan n c) (chR n c 0) (w.toNat ||| 1) a s

/-- CHANNEL_DISABLE (R69): Clearing ENABLE cancels every not-started entry with its completion actions and sets done and
head to tail. -/
def execChannelDisable (n c : Nat) (w : Word) (a : Attr) (s : State) : Host.Outcome State Fault Refusal :=
  writeIf (okChan n c) (chR n c 0) (clearBits w.toNat 1) a s

/-- RESUME (R65): A write of 1 to RESUME returns a STOPPED channel to IDLE or RUNNING. -/
def execResume (n c : Nat) (w : Word) (a : Attr) (s : State) : Host.Outcome State Fault Refusal :=
  writeIf (okChan n c) (chR n c 0) (w.toNat ||| 2) a s

/-- INTERRUPT_CAUSE_CLEAR (R64): A write-1-to-clear of an interrupt cause register, which re-sends the message if the
masked value stays non-zero. -/
def execInterruptCauseClear (addr : BitVec 24) (w : Word) (a : Attr) (s : State) : Host.Outcome State Fault Refusal :=
  effect (fun p b => cfgWrite p b addr.toNat w.toNat a) s

/-! ## Tallies -/

/-- Window address of a tally's TAL_ADD and TAL_VAL registers (R257). -/
def talAddAt (t : Nat) : Nat := talPage t + 0x400 + 4 * (t % 256)
def talValAt (t : Nat) : Nat := talPage t + 0x800 + 8 * (t % 256)

/-- TAL_ADD (R247): A configuration write adds its value to a tally as a release. -/
def execTalAdd (t : Nat) (w : Word) (a : Attr) (s : State) : Host.Outcome State Fault Refusal :=
  writeIf (t < 32768) (talAddAt t) w.toNat a s

/-- Both halves of the pair are written, the low one first (R34). -/
def execTalVal (t : Nat) (v : DWord) (a : Attr) (s : State) : Host.Outcome State Fault Refusal :=
  effect (fun p b =>
    if t < 32768 then cfgWrite p (cfgWrite p b (talValAt t) (lo32 v.toNat) a) (talValAt t + 4) (hi32 v.toNat) a else b) s

/-! ## Range translation -/

/-- FAULT_RESOLVE (R272): A write of XP_FQ_CONS resolves records and frees their slots. -/
def execFaultResolve (p : Nat) (c : Word) (a : Attr) (s : State) : Host.Outcome State Fault Refusal :=
  writeIf (p < 16) (xpR p 0x24) c.toNat a s

/-- COMMIT (R267): A write of COMMIT without REVOKE latches the table fields and requests a non-revoking commit. -/
def execCommit (p : Nat) (w : Word) (a : Attr) (s : State) : Host.Outcome State Fault Refusal :=
  writeIf (p < 16) (xpR p 0) (clearBits (w.toNat ||| 2) 4) a s

/-- REVOKING_COMMIT (R268): A write of COMMIT with REVOKE requests a commit that withdraws all earlier translations. -/
def execRevokingCommit (p : Nat) (w : Word) (a : Attr) (s : State) : Host.Outcome State Fault Refusal :=
  writeIf (p < 16) (xpR p 0) (w.toNat ||| 6) a s

/-- XLAT_DISABLE (R278): Clearing XP_CTRL.ENABLE marks translations stale and makes attached requesters offside. -/
def execXlatDisable (p : Nat) (w : Word) (a : Attr) (s : State) : Host.Outcome State Fault Refusal :=
  writeIf (p < 16) (xpR p 0) (clearBits w.toNat 1) a s

/-- PADV_POST (R280): A host write posts one forecast record or drops and counts it. -/
def execPadvPost (p : Nat) (w : Word) (a : Attr) (s : State) : Host.Outcome State Fault Refusal :=
  writeIf (p < 16) (partB p + 0x4C) w.toNat a s

/-! ## Links -/

/-- PORT_ENABLE (R301): Setting an LPORT page's ENABLE moves the port from OFF to TRAIN. -/
def execPortEnable (p : Nat) (a : Attr) (s : State) : Host.Outcome State Fault Refusal :=
  effect (fun q b => if p < 4 then cfgWrite q b (lportB p + 8) ((rget b (lportB p + 8) &&& 2) ||| 1) a else b) s

/-- PORT_DISABLE (R302): Clearing ENABLE stops new packets and sends those already buffered. -/
def execPortDisable (p : Nat) (a : Attr) (s : State) : Host.Outcome State Fault Refusal :=
  effect (fun q b => if p < 4 then cfgWrite q b (lportB p + 8) (rget b (lportB p + 8) &&& 2) a else b) s

/-- GOP_ENABLE (R308): A write of EN to a global-operation slot checks its tallies and arms or refuses the slot. -/
def execGopEnable (s : Nat) (w : Word) (a : Attr) (st : State) : Host.Outcome State Fault Refusal :=
  writeIf (s < 8) (gopR s 0) w.toNat a st

/-! ## Vault commands -/

/-- A write of VT_CMD with what the medium answers. -/
def vtCmdAcc (p : Params) (b : Block) (op obj : Nat) (m : Med) (a : Attr) : Block :=
  cfgAccess p b { addr := BitVec.ofNat 24 (vaultB + 0x48), write := true, data := BitVec.ofNat 32 (op + obj % 4096 * 2 ^ 8),
                  attr := a } (some m)

/-- CREATE (R324): Vault command that reserves segments for a new OPEN object. -/
def execCreate (obj : Nat) (a : Attr) (s : State) : Host.Outcome State Fault Refusal :=
  effect (fun p b => vtCmdAcc p b 1 obj { headers := [], geometryOk := true, bad := [] } a) s

/-- CLOSE (R324): Vault command that pads and programs an OPEN object and makes it READY. -/
def execClose (obj : Nat) (headers : List DWord) (a : Attr) (s : State) : Host.Outcome State Fault Refusal :=
  effect (fun p b => vtCmdAcc p b 2 obj { headers := headers, geometryOk := true, bad := [] } a) s

/-- DELETE (R324): Vault command that refuses new MOVEs to an object and frees it once drained. -/
def execDelete (obj : Nat) (a : Attr) (s : State) : Host.Outcome State Fault Refusal :=
  effect (fun p b => vtCmdAcc p b 3 obj { headers := [], geometryOk := true, bad := [] } a) s

/-- FORMAT (R324): Vault command that erases every block, reads bad-block marks and deletes every object. -/
def execFormat (geometryOk : Bool) (bad : List (Nat × Nat)) (a : Attr) (s : State) : Host.Outcome State Fault Refusal :=
  effect (fun p b => vtCmdAcc p b 4 0 { headers := [], geometryOk := geometryOk, bad := bad } a) s

/-! ## Referee -/

/-- Both halves of FC_STATUS are written, the low one first. -/
def execFcStatusClear (w : DWord) (a : Attr) (s : State) : Host.Outcome State Fault Refusal :=
  effect (fun p b => cfgWrite p (cfgWrite p b (fcB + 0x40) (lo32 w.toNat) a) (fcB + 0x44) (hi32 w.toNat) a) s

/-- FC_POP (R354): A write of FC_POP removes the oldest referee record. -/
def execFcPop (w : Word) (a : Attr) (s : State) : Host.Outcome State Fault Refusal :=
  writeIf true (fcB + 0xA0) w.toNat a s

/-- FC_REC_LATCH (R354): A read of FC_REC0 latches the oldest record into the FC_REC words. -/
def execFcRecLatch (a : Attr) (s : State) : Host.Outcome State Fault Refusal := readIf true (fcB + 0x80) a s

/-- DRIVER_DB (R365): A write of 1 to the FC page's FENCE enters dead ball. -/
def execDriverDb (a : Attr) (s : State) : Host.Outcome State Fault Refusal := ctrlCmd fcB 1 2 a s

/-! ## Pages -/

/-- SOFT_RESET (R29): A write of 1 to SOFT_RESET is accepted only while the unit is fenced. -/
def execSoftReset (page : BitVec 24) (a : Attr) (s : State) : Host.Outcome State Fault Refusal := ctrlCmd (baseOf page) 3 4 a s

/-- FENCE_SET (R67): A driver write of 1 to a page's FENCE stops the unit, as R67 states for a station. -/
def execFenceSet (page : BitVec 24) (a : Attr) (s : State) : Host.Outcome State Fault Refusal := ctrlCmd (baseOf page) 1 2 a s

/-- FENCE_CLEAR (R362): A write of 0 to FENCE is accepted only under the release condition of R346. -/
def execFenceClear (page : BitVec 24) (a : Attr) (s : State) : Host.Outcome State Fault Refusal := ctrlCmd (baseOf page) 1 0 a s

/-- LOCK (R35): A write of 1 to PAGE_CTRL.LOCK locks the page's STAGED and FROZEN fields. -/
def execLock (page : BitVec 24) (a : Attr) (s : State) : Host.Outcome State Fault Refusal := ctrlCmd (baseOf page) 3 8 a s

/-- PAGE_ERR_CLEAR (R40): A write-1-to-clear of PAGE_ERR that leaves it 0 re-arms capture. -/
def execPageErrClear (page : BitVec 24) (w : Word) (a : Attr) (s : State) : Host.Outcome State Fault Refusal :=
  writeIf true (baseOf page + 0x10) w.toNat a s

/-- REGISTER_WRITE (R38): A configuration write to a register without behaviour of its own, judged under access class,
lock and update class. -/
def execRegisterWrite (addr : BitVec 24) (w : Word) (a : Attr) (s : State) : Host.Outcome State Fault Refusal :=
  writeIf true addr.toNat w.toNat a s

/-- WIDE_READ_LATCH (R34): A read of the low word of a 64-bit register copies the high word into the read shadow. -/
def execWideReadLatch (addr : BitVec 24) (a : Attr) (s : State) : Host.Outcome State Fault Refusal :=
  readIf true addr.toNat a s

/-- WIDE_WRITE_SHADOW (R34): A write of the low word of a 64-bit register goes to the write shadow. -/
def execWideWriteShadow (addr : BitVec 24) (w : Word) (a : Attr) (s : State) : Host.Outcome State Fault Refusal :=
  effect (fun p b => cfgWrite p b addr.toNat w.toNat a) s

/-- HAZ_INFO_LATCH (R243): A read of HAZ_INFO latches the selected hazard entry. -/
def execHazInfoLatch (n : Nat) (a : Attr) (s : State) : Host.Outcome State Fault Refusal :=
  readIf (okStn n) (ordB n + 0x5C) a s

/-- An access of any kind as it arrives at the port: answered, or held for a thaw (R36, R37). -/
def execConfigAccessThaw (acc : Access) (s : State) : Host.Outcome State Fault Refusal :=
  effect (fun p b => cfgAccess p b acc none) s

/-- STATION_WAKE (R74): A write of 1 to STN_CTRL.WAKE thaws the station and keeps it from lull. [DEDUCED: log 103] -/
def execStationWake (n : Nat) (a : Attr) (s : State) : Host.Outcome State Fault Refusal :=
  writeIf (okStn n) (stnB n + 0x40) 1 a s

/-- M2H_ACK (R377): A host write of MB_M2H_ACK frees M2H for the next reply or notice. -/
def execM2hAck (a : Attr) (s : State) : Host.Outcome State Fault Refusal := writeIf true (mboxB + 0xB4) 0 a s

/-- COUNTER_FREEZE (R399): A write of CNT_FREEZE = 1 freezes every counter at T_f. -/
def execCounterFreeze (a : Attr) (s : State) : Host.Outcome State Fault Refusal := writeIf true (hcntB + 0x40) 1 a s

/-- COUNTER_RELEASE (R399): A write of CNT_FREEZE = 0 releases the counters. -/
def execCounterRelease (a : Attr) (s : State) : Host.Outcome State Fault Refusal := writeIf true (hcntB + 0x40) 0 a s

/-! ## Code errors (R41, R255) -/

/-- A code error in a register's storage: a tally's own value is poisoned by TALLY_POISON instead. [DEDUCED: log 98] -/
def codeError (p : Params) (b : Block) (addr : Nat) : Block :=
  let off := addr % 0x1000
  match pageAt p addr with
  | none => b
  | some pg => match pageRow pg off with
    | none => b
    | some r =>
      let a := codeAddr (pageB pg + off) r
      let tal := match pg with
        | .gtal _ | .ltal _ _ => decide (0x400 ≤ off)
        | _ => false
      if tal then b
      else
        let b := recode b a
        let b := pageErr { b with badRegs := b.badRegs ++ [a] } (pageB pg) eParity a 0
        if pg = .fc then
          srcEvent b { src := srcColl, kind := 0x58, unit := noUnit, addr := BitVec.ofNat 64 a, detail := BitVec.ofNat 64 (5 * 2 ^ 32) }
        else signalEv b (pageSrc pg) 0x44 noUnit a (5 * 2 ^ 32)

/-- An error that was corrected is counted in the counter that the unit of the page has for it, and has no other effect (R74,
R198, R255, R277, R287, R316). [DEDUCED: log 113] -/
def codeCorrected (p : Params) (b : Block) (addr : Nat) : Block :=
  match pageAt p addr with
  | some (.stn n) => rcount b (stnB n + 0x50) 1
  | some (.near n) => nearCorrected b n 1
  | some (.gtal q) => rcount b (pageB (.gtal q) + 0x48) 1
  | some (.ltal n q) => rcount b (pageB (.ltal n q) + 0x48) 1
  | some .xlat => rcount b (xlatB + 0x48) 1
  | some .link => rcount b (linkB + 0x58) 1
  | some (.lport i) => rcount b (pageB (.lport i) + 0x5C) 1
  | _ => b

/-- REGISTER_CODE_ERROR (R41): A code error in register storage sets PARITY and raises a fault of the page's source. One that
the unit's code corrects is counted. -/
def execRegisterCodeError (addr : BitVec 24) (corrected : Bool) (s : State) : Host.Outcome State Fault Refusal :=
  effect (fun p b =>
    let a := addr.toNat / 4 * 4
    if b.pwr.boot = .reset then b else if corrected then codeCorrected p b a else deadPump p b (codeError p b a)) s

/-! ## Soft resets (R29, R67, R72, R167, R278, R342) -/

/-- The registers of pages return to their reset values; LOCK, FENCE, PAGE_ERR and its capture stay. The shadows of their
pairs are emptied. [DESIGN CHOICE: log 117] -/
def wipe (b : Block) (pages : Nat → Bool) : Block :=
  let keep (a : Nat) : Bool :=
    let o := a % 0x1000
    !pages (a / 0x1000) || decide (o = 0x10) || decide (o = 0x18) || decide (o = 0x1C) || decide (o = 0x20)
  let ctrl := (b.regs.filter (fun e => pages (e.1 / 0x1000) && decide (e.1 % 0x1000 = 8))).map (fun (e : Nat × Word) =>
    (e.1, e.2 &&& 0xA))
  let b := { b with regs := b.regs.filter (fun e => keep e.1), badRegs := b.badRegs.filter keep }
  let b := setRsh (setWsh b (b.cfg.wshadow.filter (fun e => keep e.1))) (b.cfg.rshadow.filter (fun e => keep e.1))
  forEach ctrl b (fun b e => rset b e.1 e.2.toNat)

/-- The window page numbers of a station's pages, its doorbells among them. -/
def stnPages (n pn : Nat) : Bool :=
  (decide (0x100 + 16 * n ≤ pn) && decide (pn < 0x100 + 16 * n + 11)) ||
    (decide (0x400 + 32 * n ≤ pn) && decide (pn < 0x400 + 32 * n + 32))

def onePage (base pn : Nat) : Bool := decide (pn = base / 0x1000)

/-- The pages that a page's soft reset covers beside its own: those without a unit of their own whose contents its unit owns
(R30). The tallies of the GTAL pages keep their state (R246). [DEDUCED: log 118] -/
def ownedPages (pg : Page) (pn : Nat) : Bool :=
  match pg with
  | .hub => pn = 1 || (0x10 ≤ pn && pn < 0x30)
  | .xlat => 0xC00 ≤ pn && pn < 0xC10
  | .link => (0xA10 ≤ pn && pn < 0xA18) || (0xA20 ≤ pn && pn < 0xA28)
  | _ => false

/-- Counters of a location return to reset. -/
def wipeCnts (b : Block) (l : CntLoc) : Block :=
  { b with counters := b.counters.filter (fun e => decide (e.1 < cntKey l 0) || decide (cntKey l 0 + cntNum l ≤ e.1)) }

/-- An access of an operation, not of the inbound link agent. -/
def opAgent : Agent → Bool
  | .op .. => true
  | .link .. => false

/-- The reset of a whole station. The far-port reads that its fence has left outstanding hold no tag of STN_INFO any more;
their responses are discarded and counted (R67, R74). [DEDUCED: log 101] -/
def stnReset (b : Block) (n : Nat) : Block :=
  let b := wipeCnts (wipe b (stnPages n)) (.station n)
  let b := detachReq b (reqOfStrand n none)
  let b := detachReq b (fun r => match r with
    | .chan n' _ => decide (n' = n)
    | _ => false)
  let t0 := 8192 + 512 * n
  let b := { b with
    chans := b.chans.filter (fun e => decide (e.1 / 32 ≠ n))
    strands := b.strands.filter (fun e => decide (e.1 / 256 ≠ n))
    tallies := b.tallies.map (fun (e : Nat × Tally) =>
      (e.1, if t0 ≤ e.1 ∧ e.1 < t0 + 512 then Tally.reset else e.2))
    hazLatch := tdel b.hazLatch n }
  let st := getStn b n
  setStn b n { Station.reset with
    power := st.power, rdTags := st.rdTags.filter (fun e => !opAgent e.2.agent)
    oldRd := st.oldRd ++ st.rdTags.filter (fun e => opAgent e.2.agent), oldPf := st.oldPf ++ st.pfOut
    wRdTags := st.wRdTags, vRdTags := st.vRdTags, wrTags := st.wrTags, wWrTags := st.wWrTags
    vWrTags := st.vWrTags, nearRd := st.nearRd, nearWr := st.nearWr, fenced := true, wasReset := true
    halted := st.halted, wakeReq := st.wakeReq }

/-- A reset of the CHAN page alone: its channels and their doorbells (R72). -/
def chanReset (b : Block) (n : Nat) : Block :=
  let b := wipe b (fun pn => onePage (chanB n) pn || (decide (0x400 + 32 * n ≤ pn) && decide (pn < 0x400 + 32 * n + 32)))
  { b with chans := b.chans.filter (fun e => decide (e.1 / 32 ≠ n)) }

/-- A reset of a STRD page: its strands hold nothing, and what they held elsewhere goes. [DEDUCED: log 101] -/
def strdReset (b : Block) (n s : Nat) : Block :=
  let mine := (stnStrands b n).filter (fun e => decide (e.1 / 128 = s))
  let b := forEach mine b (fun b e =>
    let b := detachReq b (reqOfStrand n (some e.1))
    let b := dropWaiters b n e.1
    modStn b n (fun st => pfOrphan (e.2.ops.foldl (fun st o => freeRes st e.1 o.id)
      { st with haz := st.haz.filter (fun h => decide (h.strand ≠ e.1) || h.landing), tloads := st.tloads.filter (fun x => x.2.1 ≠ e.1)
                dcache := dcacheDrop st.dcache e.1 }) e.1))
  { b with strands := b.strands.filter (fun e => decide (e.1 / 128 ≠ 2 * n + s)) }

/-- An operation whose unit is reset under it issues nothing more: its state and what it holds go (R166, R193).
[DEDUCED: log 134] -/
def discardOp (b : Block) (n k id : Nat) : Block :=
  relHaz (detachReq (opRemove b n k id) (fun r => match r with
    | .op n' k' id' _ => n' = n && k' = k && id' = id
    | _ => false)) n

/-- A MOVE that waits for a context gives up its binding, and binds again. -/
def unbind (o : Op) : Op := { o with phase := .bind, mv := o.mv.map (fun m => { m with bound := [] }) }

/-- What a page's soft reset returns to its reset value beside the page's registers. -/
def unitReset (p : Params) (b : Block) (pg : Page) : Block :=
  let b := if pg = .xlat then xlatReset p b else b
  let b := wipe b (fun pn => onePage (pageB pg) pn || ownedPages pg pn)
  match pg with
  | .stn n => stnReset b n
  | .chan n => chanReset b n
  | .strd n s => strdReset b n s
  | .shp n =>
    let b := forEach (getStn b n).ctx b (fun b x => discardOp b n x.1 x.2)
    let b := modStn b n (fun st => { st with hist := [], ctx := [], rowBuf := none, smooth := none, colAcc := none })
    { b with strands := b.strands.map (fun (e : Nat × Strand) =>
        (e.1, if e.1 / 256 = n then { e.2 with stats := Stats.reset } else e.2)) }
  | .codec n =>
    let b := forEach ((getStn b n).decCtx ++ (getStn b n).encCtx) b (fun b x => discardOp b n x.1 x.2)
    let b := forEach ((stnOps b n).filter (fun e => e.2.kind = .tload)) b (fun b e =>
      discardOp (modStrand b n e.1 (fun s => { s with blocked := .no })) n e.1 e.2.id)
    let b := forEach ((stnOps b n).filter (fun e => holdsBinding e.2)) b (fun b e => modOp b n e.1 e.2.id unbind)
    modStn b n (fun st => { st with slots := List.replicate 4 CSlot.reset, tloads := [], decCtx := [], encCtx := [] })
  | .near n => modStn b n (fun st => { st with horizon := 64, staged := [], lockOff := false })
  | .ord n => { modStn b n (fun st => { st with haz := [] }) with hazLatch := tdel b.hazLatch n }
  | .scnt n => wipeCnts b (.station n)
  | .hcnt => { wipeCnts b .hub with frzTime := 0 }
  | .link =>
    let b := forEach (List.range 8) b gopUnwait
    { b with gops := [], linkReset := false, colour := false }
  | .lport i =>
    let b := freeOut b (getPort b i).outQ
    wipeCnts (setPort b i { Port.reset with fenced := true }) (.port i)
  | .vault => wipeCnts (vaultReset b) .vault
  | _ => b

/-- A station's reset begins once every write it departed has landed or failed and no barrier is pending. -/
def resetBegin (b : Block) (n : Nat) : Block :=
  let st := getStn b n
  if st.resetting = 1 ∧ st.haz = [] ∧ liveWr st.wrTags = [] ∧ liveWr st.wWrTags = [] ∧ liveWr st.vWrTags = [] ∧ st.nearWr = [] ∧
      st.barReq = [] ∧ st.barriers = [] then
    setStn b n { st with resetting := 2 }
  else b

/-- SOFT_RESET_BEGIN (R29): After a station's writes and landing records drain, the reset begins. -/
def execSoftResetBegin (n : Nat) (s : State) : Host.Outcome State Fault Refusal := effect (fun _ b => resetBegin b n) s

/-- A soft reset in progress completes, and the accesses it held are answered. -/
def resetDone (p : Params) (b : Block) (addr : Nat) : Block :=
  match pageAt p addr with
  | none => b
  | some pg =>
    let begun := match pg with
      | .stn n => decide ((getStn b n).resetting = 2)
      | _ => pageResetting b pg
    if begun then cfgPump p (unitReset p b pg) else b

/-- SOFT_RESET_DONE (R29): The soft reset completes, returning fields to reset values apart from the kept ones. -/
def execSoftResetDone (page : BitVec 24) (s : State) : Host.Outcome State Fault Refusal :=
  effect (fun p b => resetDone p b page.toNat) s

/-! ## Events that may enter dead ball: the accesses that waited for a thaw go on (R37) -/

/-- SOURCE_EVENT (R347): A source event reaches the referee, sets its FC_STATUS bit, is counted and may escalate.
[DEDUCED: log 30] -/
def execSourceEvent (src : Nat) (ext : Option ExtEvent) (s : State) : Host.Outcome State Fault Refusal :=
  effect (fun p b =>
    if b.pwr.boot ≠ .reset ∧ srcPresent p src then
      deadPump p b (sample (match ext with
        | some x => extPin b src x
        | none => b) src)
    else b) s

/-- A fence has not completed in time: an event of the source, CRITICAL (R351). No timer runs in dead ball. [DEDUCED: log 69] -/
def execFenceTimeout (src : Nat) (s : State) : Host.Outcome State Fault Refusal :=
  effect (fun p b =>
    if (getSrc b src).fencing ∧ !isDead b then
      deadPump p b (srcEvent b { src := src, kind := 0x56, unit := noUnit, addr := 0, detail := BitVec.ofNat 64 (3 * 2 ^ 32) })
    else b) s

/-- AO_REFCLK is lost: dead ball on the internal oscillator, as a critical trip of the sensors (R369). [DEDUCED: log 70] -/
def execAoRefclkLoss (s : State) : Host.Outcome State Fault Refusal :=
  effect (fun p b =>
    if b.pwr.boot = .reset then b
    else
      deadPump p b (srcEvent (modRef b (fun r => { r with oscillator := true }))
        { src := srcSense, kind := 0x54, unit := noUnit, addr := 0, detail := BitVec.ofNat 64 (5 * 2 ^ 32) })) s

/-! ## Power: transitions that let accesses go on -/

/-- TRANSITION_DONE (R371): A station's entry into lull or off completes. -/
def execTransitionDone (n : Nat) (s : State) : Host.Outcome State Fault Refusal :=
  effect (fun p b => if n < p.stations then cfgPump p (transDone p b n) else b) s

/-- THAW_DONE (R372): A station's thaw completes and it becomes active. -/
def execThawDone (n : Nat) (s : State) : Host.Outcome State Fault Refusal :=
  effect (fun p b => if n < p.stations then cfgPump p (thawEnd b n) else b) s

/-- HUB_POWER_UP_DONE (R376): The hub core finishes powering up within 20 µs, and the held access or interrupt message
proceeds. -/
def execHubPowerUpDone (s : State) : Host.Outcome State Fault Refusal :=
  effect (fun p b =>
    if b.pwr.hubGoingUp then cfgPump p (modPwr b (fun w => { w with hubOn := true, hubGoingUp := false })) else b) s

/-! ## Window boundaries of counters (R392, R396, R399) -/

/-- A counter in WINDOW mode copies its accumulator; the staged window length latches. [DEDUCED: log 97] -/
def windowEnd (b : Block) (l : CntLoc) (i : Nat) : Block :=
  let x := getCnt b l i
  let a := cntAddr l i
  if rbit b a 9 ∧ !cntHeld b l ∧ b.aoTime % (50 * x.win) = 0 then
    setCnt b l i { value := x.acc, acc := 0, wcount := x.wcount + 1, win := rbits b (a + 4) 19 0 }
  else b

/-- Whether a counter of the location is in the configuration. -/
def cntPresent (p : Params) (l : CntLoc) : Bool :=
  match l with
  | .station n => n < p.stations
  | .hub => true
  | .port i => i < p.linkPorts
  | .vault => 0 < p.vaultCh

/-- WINDOW_BOUNDARY (R396): At a window boundary a WINDOW-mode counter copies its accumulator and increments WCOUNT. -/
def execWindowBoundary (loc : CntLoc) (i : Nat) (s : State) : Host.Outcome State Fault Refusal :=
  effect (fun p b => if cntPresent p loc ∧ i < cntNum loc then windowEnd b loc i else b) s

end Sys2Proof.Machine
end

