-- ==== Sys2Proof/Machine/Resets.lean ====
section
/-! DEFINITION. Resets and start-up (R387, R388) and the test wrapper (R437, R438). -/
namespace Sys2Proof.Machine

/-- What both resets keep beside what each row names: the vault's log and image areas, which are on the medium, and the model's own
counters of unique numbers and free values. [DEDUCED: log 104] -/
def freshBlock (b : Block) : Block :=
  { Block.reset with
    vault := { Vault.reset with logLo := b.vault.logLo, logHi := b.vault.logHi }
    mgmt := { Mgmt.reset with imgArea := b.mgmt.imgArea, logArea := b.mgmt.logArea }
    nextId := b.nextId, fresh := b.fresh }

/-- Power-on reset: everything, the log ring, its SEQ and the boot count included; the key hash is sampled anew.
[DEDUCED: log 104] [DEDUCED: log 106] -/
def powerOn (b : Block) (key : BitVec 384) : Block :=
  let x := freshBlock b
  { x with vault := Vault.reset, pwr := { Pwr.reset with key := key } }

/-- POWER_ON_RESET (R387): Assertion of AO_POR_N resets everything including the log ring and key hash sample. -/
def execPowerOnReset (key : BitVec 384) (s : State) : Host.Outcome State Fault Refusal :=
  .next { s with b := powerOn s.b key, tap := { s.tap with instr := 0 } }

/-- Full reset: everything but the log ring, its SEQ, the boot count and the key hash; time since power-on goes on.
[DEDUCED: log 105] -/
def fullReset (b : Block) : Block :=
  let x := freshBlock b
  { x with
    pwr := { Pwr.reset with key := b.pwr.key }
    mgmt := { x.mgmt with log := b.mgmt.log, logSeq := b.mgmt.logSeq, logCopied := b.mgmt.logCopied, boots := b.mgmt.boots + 1
                          reason := 1 }
    ponTime := b.ponTime }

/-- RESET_N falls: the wrapper holds WS_BYPASS again (R438). -/
def execFullReset (s : State) : Host.Outcome State Fault Refusal :=
  .next { s with b := fullReset s.b, tap := { instr := 0, resetN := false } }

/-- A wrapper instruction of R437 that takes Bunar out of operation until a full reset. -/
def wrapTest (code : Nat) : Bool := decide (1 ≤ code) && decide (code ≤ 4)

/-- AO ready: RESET_N is released, and the pages of the always-on domain answer. -/
def aoReady (p : Params) (b : Block) : Block := cfgPump p (modPwr b (fun w => { w with boot := .aoReady }))

/-- AO_READY (R388): The always-on domain becomes ready and the hub rail is requested. [DEDUCED: log 106] -/
def execAoReady (s : State) : Host.Outcome State Fault Refusal :=
  if s.b.pwr.boot = .reset ∧ !wrapTest s.tap.instr then
    .next { s with b := aoReady s.par s.b, tap := { s.tap with resetN := true } }
  else .next s

/-- Hub ready: every page answers, and the management processor leaves reset into the ROM. -/
def execHubReady (s : State) : Host.Outcome State Fault Refusal :=
  effect (fun p b =>
    if b.pwr.boot = .aoReady then
      let b := modPwr b (fun w => { w with boot := .hubReady, hubOn := true })
      let b := modMgmt b (fun m => if m.st = .reset then { m with st := .rom, wdog := true, wdogMs := 1000 } else m)
      cfgPump p b
    else b) s

/-- The instruction that a loaded code becomes: 0x01 to 0x04 only while RESET_N is 0; a code not listed acts as bypass.
[DESIGN CHOICE: log 109] -/
def wrapCode (resetN : Bool) (code : Nat) : Nat :=
  if code = 5 then 5 else if wrapTest code && !resetN then code else 0

/-- WRAPPER_INSTRUCTION_LOAD (R438): An instruction loaded into the IEEE 1500 wrapper instruction register takes effect,
or acts as WS_BYPASS while RESET_N is 1. -/
def execWrapperInstructionLoad (code : BitVec 8) (s : State) : Host.Outcome State Fault Refusal :=
  .next { s with tap := { s.tap with instr := wrapCode s.tap.resetN code.toNat } }

/-- The register that WS_ID puts between WSI and WSO. [DESIGN CHOICE: log 109] -/
def wsId : Nat := 0x42550102

end Sys2Proof.Machine
end

