-- ==== Sys2Proof/Machine/Dispatch.lean ====
section
/-! DEFINITION. The dispatch: one arm per command, each one direct call of its meaning. -/
namespace Sys2Proof.Machine

/-- The effect of a command on everything but the queue. -/
def exec (i : Instr) (s : State) : Host.Outcome State Fault Refusal :=
  match i with
  | .nop n => Sys2Proof.Machine.execNop n s
  | .halt n => Sys2Proof.Machine.execHalt n s
  | .jump n => Sys2Proof.Machine.execJump n s
  | .loop n => Sys2Proof.Machine.execLoop n s
  | .endl n => Sys2Proof.Machine.execEndl n s
  | .move n => Sys2Proof.Machine.execMove n s
  | .moveb n => Sys2Proof.Machine.execMoveb n s
  | .fill n => Sys2Proof.Machine.execFill n s
  | .copy n => Sys2Proof.Machine.execCopy n s
  | .setx n => Sys2Proof.Machine.execSetx n s
  | .wait n => Sys2Proof.Machine.execWait n s
  | .signal n => Sys2Proof.Machine.execSignal n s
  | .fence n => Sys2Proof.Machine.execFence n s
  | .tload n => Sys2Proof.Machine.execTload n s
  | .stat n => Sys2Proof.Machine.execStat n s
  | .advise n => Sys2Proof.Machine.execAdvise n s
  | .doorbellWrite n c t a => Sys2Proof.Machine.execDoorbellWrite n c t a s
  | .channelEnable n c w a => Sys2Proof.Machine.execChannelEnable n c w a s
  | .channelDisable n c w a => Sys2Proof.Machine.execChannelDisable n c w a s
  | .resume n c w a => Sys2Proof.Machine.execResume n c w a s
  | .entryReadReturn n c idx w0 w1 w2 w3 err => Sys2Proof.Machine.execEntryReadReturn n c idx w0 w1 w2 w3 err s
  | .entryDispatch n c => Sys2Proof.Machine.execEntryDispatch n c s
  | .instructionLineReturn n k line data ret => Sys2Proof.Machine.execInstructionLineReturn n k line data ret s
  | .entryComplete n k => Sys2Proof.Machine.execEntryComplete n k s
  | .statusWriteLanded n c idx => Sys2Proof.Machine.execStatusWriteLanded n c idx s
  | .interruptSend => Sys2Proof.Machine.execInterruptSend s
  | .interruptCauseClear addr w a => Sys2Proof.Machine.execInterruptCauseClear addr w a s
  | .descriptorArrive n k d side ret => Sys2Proof.Machine.execDescriptorArrive n k d side ret s
  | .hazardGrant n k => Sys2Proof.Machine.execHazardGrant n k s
  | .guardSatisfied n k => Sys2Proof.Machine.execGuardSatisfied n k s
  | .guardTimeout n k => Sys2Proof.Machine.execGuardTimeout n k s
  | .codecBind n k => Sys2Proof.Machine.execCodecBind n k s
  | .resourceGrant n k => Sys2Proof.Machine.execResourceGrant n k s
  | .readBurstIssue n => Sys2Proof.Machine.execReadBurstIssue n s
  | .writeBurstIssue n corrected beyond => Sys2Proof.Machine.execWriteBurstIssue n corrected beyond s
  | .readReturn n tag data ret => Sys2Proof.Machine.execReadReturn n tag data ret s
  | .writeCompletion n tag code => Sys2Proof.Machine.execWriteCompletion n tag code s
  | .landTimeout n tag => Sys2Proof.Machine.execLandTimeout n tag s
  | .invalidationSend => Sys2Proof.Machine.execInvalidationSend s
  | .invalidationAck id => Sys2Proof.Machine.execInvalidationAck id s
  | .invalidationTimeout id => Sys2Proof.Machine.execInvalidationTimeout id s
  | .blockDecode n k => Sys2Proof.Machine.execBlockDecode n k s
  | .blockEncode n k => Sys2Proof.Machine.execBlockEncode n k s
  | .tloadMarkLoading n k => Sys2Proof.Machine.execTloadMarkLoading n k s
  | .tloadTableBuilt n k => Sys2Proof.Machine.execTloadTableBuilt n k s
  | .statRecord n k => Sys2Proof.Machine.execStatRecord n k s
  | .frameSync n onTime => Sys2Proof.Machine.execFrameSync n onTime s
  | .nearSlot n corrected beyond => Sys2Proof.Machine.execNearSlot n corrected beyond s
  | .lineStaged n => Sys2Proof.Machine.execLineStaged n s
  | .nearReadData n data ret corrected rerr => Sys2Proof.Machine.execNearReadData n data ret corrected rerr s
  | .nearWriteAck n werr => Sys2Proof.Machine.execNearWriteAck n werr s
  | .nearAckMissing n => Sys2Proof.Machine.execNearAckMissing n s
  | .signalFire n k => Sys2Proof.Machine.execSignalFire n k s
  | .tallyAddition t => Sys2Proof.Machine.execTallyAddition t s
  | .landingBarrier n => Sys2Proof.Machine.execLandingBarrier n s
  | .barrierReport n => Sys2Proof.Machine.execBarrierReport n s
  | .acquireComplete n k => Sys2Proof.Machine.execAcquireComplete n k s
  | .waitTimeout n k => Sys2Proof.Machine.execWaitTimeout n k s
  | .talAdd t w a => Sys2Proof.Machine.execTalAdd t w a s
  | .talVal t v a => Sys2Proof.Machine.execTalVal t v a s
  | .tallyPoison t => Sys2Proof.Machine.execTallyPoison t s
  | .walkRequest p va => Sys2Proof.Machine.execWalkRequest p va s
  | .walkDone p va group err => Sys2Proof.Machine.execWalkDone p va group err s
  | .batchClose p => Sys2Proof.Machine.execBatchClose p s
  | .batchLanded p err => Sys2Proof.Machine.execBatchLanded p err s
  | .faultResolve p c a => Sys2Proof.Machine.execFaultResolve p c a s
  | .retryWalk p idx group err => Sys2Proof.Machine.execRetryWalk p idx group err s
  | .commit p w a => Sys2Proof.Machine.execCommit p w a s
  | .revokingCommit p w a => Sys2Proof.Machine.execRevokingCommit p w a s
  | .commitStart p table err => Sys2Proof.Machine.execCommitStart p table err s
  | .commitSwitch p => Sys2Proof.Machine.execCommitSwitch p s
  | .commitDrained p => Sys2Proof.Machine.execCommitDrained p s
  | .xlatDisable p w a => Sys2Proof.Machine.execXlatDisable p w a s
  | .padvPost p w a => Sys2Proof.Machine.execPadvPost p w a s
  | .forecastLanded p err => Sys2Proof.Machine.execForecastLanded p err s
  | .portEnable p a => Sys2Proof.Machine.execPortEnable p a s
  | .portDisable p a => Sys2Proof.Machine.execPortDisable p a s
  | .portDrained p => Sys2Proof.Machine.execPortDrained p s
  | .linkUp p => Sys2Proof.Machine.execLinkUp p s
  | .linkDown p => Sys2Proof.Machine.execLinkDown p s
  | .trainTimeout p => Sys2Proof.Machine.execTrainTimeout p s
  | .hello p h0 => Sys2Proof.Machine.execHello p h0 s
  | .flitReceive p raw marked lone => Sys2Proof.Machine.execFlitReceive p raw marked lone s
  | .replayTimeout p => Sys2Proof.Machine.execReplayTimeout p s
  | .packetForward p bad => Sys2Proof.Machine.execPacketForward p bad s
  | .wr p bad => Sys2Proof.Machine.execWr p bad s
  | .rd p bad => Sys2Proof.Machine.execRd p bad s
  | .wack p bad => Sys2Proof.Machine.execWack p bad s
  | .rdata p bad => Sys2Proof.Machine.execRdata p bad s
  | .rdTimeout n tag => Sys2Proof.Machine.execRdTimeout n tag s
  | .stop p => Sys2Proof.Machine.execStop p s
  | .gup p h0 h1 => Sys2Proof.Machine.execGup p h0 h1 s
  | .gdown p h0 h1 => Sys2Proof.Machine.execGdown p h0 h1 s
  | .gopEnable j w a => Sys2Proof.Machine.execGopEnable j w a s
  | .gopArrive j => Sys2Proof.Machine.execGopArrive j s
  | .broadcastReadDone j v err => Sys2Proof.Machine.execBroadcastReadDone j v err s
  | .gopResetSettled j => Sys2Proof.Machine.execGopResetSettled j s
  | .gopTimeout j => Sys2Proof.Machine.execGopTimeout j s
  | .create obj a => Sys2Proof.Machine.execCreate obj a s
  | .close obj headers a => Sys2Proof.Machine.execClose obj headers a s
  | .closeComplete => Sys2Proof.Machine.execCloseComplete s
  | .delete obj a => Sys2Proof.Machine.execDelete obj a s
  | .deleteDrained => Sys2Proof.Machine.execDeleteDrained s
  | .format geometryOk bad a => Sys2Proof.Machine.execFormat geometryOk bad a s
  | .mount geometryOk copy => Sys2Proof.Machine.execMount geometryOk copy s
  | .codewordDecoded n k cw ok data => Sys2Proof.Machine.execCodewordDecoded n k cw ok data s
  | .rallyStep n k cw ok data => Sys2Proof.Machine.execRallyStep n k cw ok data s
  | .vaultReadTimeout n tag => Sys2Proof.Machine.execVaultReadTimeout n tag s
  | .vaultWriteLine n tag => Sys2Proof.Machine.execVaultWriteLine n tag s
  | .pageProgrammed obj page => Sys2Proof.Machine.execPageProgrammed obj page s
  | .vaultPadTimeout obj => Sys2Proof.Machine.execVaultPadTimeout obj s
  | .programFail obj page ch => Sys2Proof.Machine.execProgramFail obj page ch s
  | .eraseFail ch blk => Sys2Proof.Machine.execEraseFail ch blk s
  | .scrubRead obj seg cw highRate uncorrectable => Sys2Proof.Machine.execScrubRead obj seg cw highRate uncorrectable s
  | .refresh obj seg => Sys2Proof.Machine.execRefresh obj seg s
  | .wearLevel => Sys2Proof.Machine.execWearLevel s
  | .logQueueCommand op area offset len sram data fault => Sys2Proof.Machine.execLogQueueCommand op area offset len sram data fault s
  | .sourceEvent src ext => Sys2Proof.Machine.execSourceEvent src ext s
  | .recordQueue => Sys2Proof.Machine.execRecordQueue s
  | .escalationWindowEnd src => Sys2Proof.Machine.execEscalationWindowEnd src s
  | .fenceComplete src us => Sys2Proof.Machine.execFenceComplete src us s
  | .fenceTimeout src => Sys2Proof.Machine.execFenceTimeout src s
  | .haltReport n => Sys2Proof.Machine.execHaltReport n s
  | .safeTimeout => Sys2Proof.Machine.execSafeTimeout s
  | .fcStatusClear w a => Sys2Proof.Machine.execFcStatusClear w a s
  | .fcPop w a => Sys2Proof.Machine.execFcPop w a s
  | .fcRecLatch a => Sys2Proof.Machine.execFcRecLatch a s
  | .driverDb a => Sys2Proof.Machine.execDriverDb a s
  | .softReset page a => Sys2Proof.Machine.execSoftReset page a s
  | .softResetBegin n => Sys2Proof.Machine.execSoftResetBegin n s
  | .softResetDone page => Sys2Proof.Machine.execSoftResetDone page s
  | .fenceSet page a => Sys2Proof.Machine.execFenceSet page a s
  | .fenceClear page a => Sys2Proof.Machine.execFenceClear page a s
  | .lock page a => Sys2Proof.Machine.execLock page a s
  | .pageErrClear page w a => Sys2Proof.Machine.execPageErrClear page w a s
  | .registerWrite addr w a => Sys2Proof.Machine.execRegisterWrite addr w a s
  | .wideReadLatch addr a => Sys2Proof.Machine.execWideReadLatch addr a s
  | .wideWriteShadow addr w a => Sys2Proof.Machine.execWideWriteShadow addr w a s
  | .hazInfoLatch n a => Sys2Proof.Machine.execHazInfoLatch n a s
  | .configAccessThaw acc => Sys2Proof.Machine.execConfigAccessThaw acc s
  | .registerCodeError addr corrected => Sys2Proof.Machine.execRegisterCodeError addr corrected s
  | .stationWake n a => Sys2Proof.Machine.execStationWake n a s
  | .lullEntry n => Sys2Proof.Machine.execLullEntry n s
  | .offEntry n => Sys2Proof.Machine.execOffEntry n s
  | .transitionDone n => Sys2Proof.Machine.execTransitionDone n s
  | .thaw n => Sys2Proof.Machine.execThaw n s
  | .thawDone n => Sys2Proof.Machine.execThawDone n s
  | .hubPowerDown => Sys2Proof.Machine.execHubPowerDown s
  | .hubPowerUp => Sys2Proof.Machine.execHubPowerUp s
  | .opPointChange g => Sys2Proof.Machine.execOpPointChange g s
  | .railGood g => Sys2Proof.Machine.execRailGood g s
  | .railTimeout g => Sys2Proof.Machine.execRailTimeout g s
  | .thermalSample idx q => Sys2Proof.Machine.execThermalSample idx q s
  | .droopTrip n => Sys2Proof.Machine.execDroopTrip n s
  | .clockMonitorTrip clk => Sys2Proof.Machine.execClockMonitorTrip clk s
  | .aoRefclkLoss => Sys2Proof.Machine.execAoRefclkLoss s
  | .capRaise g => Sys2Proof.Machine.execCapRaise g s
  | .ping => Sys2Proof.Machine.execPing s
  | .getInfo => Sys2Proof.Machine.execGetInfo s
  | .powerRead => Sys2Proof.Machine.execPowerRead s
  | .logRead fault => Sys2Proof.Machine.execLogRead fault s
  | .logMark => Sys2Proof.Machine.execLogMark s
  | .setBudget => Sys2Proof.Machine.execSetBudget s
  | .updateBegin => Sys2Proof.Machine.execUpdateBegin s
  | .updateData => Sys2Proof.Machine.execUpdateData s
  | .updateCommit => Sys2Proof.Machine.execUpdateCommit s
  | .resetMgmt => Sys2Proof.Machine.execResetMgmt s
  | .logFlush => Sys2Proof.Machine.execLogFlush s
  | .getStats => Sys2Proof.Machine.execGetStats s
  | .timeSync => Sys2Proof.Machine.execTimeSync s
  | .ready reason => Sys2Proof.Machine.execReady reason s
  | .alert seq => Sys2Proof.Machine.execAlert seq s
  | .recovery reason => Sys2Proof.Machine.execRecovery reason s
  | .mailboxTake => Sys2Proof.Machine.execMailboxTake s
  | .m2hAck a => Sys2Proof.Machine.execM2hAck a s
  | .watchdogExpiry => Sys2Proof.Machine.execWatchdogExpiry s
  | .mgmtRestart => Sys2Proof.Machine.execMgmtRestart s
  | .mgmtMemoryError uncorrectable => Sys2Proof.Machine.execMgmtMemoryError uncorrectable s
  | .logAppend torvyo body => Sys2Proof.Machine.execLogAppend torvyo body s
  | .logCopy => Sys2Proof.Machine.execLogCopy s
  | .budgetEvaluate => Sys2Proof.Machine.execBudgetEvaluate s
  | .counterFreeze a => Sys2Proof.Machine.execCounterFreeze a s
  | .counterRelease a => Sys2Proof.Machine.execCounterRelease a s
  | .windowBoundary loc j => Sys2Proof.Machine.execWindowBoundary loc j s
  | .powerOnReset key => Sys2Proof.Machine.execPowerOnReset key s
  | .fullReset => Sys2Proof.Machine.execFullReset s
  | .aoReady => Sys2Proof.Machine.execAoReady s
  | .hubReady => Sys2Proof.Machine.execHubReady s
  | .vgoodFall g => Sys2Proof.Machine.execVgoodFall g s
  | .vaultChannelFailed ch => Sys2Proof.Machine.execVaultChannelFailed ch s
  | .blockErased ch blk => Sys2Proof.Machine.execBlockErased ch blk s
  | .hubPowerUpDone => Sys2Proof.Machine.execHubPowerUpDone s
  | .mgmtAccessFault => Sys2Proof.Machine.execMgmtAccessFault s
  | .watchdogRestart => Sys2Proof.Machine.execWatchdogRestart s
  | .wrapperInstructionLoad code => Sys2Proof.Machine.execWrapperInstructionLoad code s

end Sys2Proof.Machine
end

