-- ==== Sys2Proof/WellFormed.lean ====
section
/-! DEFINITION. Well-formed commands: every operand lies in the range that the spec gives the unit, the identifier or the
field it names. -/
namespace Sys2Proof

/-- A station (R3). -/
def wfStn (n : Nat) : Bool := n < 48
/-- A channel of a station (R44). -/
def wfChan (c : Nat) : Bool := c < 32
/-- A strand of a station (R44). -/
def wfStrand (k : Nat) : Bool := k < 256
/-- A tag of a station's far port (R424); the tags of its window and vault accesses are numbered likewise. -/
def wfTag (t : Nat) : Bool := t < 1024
/-- A partition (R4). -/
def wfPart (p : Nat) : Bool := p < 16
/-- A virtual address (R109). -/
def wfVa (a : Nat) : Bool := a < 2 ^ 57
/-- A link port (R4). -/
def wfPort (p : Nat) : Bool := p < 4
/-- A group-operation slot (R305). -/
def wfSlot (i : Nat) : Bool := i < 8
/-- A vault object (R323). -/
def wfObj (o : Nat) : Bool := o < 4096
/-- A channel of the vault (R4). -/
def wfVch (c : Nat) : Bool := c < 128
/-- A source of the referee (R346). -/
def wfSrc (s : Nat) : Bool := s < 60
/-- A station group (R14). -/
def wfGrp (g : Nat) : Bool := g < 6
/-- The base address of a page (R26). -/
def wfPage (a : BitVec 24) : Bool := a.toNat % 4096 = 0
/-- The entries of one group of a range table (R260). -/
def wfGroup (g : List TabEntry) : Bool := g.length ≤ 16
/-- An object read back from the vault's metadata area (R323, R339). -/
def wfMeta (o : MetaObj) : Bool := wfObj o.obj && decide (o.st < 16) && decide (o.len ≤ 2 ^ 44)
/-- A log record's type, severity and source (R381). -/
def wfLog (l : LogBody) : Bool :=
  (decide (1 ≤ l.typ ∧ l.typ ≤ 10) || decide (64 ≤ l.typ ∧ l.typ ≤ 127)) && decide (l.sev < 4) && decide (l.src < 64)
/-- A counter's location and number (R392). -/
def wfCnt : CntLoc → Nat → Bool
  | .station n, i => wfStn n && decide (i < 8)
  | .hub, i => decide (i < 16)
  | .port p, i => wfPort p && decide (i < 4)
  | .vault, i => decide (i < 4)

/-- The command's operands lie in their ranges. -/
def Instr.wf : Instr → Bool
  | .nop n => wfStn n
  | .halt n => wfStn n
  | .jump n => wfStn n
  | .loop n => wfStn n
  | .endl n => wfStn n
  | .move n => wfStn n
  | .moveb n => wfStn n
  | .fill n => wfStn n
  | .copy n => wfStn n
  | .setx n => wfStn n
  | .wait n => wfStn n
  | .signal n => wfStn n
  | .fence n => wfStn n
  | .tload n => wfStn n
  | .stat n => wfStn n
  | .advise n => wfStn n
  | .doorbellWrite n c _ _ => wfStn n && wfChan c
  | .channelEnable n c _ _ => wfStn n && wfChan c
  | .channelDisable n c _ _ => wfStn n && wfChan c
  | .resume n c _ _ => wfStn n && wfChan c
  | .entryReadReturn n c _ _ _ _ _ _ => wfStn n && wfChan c
  | .entryDispatch n c => wfStn n && wfChan c
  | .instructionLineReturn n k line _ _ => wfStn n && wfStrand k && decide (line % 128 = 0) && wfVa line
  | .entryComplete n k => wfStn n && wfStrand k
  | .statusWriteLanded n c _ => wfStn n && wfChan c
  | .interruptSend => true
  | .interruptCauseClear _ _ _ => true
  | .descriptorArrive n k _ _ _ => wfStn n && wfStrand k
  | .hazardGrant n k => wfStn n && wfStrand k
  | .guardSatisfied n k => wfStn n && wfStrand k
  | .guardTimeout n k => wfStn n && wfStrand k
  | .codecBind n k => wfStn n && wfStrand k
  | .resourceGrant n k => wfStn n && wfStrand k
  | .readBurstIssue n => wfStn n
  | .writeBurstIssue n _ _ => wfStn n
  | .readReturn n tag _ _ => wfStn n && wfTag tag
  | .writeCompletion n tag _ => match n with
    | some m => wfStn m && wfTag tag
    | none => decide (tag < 256)
  | .landTimeout n tag => wfStn n && decide (tag < 2048)
  | .invalidationSend => true
  | .invalidationAck _ => true
  | .invalidationTimeout _ => true
  | .blockDecode n k => wfStn n && wfStrand k
  | .blockEncode n k => wfStn n && wfStrand k
  | .tloadMarkLoading n k => wfStn n && wfStrand k
  | .tloadTableBuilt n k => wfStn n && wfStrand k
  | .statRecord n k => wfStn n && wfStrand k
  | .frameSync n _ => wfStn n
  | .nearSlot n _ _ => wfStn n
  | .lineStaged n => wfStn n
  | .nearReadData n _ _ corrected _ => wfStn n && decide (corrected ≤ 4)
  | .nearWriteAck n _ => wfStn n
  | .nearAckMissing n => wfStn n
  | .signalFire n k => wfStn n && wfStrand k
  | .tallyAddition t => decide (t < 32768)
  | .landingBarrier n => wfStn n
  | .barrierReport n => wfStn n
  | .acquireComplete n k => wfStn n && wfStrand k
  | .waitTimeout n k => wfStn n && wfStrand k
  | .talAdd t _ _ => decide (t < 32768)
  | .talVal t _ _ => decide (t < 32768)
  | .tallyPoison t => decide (t < 32768)
  | .walkRequest p va => wfPart p && wfVa va
  | .walkDone p va group _ => wfPart p && wfVa va && wfGroup group
  | .batchClose p => wfPart p
  | .batchLanded p _ => wfPart p
  | .faultResolve p _ _ => wfPart p
  | .retryWalk p idx group _ => wfPart p && decide (idx < 2 ^ 32) && wfGroup group
  | .commit p _ _ => wfPart p
  | .revokingCommit p _ _ => wfPart p
  | .commitStart p table _ => wfPart p && decide (table.length ≤ 65536)
  | .commitSwitch p => wfPart p
  | .commitDrained p => wfPart p
  | .xlatDisable p _ _ => wfPart p
  | .padvPost p _ _ => wfPart p
  | .forecastLanded p _ => wfPart p
  | .portEnable p _ => wfPort p
  | .portDisable p _ => wfPort p
  | .portDrained p => wfPort p
  | .linkUp p => wfPort p
  | .linkDown p => wfPort p
  | .trainTimeout p => wfPort p
  | .hello p _ => wfPort p
  | .flitReceive p _ _ _ => wfPort p
  | .replayTimeout p => wfPort p
  | .packetForward p _ => wfPort p
  | .wr p _ => wfPort p
  | .rd p _ => wfPort p
  | .wack p _ => wfPort p
  | .rdata p _ => wfPort p
  | .rdTimeout n tag => wfStn n && wfTag tag
  | .stop p => wfPort p
  | .gup p _ _ => wfPort p
  | .gdown p _ _ => wfPort p
  | .gopEnable i _ _ => wfSlot i
  | .gopArrive i => wfSlot i
  | .broadcastReadDone i _ _ => wfSlot i
  | .gopResetSettled i => wfSlot i
  | .gopTimeout i => wfSlot i
  | .create obj _ => wfObj obj
  | .close obj _ _ => wfObj obj
  | .closeComplete => true
  | .delete obj _ => wfObj obj
  | .deleteDrained => true
  | .format _ _ _ => true
  | .mount _ found => match found with
    | some m => m.objs.all wfMeta
    | none => true
  | .codewordDecoded n k _ ok data => wfStn n && wfStrand k && (!ok || decide (data.length = 32))
  | .rallyStep n k _ ok data => wfStn n && wfStrand k && (!ok || decide (data.length = 32))
  | .vaultReadTimeout n tag => wfStn n && wfTag tag
  | .vaultWriteLine n tag => wfStn n && wfTag tag
  | .pageProgrammed obj _ => wfObj obj
  | .vaultPadTimeout obj => wfObj obj
  | .programFail obj _ ch => wfObj obj && wfVch ch
  | .eraseFail ch _ => wfVch ch
  | .scrubRead obj _ _ _ _ => wfObj obj
  | .refresh obj _ => wfObj obj
  | .wearLevel => true
  | .logQueueCommand _ _ _ _ _ _ _ => true
  | .sourceEvent src _ => wfSrc src
  | .recordQueue => true
  | .escalationWindowEnd src => wfSrc src
  | .fenceComplete src _ => wfSrc src
  | .fenceTimeout src => wfSrc src
  | .haltReport n => match n with
    | some m => wfStn m
    | none => true
  | .safeTimeout => true
  | .fcStatusClear _ _ => true
  | .fcPop _ _ => true
  | .fcRecLatch _ => true
  | .driverDb _ => true
  | .softReset page _ => wfPage page
  | .softResetBegin n => wfStn n
  | .softResetDone page => wfPage page
  | .fenceSet page _ => wfPage page
  | .fenceClear page _ => wfPage page
  | .lock page _ => wfPage page
  | .pageErrClear page _ _ => wfPage page
  | .registerWrite _ _ _ => true
  | .wideReadLatch _ _ => true
  | .wideWriteShadow _ _ _ => true
  | .hazInfoLatch n _ => wfStn n
  | .configAccessThaw _ => true
  | .registerCodeError _ _ => true
  | .stationWake n _ => wfStn n
  | .lullEntry n => wfStn n
  | .offEntry n => wfStn n
  | .transitionDone n => wfStn n
  | .thaw n => wfStn n
  | .thawDone n => wfStn n
  | .hubPowerDown => true
  | .hubPowerUp => true
  | .opPointChange g => wfGrp g
  | .railGood g => wfGrp g
  | .railTimeout g => wfGrp g
  | .thermalSample idx _ => decide (idx < 52)
  | .droopTrip n => wfStn n
  | .clockMonitorTrip clk => decide (clk ≤ 10)
  | .aoRefclkLoss => true
  | .capRaise g => wfGrp g
  | .ping => true
  | .getInfo => true
  | .powerRead => true
  | .logRead _ => true
  | .logMark => true
  | .setBudget => true
  | .updateBegin => true
  | .updateData => true
  | .updateCommit => true
  | .resetMgmt => true
  | .logFlush => true
  | .getStats => true
  | .timeSync => true
  | .ready _ => true
  | .alert _ => true
  | .recovery _ => true
  | .mailboxTake => true
  | .m2hAck _ => true
  | .watchdogExpiry => true
  | .mgmtRestart => true
  | .mgmtMemoryError _ => true
  | .logAppend _ body => wfLog body
  | .logCopy => true
  | .budgetEvaluate => true
  | .counterFreeze _ => true
  | .counterRelease _ => true
  | .windowBoundary loc i => wfCnt loc i
  | .powerOnReset _ => true
  | .fullReset => true
  | .aoReady => true
  | .hubReady => true
  | .vgoodFall g => wfGrp g
  | .vaultChannelFailed ch => wfVch ch
  | .blockErased ch _ => wfVch ch
  | .hubPowerUpDone => true
  | .mgmtAccessFault => true
  | .watchdogRestart => true
  | .wrapperInstructionLoad _ => true

end Sys2Proof
end

