-- ==== Sys2Proof/Safety.lean ====
section
/-! DEFINITION. What a safe state is, and the terms in which claims speak of a command that is ready: the integration
parameters that the spec allows, the test wrapper's rule, and the queue. -/
namespace Sys2Proof.Machine

/-- The configurations of R3, the counts of R4 and one entry per station of the near port's parameters (R215, R436). -/
def Params.legal (p : Params) : Bool :=
  [1, 2, 4, 8, 12, 16, 24, 32, 48].contains p.stations && decide (p.linkPorts ≤ 4) && decide (p.vaultCh ≤ 128) &&
    decide (p.tileSize.length = p.stations) && decide (p.rdLat.length = p.stations) &&
    decide (p.wrAckLat.length = p.stations)

/-- The test wrapper holds an instruction of R438, and one that takes the chip over only while RESET_N is asserted. -/
def Tap.ok (t : Tap) : Bool := t.instr = 0 || t.instr = 5 || (decide (t.instr ≤ 5) && !t.resetN)

/-- A safe state: legal parameters, a wrapper that R438 allows, and well-formed commands waiting. -/
def State.safe (s : State) : Bool := s.par.legal && s.tap.ok && s.pending.all Instr.wf

/-! ## Commands that are ready -/

/-- The state with another block. -/
def State.put (s : State) (b : Block) : State := { s with b := b }

/-- The block with another table of a station: its far-port reads, its far-port writes, its codec slots, its prefetches, and
the reads and prefetches that a soft reset left outstanding. -/
def withRd (b : Block) (n : Nat) (t : Tab RdReq) : Block := setStn b n { getStn b n with rdTags := t }
def withWr (b : Block) (n : Nat) (t : Tab WrReq) : Block := setStn b n { getStn b n with wrTags := t }
def withSlots (b : Block) (n : Nat) (l : List CSlot) : Block := setStn b n { getStn b n with slots := l }
def withOldRd (b : Block) (n : Nat) (t : Tab RdReq) : Block := setStn b n { getStn b n with oldRd := t }
def withOldPf (b : Block) (n : Nat) (l : List Fetch) : Block := setStn b n { getStn b n with oldPf := l }
def withPf (b : Block) (n : Nat) (l : List Fetch) : Block := setStn b n { getStn b n with pfOut := l }

/-- The contender that the sequencer of station n serves next, and its unit (R79). -/
def nextUnit (b : Block) (n : Nat) : Option (Cand × MUnit) :=
  match seqPick b n with
  | none => none
  | some c =>
    let s := getStrand b n c.strand
    match s.entry, unitAt s s.pc with
    | some e, some (w0, w1) => some (c, { n := n, k := c.strand, s := s, e := e, w0 := w0, w1 := w1 })
    | _, _ => none

/-- The sequencer of station n takes the unit u of contender c, an instruction with the opcode given that breaks no rule of
R77 by its own bits. -/
def takes (b : Block) (n op : Nat) (c : Cand) (u : MUnit) : Bool :=
  stnRuns b n && nextUnit b n = some (c, u) && opcode u.w0 = op && !unitIllegal u.w0 u.w1

/-- The block with the sequencer's pointers past the contender, and its strand unblocked (R79, R80). -/
def atUnit (b : Block) (c : Cand) (u : MUnit) : Block :=
  setStrand (modStn b u.n (fun st => { st with rrSeq := rrPast st.rrSeq c })) u.n u.k { u.s with blocked := .no }

/-- The block after the unit has retired with a program counter, and its strand is up to date (R80, R82). -/
def retired (b : Block) (u : MUnit) (pc : Nat) : Block := tick (retire b u pc) u.n u.k

/-- The block after the unit has stopped its strand with a code (R77, R86, R106). -/
def halted (b : Block) (u : MUnit) (code : Nat) : Block := tick (stopStrand b u.n u.k code) u.n u.k

/-! ## Accesses that the configuration port answers -/

/-- A write, and a read, at a window address. -/
def wacc (addr w : Nat) (a : Attr) : Access := { addr := BitVec.ofNat 24 addr, write := true, data := BitVec.ofNat 32 w, attr := a }
def racc (addr : Nat) (a : Attr) : Access := { addr := BitVec.ofNat 24 addr, write := false, data := 0, attr := a }

/-- The block with an access counted (event 0x0A of the hub). -/
def counted (b : Block) : Block := count b .hub 0x0A 1 none

/-- No access waits, nothing holds this one, its address decodes to page pg, which admits it, and r is the register's row. -/
def meets (p : Params) (b : Block) (x : Access) (pg : Page) (r : RegRow) : Bool :=
  decide (b.cfg.held = []) && decide (accFate p b x = .perform) && decide (pageAt p (accAddr x) = some pg) &&
    (!x.write || !isDead (counted b) || deadWrite pg (accAddr x % 0x1000)) && admits (counted b) x pg &&
    decide (pageRow pg (accAddr x % 0x1000) = some r)

/-- A write with all four strobes of a register that is not read-only. -/
def meetsWrite (p : Params) (b : Block) (x : Access) (pg : Page) (r : RegRow) : Bool :=
  meets p b x pg r && x.write && decide (x.attr.strb = 15) && !r.roAll

/-- A write of a 32-bit register that neither LOCK nor a FROZEN condition refuses. -/
def takesWrite (p : Params) (b : Block) (x : Access) (pg : Page) (r : RegRow) : Bool :=
  meetsWrite p b x pg r && decide (r.pair = 0) && decide (0x40 ≤ accAddr x % 0x1000) &&
    decide (judge p (counted b) pg [(accAddr x % 0x1000, r, x.data.toNat)] = none)

/-- A write of PAGE_CTRL that its page does not refuse. -/
def takesCtrl (p : Params) (b : Block) (x : Access) (pg : Page) (r : RegRow) : Bool :=
  meetsWrite p b x pg r && decide (accAddr x % 0x1000 = 8) && decide (ctrlRefused (counted b) pg x.data.toNat = none)

/-- A read of a register whose code is good. -/
def takesRead (p : Params) (b : Block) (x : Access) (pg : Page) (r : RegRow) : Bool :=
  meets p b x pg r && !x.write && !codeBad (counted b) pg (accAddr x % 0x1000) r

/-- The block after a write at address a has been performed with OKAY: the register's code is good again (R32, R41). -/
def wrote (b : Block) (a : Nat) : Block := respond (recode b a) .ok 0

/-- The block after the low half of a 64-bit pair at address a has been written, and the shadow taken by the high half
(R34). -/
def shadowed (b : Block) (a : Nat) (lo : Word) : Block :=
  respond (setWsh (counted b) (tput (counted b).cfg.wshadow a lo)) .ok 0
def unshadowed (b : Block) (a : Nat) : Block := setWsh (counted b) (tdel (counted b).cfg.wshadow a)

/-- A write of the two halves of the pair whose low half has address a and offset off, the low one first, which no page
condition refuses. -/
def takesPair (p : Params) (b : Block) (a lo hi : Nat) (at_ : Attr) (pg : Page) (rl rh : RegRow) : Bool :=
  meetsWrite p b (wacc a lo at_) pg rl && decide (rl.pair = 1) && decide (a % 0x1000 ≠ 0x10) && decide (a % 0x1000 ≠ 8) &&
    meetsWrite p (shadowed b a (BitVec.ofNat 32 lo)) (wacc (a + 4) hi at_) pg rh && decide (rh.pair = 2) &&
    decide (judge p (unshadowed (shadowed b a (BitVec.ofNat 32 lo)) a) pg
      [(a % 0x1000, rl, lo), (a % 0x1000 + 4, rh, hi)] = none)

/-- The page of a tally. -/
def talPg (t : Nat) : Page := if t < 8192 then .gtal (t / 256) else .ltal ((t - 8192) / 512) ((t - 8192) % 512 / 256)

/-! ## Families of commands -/

/-- The rows of the mover's instructions: opcode and command of a station (R76). -/
def unitRows : List (Nat × (Nat → Instr)) :=
  [(0x01, .nop), (0x02, .halt), (0x03, .jump), (0x04, .loop), (0x05, .endl), (0x10, .move), (0x11, .moveb), (0x12, .fill),
   (0x13, .copy), (0x14, .setx), (0x20, .wait), (0x21, .signal), (0x22, .fence), (0x30, .tload), (0x31, .stat),
   (0x32, .advise)]

/-- The commands of units that dead ball holds: strands retire and complete nothing and their operations start nothing, no
burst issues, and the hub, the links, the vault and the power controller do what R359 leaves them: nothing. A page program
and an erase in progress complete (R342). -/
def heldInDeadBall : Instr → Bool
  | .nop _ | .halt _ | .jump _ | .loop _ | .endl _ | .move _ | .moveb _ | .fill _ | .copy _ | .setx _ | .wait _ | .signal _
  | .fence _ | .tload _ | .stat _ | .advise _ => true
  | .entryDispatch _ _ | .entryComplete _ _ | .hazardGrant _ _ | .guardSatisfied _ _ | .guardTimeout _ _ | .codecBind _ _
  | .resourceGrant _ _ | .readBurstIssue _ | .writeBurstIssue _ _ _ | .blockDecode _ _ | .blockEncode _ _ | .tloadMarkLoading _ _
  | .tloadTableBuilt _ _ | .statRecord _ _ | .signalFire _ _ => true
  | .tallyAddition _ | .landingBarrier _ | .barrierReport _ | .acquireComplete _ _ | .waitTimeout _ _ => true
  | .walkRequest _ _ | .walkDone _ _ _ _ | .batchClose _ | .retryWalk _ _ _ _ | .commitStart _ _ _ | .commitSwitch _ => true
  | .portDrained _ | .linkUp _ | .linkDown _ | .trainTimeout _ | .hello _ _ | .flitReceive _ _ _ _ | .replayTimeout _ | .wr _ _
  | .rd _ _ | .wack _ _ | .rdata _ _ | .stop _ | .gup _ _ _ | .gdown _ _ _ | .gopArrive _ | .broadcastReadDone _ _ _
  | .gopResetSettled _ | .gopTimeout _ => true
  | .closeComplete | .deleteDrained | .mount _ _ | .codewordDecoded _ _ _ _ _ | .rallyStep _ _ _ _ _ | .vaultReadTimeout _ _
  | .vaultWriteLine _ _ | .vaultPadTimeout _ | .programFail _ _ _ | .scrubRead _ _ _ _ _ | .refresh _ _ | .wearLevel => true
  | .fenceTimeout _ | .lullEntry _ | .offEntry _ | .thaw _ | .hubPowerDown | .hubPowerUp | .opPointChange _ | .railGood _
  | .capRaise _ => true
  | _ => false

/-- The commands of mover instructions and of the start stage of a station's operations. -/
def moverCommand : Instr → Bool
  | .nop _ | .halt _ | .jump _ | .loop _ | .endl _ | .move _ | .moveb _ | .fill _ | .copy _ | .setx _ | .wait _ | .signal _
  | .fence _ | .tload _ | .stat _ | .advise _ => true
  | .hazardGrant _ _ | .guardSatisfied _ _ | .guardTimeout _ _ | .codecBind _ _ | .resourceGrant _ _ | .blockDecode _ _
  | .blockEncode _ _ | .tloadMarkLoading _ _ | .tloadTableBuilt _ _ | .statRecord _ _ => true
  | _ => false

/-- The commands of the near port, of reads and of writes of a station (R56, R195, R227). -/
def dataCommand : Instr → Bool
  | .frameSync _ _ | .nearSlot _ _ _ | .lineStaged _ | .nearReadData _ _ _ _ _ | .nearWriteAck _ _ | .nearAckMissing _ => true
  | .readBurstIssue _ | .writeBurstIssue _ _ _ | .readReturn _ _ _ _ | .writeCompletion _ _ _ | .landTimeout _ _
  | .invalidationSend | .invalidationAck _ | .invalidationTimeout _ => true
  | _ => false

/-- The commands of channels and of tallies. -/
def channelCommand : Instr → Bool
  | .entryReadReturn _ _ _ _ _ _ _ _ | .entryDispatch _ _ | .instructionLineReturn _ _ _ _ _ | .entryComplete _ _
  | .statusWriteLanded _ _ _ | .interruptSend => true
  | _ => false
def tallyCommand : Instr → Bool
  | .signalFire _ _ | .tallyAddition _ | .landingBarrier _ | .barrierReport _ | .acquireComplete _ _ | .waitTimeout _ _
  | .tallyPoison _ => true
  | _ => false

/-- The commands of walks, fault records and commits; of port states; of global operations and packets that end here. -/
def xlatCommand : Instr → Bool
  | .walkRequest _ _ | .walkDone _ _ _ _ | .batchClose _ | .batchLanded _ _ | .retryWalk _ _ _ _ | .commitStart _ _ _
  | .commitSwitch _ | .commitDrained _ | .forecastLanded _ _ => true
  | _ => false
def portCommand : Instr → Bool
  | .portDrained _ | .linkUp _ | .linkDown _ | .trainTimeout _ | .hello _ _ | .replayTimeout _ | .packetForward _ _
  | .stop _ => true
  | _ => false
def packetCommand : Instr → Bool
  | .flitReceive _ _ _ _ | .wr _ _ | .rd _ _ | .wack _ _ | .rdata _ _ | .rdTimeout _ _ | .gup _ _ _ | .gdown _ _ _ | .gopArrive _
  | .broadcastReadDone _ _ _ | .gopResetSettled _ | .gopTimeout _ => true
  | _ => false

/-- The commands of power states, rails, caps and sensors. -/
def powerCommand : Instr → Bool
  | .lullEntry _ | .offEntry _ | .thaw _ | .hubPowerDown | .hubPowerUp | .opPointChange _ | .railGood _ | .railTimeout _
  | .thermalSample _ _ | .droopTrip _ | .clockMonitorTrip _ | .capRaise _ | .vgoodFall _ => true
  | _ => false

/-- The commands of the mailbox, of Torvyo and of its restarts. -/
def mgmtCommand : Instr → Bool
  | .ping | .getInfo | .powerRead | .logRead _ | .logMark | .setBudget | .updateBegin | .updateData | .updateCommit
  | .resetMgmt | .logFlush | .getStats | .timeSync | .ready _ | .alert _ | .recovery _ | .mailboxTake | .watchdogExpiry
  | .mgmtRestart | .mgmtMemoryError _ | .logAppend _ _ | .logCopy | .budgetEvaluate | .mgmtAccessFault
  | .watchdogRestart => true
  | _ => false

/-- The commands of the vault's objects, blocks and log queue that reach no station. -/
def vaultCommand : Instr → Bool
  | .closeComplete | .deleteDrained | .refresh _ _ | .wearLevel | .scrubRead _ _ _ _ _ | .vaultPadTimeout _
  | .eraseFail _ _ | .vaultChannelFailed _ | .blockErased _ _ | .logQueueCommand _ _ _ _ _ _ _ => true
  | _ => false

end Sys2Proof.Machine
end

