-- ==== Sys2Proof/Certificates/Slice0/Obligations.lean ====
section
/-! DEFINITION. The statements about the model, for the provers: what a step does, the invariant that every step keeps, what
each command does when it is ready, and the rules of the spec that these rest on. -/
open Sys2Proof Sys2Proof.Machine

/-! ## Mover programs (R76 to R104) -/

/-- NOP, HALT, JUMP and LOOP that the sequencer takes and that break no rule retire with the program counter and the loops
that R87 to R89 give. The model's choices in it: log entry 13. -/
def Obligations.MoverControlFlow : Prop :=
  ∀ (s : State) (n : Nat) (c : Cand) (u : MUnit),
    (takes s.b n 0x01 c u = true →
      exec (.nop n) s = .next (s.put (retired (atUnit s.b c u) u (u.s.pc + 16)))) ∧
    (takes s.b n 0x02 c u = true →
      exec (.halt n) s = .next (s.put (retired (modStrand (atUnit s.b c u) n u.k (fun t => { t with st := .drain, loops := [] })) u (u.s.pc + 16)))) ∧
    (takes s.b n 0x03 c u = true →
      ∀ off : Int, off = sgn 32 (bits u.w0 63 32) → off ≠ 0 →
      ∀ pop : Nat, pop = bits u.w0 19 16 → pop ≤ 8 → pop ≤ u.s.loops.length →
      ∀ taken : Bool,
        (bits u.w0 9 8 = 0 ∧ taken = true ∨
          ∃ x, u.s.x.getD (bits u.w0 12 10) none = some x ∧ bits u.w0 9 8 ≠ 0 ∧
            taken = decide ((x = 0) ↔ bits u.w0 9 8 = 1)) →
        (taken = false → exec (.jump n) s = .next (s.put (retired (atUnit s.b c u) u (u.s.pc + 16)))) ∧
        (taken = true → (u.e.va : Int) ≤ u.s.pc + 16 * off → u.s.pc + 16 * off < u.e.va + 16 * u.e.len →
          exec (.jump n) s = .next (s.put (retired (modStrand (atUnit s.b c u) n u.k (fun t => { t with loops := t.loops.take (t.loops.length - pop) })) u
              (u.s.pc + 16 * off).toNat)))) ∧
    (takes s.b n 0x04 c u = true →
      ∀ src : Nat,
        (bits u.w0 9 8 = 0 ∧ src = u.w1 ∨ bits u.w0 9 8 = 1 ∧ src = u.s.arg.toNat ∨
          bits u.w0 9 8 = 2 ∧ u.s.x.getD (bits u.w0 12 10) none = some (BitVec.ofNat 64 src) ∧ src < 2 ^ 64) →
      ∀ body : Nat, body = bits u.w0 47 24 → body ≠ 0 → u.s.loops.length < 8 →
        u.e.va ≤ u.s.pc + 16 * body → u.s.pc + 16 * body < u.e.va + 16 * u.e.len →
        (src = 0 → exec (.loop n) s = .next (s.put (retired (atUnit s.b c u) u (u.s.pc + 16 * body + 16)))) ∧
        (src ≠ 0 → exec (.loop n) s = .next (s.put (retired (modStrand (atUnit s.b c u) n u.k (fun t => { t with loops := t.loops ++
            [{ i := 0, count := (src + 2 ^ bits u.w0 21 16 - 1) / 2 ^ bits u.w0 21 16, body := u.s.pc + 16,
               endl := u.s.pc + 16 * body }] })) u (u.s.pc + 16)))))

/-- MOVE, MOVEB, FILL, COPY, SETX from memory, TLOAD and STAT that the sequencer takes and that break no rule become the
strand's youngest operation and retire (R91 to R96, R102, R103); SETX from VAL, ARG or CLEAR loads its register (R94).
The model's choices in it: log entries 13 and 22. -/
def Obligations.MoverOperations : Prop :=
  ∀ (s : State) (n : Nat) (c : Cand) (u : MUnit),
    (∀ a : Nat, a = u.e.va + 16 * bits u.w0 39 16 → a % 128 = 0 → a + 128 ≤ u.e.va + 16 * u.e.len →
      (takes s.b n 0x10 c u = true →
        exec (.move n) s = .next (s.put (retired (addOp (atUnit s.b c u) u .move .desc a none .no) u (u.s.pc + 16)))) ∧
      (takes s.b n 0x11 c u = true → (bits u.w0 9 8 = 0 ∨ bits u.w0 12 10 < u.s.loops.length) →
        (bit u.w0 14 = false ∨ bits u.w0 9 8 = 2) →
        (bits u.w0 9 8 ≠ 2 →
          exec (.moveb n) s = .next (s.put (retired (addOp (atUnit s.b c u) u .move .desc a none .no) u (u.s.pc + 16)))) ∧
        (∀ w : Nat, w = (if bit u.w0 13 then 8 else 4) → bits u.w0 9 8 = 2 → u.s.arg.toNat % w = 0 →
          ∀ l : Loop, u.s.loops[bits u.w0 12 10]? = some l →
          exec (.moveb n) s = .next (s.put (retired (addOp (atUnit s.b c u) u .move .list a
            (some ((u.s.arg.toNat + w * (bits u.w0 63 48 + l.i)) % 2 ^ 64)) .no) u (u.s.pc + 16)))))) ∧
    (∀ len : Nat, len = bits u.w0 39 16 → len ≠ 0 → ∀ tile : Nat, tile = s.par.tileSize.getD n 0 →
      (takes s.b n 0x12 c u = true → bits u.w1 31 0 % 256 = 0 → bits u.w1 31 0 + 256 * len ≤ tile →
        exec (.fill n) s = .next (s.put (retired (addOp (atUnit s.b c u) u .fill .desc u.s.pc none .no) u (u.s.pc + 16)))) ∧
      (takes s.b n 0x13 c u = true → bits u.w1 31 0 % 256 = 0 → bits u.w1 31 0 + 256 * len ≤ tile →
        bits u.w1 63 32 % 256 = 0 → bits u.w1 63 32 + 256 * len ≤ tile →
        exec (.copy n) s = .next (s.put (retired (addOp (atUnit s.b c u) u .copy .desc u.s.pc none .no) u (u.s.pc + 16))))) ∧
    (takes s.b n 0x14 c u = true →
      (∀ src : Nat, (bits u.w0 12 11 = 0 ∧ src = u.w1 ∨ bits u.w0 12 11 = 1 ∧ src = u.s.arg.toNat) →
        exec (.setx n) s = .next (s.put (retired (modStrand (atUnit s.b c u) n u.k (fun t => { t with
          x := t.x.set (bits u.w0 10 8)
            (some (BitVec.ofNat 64 ((src + 2 ^ bits u.w0 21 16 - 1) / 2 ^ bits u.w0 21 16))) })) u (u.s.pc + 16)))) ∧
      (bits u.w0 12 11 = 2 → bits u.w0 21 16 = 0 →
        exec (.setx n) s = .next (s.put (retired (modStrand (atUnit s.b c u) n u.k (fun t => { t with
          x := t.x.set (bits u.w0 10 8) none })) u (u.s.pc + 16)))) ∧
      (bits u.w0 12 11 = 3 → (u.s.arg.toNat + u.w1) % 8 = 0 →
        exec (.setx n) s = .next (s.put (retired (addOp (atUnit s.b c u) u .setx .desc
          ((u.s.arg.toNat + u.w1) % 2 ^ 64) none .setx) u (u.s.pc + 16))))) ∧
    (takes s.b n 0x30 c u = true → bits u.w1 56 0 % 64 = 0 →
      (∀ sl : CSlot, sl = codecSlot (getStn s.b n) (bits u.w0 9 8) → (sl.valid = false ∨ sl.gen ≠ bits u.w0 23 16) →
        exec (.tload n) s = .next (s.put (retired (addOp (atUnit s.b c u) u .tload .desc (bits u.w1 56 0) none .tload) u
          (u.s.pc + 16))))) ∧
    (takes s.b n 0x31 c u = true → bits u.w1 56 0 % 64 = 0 → (bit u.w0 10 = true ∨ bits u.w1 56 0 = 0) →
      exec (.stat n) s = .next (s.put (retired (addOp (atUnit s.b c u) u .stat .desc (bits u.w1 56 0) none .stat) u
        (u.s.pc + 16))))

/-- WAIT, SIGNAL, FENCE and ADVISE that the sequencer takes and that break no rule (R97 to R101, R104). The model's
choices in it: log entry 29. -/
def Obligations.MoverSynchronisation : Prop :=
  ∀ (s : State) (n : Nat) (c : Cand) (u : MUnit) (t : Nat), t = bits u.w0 22 8 →
    (takes s.b n 0x20 c u = true → t < 8192 + 512 * s.par.stations → (t < 8192 ∨ (t - 8192) / 512 = n) →
      (getTal s.b t).poison = false →
      ∀ thr : Nat,
        (bit u.w0 27 = false ∧ thr = bits u.w1 47 0 ∨
          bit u.w0 27 = true ∧ ∃ l, u.s.loops[bits u.w0 26 24]? = some l ∧
            thr = (bits u.w1 47 0 + bits u.w1 63 48 * l.i) % 2 ^ 48) →
        exec (.wait n) s = .next (s.put (retired
          (addWaiter (modStrand (atUnit s.b c u) n u.k (fun x => { x with
              wait := .armed t thr (bits u.w0 29 28), waitTmo := bits u.w0 47 32, blocked := .wait })) t
            { kind := .wait, stn := n, strand := u.k, thr := thr, scope := scopeOf (bits u.w0 29 28) }) u (u.s.pc + 16)))) ∧
    (takes s.b n 0x21 c u = true → t < 8192 + 512 * s.par.stations → bits u.w0 47 32 ≠ 0 →
      exec (.signal n) s = .next (s.put (retired (modStrand (atUnit s.b c u) n u.k (fun x => { x with
        sigs := x.sigs ++ [{ tally := t, cond := bits u.w0 25 24, scope := bits u.w0 27 26, amount := bits u.w0 47 32,
                             upTo := s.b.nextId, lastOp := x.lastOp }] })) u (u.s.pc + 16)))) ∧
    (takes s.b n 0x22 c u = true →
      exec (.fence n) s = .next (s.put (retired (modStrand (atUnit s.b c u) n u.k (fun x => { x with
        blocked := .fence (bits u.w0 9 8) s.b.nextId })) u (u.s.pc + 16)))) ∧
    (takes s.b n 0x32 c u = true →
      exec (.advise n) s = .next (s.put (retired
        (fcAdvise (atUnit s.b c u) (chOwner s.b n u.s.chan) (bits u.w1 56 0) (bits u.w0 63 16) (bits u.w0 10 8) false
          (32 * n + u.s.chan) u.k) u (u.s.pc + 16))))

/-! ## Channels and strands (R44 to R74) -/

/-- An entry that the hub asked for and that comes back without an error joins the entries read, and acceptance goes on
(R50); one that comes back in error stops its channel with RING_ERR (R66). An instruction line that the prefetcher asked
for enters the buffer of its strand, unless the strand no longer wants it; one that a soft reset left outstanding is
discarded and counted (R67, R74, R82). A status write that has landed releases its tag and runs the rest
of the completion actions (R60); the oldest pending interrupt message leaves (R433). The model's choices in it: log entry
16. -/
def Obligations.ChannelReturns : Prop :=
  (∀ (s : State) (n c : Nat) (r : RawEntry) (x : Chan), x = getChan s.b n c → r.idx ∈ x.reading →
     exec (.entryReadReturn n c r.idx r.w0 r.w1 r.w2 r.w3 false) s =
       .next (s.put (pump s.par (modChan (setChan s.b n c { x with reading := x.reading.filter (· ≠ r.idx) }) n c
         (fun y => { y with got := y.got ++ [r] })) n c)) ∧
     (x.cancelFrom = x.cancelTo →
       exec (.entryReadReturn n c r.idx r.w0 r.w1 r.w2 r.w3 true) s =
         .next (s.put (pump s.par (stopChan (memErr (setChan s.b n c { x with reading := x.reading.filter (· ≠ r.idx) })
           n 0x43 noUnit (chanB n) (slotAddr s.b n c r.idx) (errInfo c 0 0 0 0 3) 0) n c 0x23 (some r.idx)) n c)))) ∧
  (∀ (s : State) (n k va : Nat) (data : Line) (f : Fetch),
     ((getStn s.b n).oldPf.find? (fun f => f.k = k && f.va = va) = none →
       (getStn s.b n).pfOut.find? (fun f => f.k = k && f.va = va) = some f →
       (getStn s.b n).stopCode = 0 → stnActive s.b n = true →
       ∃ b', b' = drained (withPf s.b n ((getStn s.b n).pfOut.erase f)) n (drainPf k va) ∧
         exec (.instructionLineReturn n k va data ⟨0, 0, 0⟩) s = .next (s.put (if f.live then
           modStrand b' n k (fun t => { t with lines := t.lines ++ [(va, data)] }) else b'))) ∧
     ((getStn s.b n).oldPf.find? (fun f => f.k = k && f.va = va) = some f → ∀ ret : Ret,
       ∃ b', b' = drained (withOldPf s.b n ((getStn s.b n).oldPf.erase f)) n (drainPf f.k f.va) ∧
         exec (.instructionLineReturn n k va data ret) s = .next (s.put (discardRsp b' n)))) ∧
  (∀ (s : State), hubOn s.b = true →
     (∀ (n c tag : Nat) (idx : Word), hubTag s.b (.status n c idx) = some tag → isDead s.b = false →
       exec (.statusWriteLanded n c idx) s = .next (s.put (finishStatus s.par (hubFree s.b tag) n c idx))) ∧
     (∀ (v : Nat) (rest : List Nat), s.b.irqs = v :: rest →
       exec .interruptSend s = .next (s.put { s.b with irqs := rest })))

/-- Dispatch gives the channel's oldest accepted entry to the strand granted, whose context starts as R78 states. The
model's choices in it: log entries 13 and 15. -/
def Obligations.DispatchStartsContext : Prop :=
  ∀ (s : State) (n c k : Nat) (e : Entry) (rest : List Entry),
    stnRuns s.b n = true → hubWorks s.b = true → grantPick s.b n = some (c, k) →
    (getChan s.b n c).accepted = e :: rest → e.xl.any (·.stale) = false →
    ∃ t, exec (.entryDispatch n c) s = .next t ∧ (getChan t.b n c).accepted = rest ∧
      (getStrand t.b n k).entry = some e ∧ (getStrand t.b n k).st = .run ∧ (getStrand t.b n k).chan = c ∧
      (getStrand t.b n k).pc = e.va ∧ (getStrand t.b n k).loops = [] ∧
      (getStrand t.b n k).x = List.replicate 8 none ∧ (getStrand t.b n k).arg = e.arg ∧
      (getStrand t.b n k).sigs = [] ∧ (getStrand t.b n k).ops = [] ∧ (getStrand t.b n k).wait = .none

/-- An entry whose completion condition holds frees its strand and begins its completion actions with the code of R62
(R59, R60). -/
def Obligations.EntryCompletes : Prop :=
  ∀ (s : State) (n k : Nat) (b : Block) (t : Strand) (e : Entry),
    stnFenced s.b n = false → isDead s.b = false → b = tick s.b n k → t = getStrand b n k → t.entry = some e →
    entryDone (getStn b n) k t = true →
    exec (.entryComplete n k) s = .next (s.put (pump s.par (beginCompl (freeStrand b n k) n t.chan
      { idx := e.idx, code := if t.st = .stopped then t.err else if t.dataFault then 1 else 0, strand := k, landed := e.cmode,
        irq := e.irq, tsig := e.tsig, scope := e.scope, tally := e.tally, tadd := e.tadd,
        settled := if k = 0xFFFF ∨ e.cmode then .system else .station, written := false }) n t.chan))

/-! ## The start stage of data operations (R129, R161, R178, R207, R222) -/

/-- A descriptor, or a side block, that the prefetcher fetched enters the descriptor cache, and the start stage looks at
the strand's front MOVE: with a descriptor that names no side block it starts; a side block that the cache does not
hold is fetched first (R84, R85, R112). Hazard entries, guards, codec slots and shared resources are given to the
operation whose turn it is (R161, R178, R207, R222); a guard that expires stops the strand with STRAND_STOP, and one
that is met and whose acquire still settles does not expire (R233, R242). The model's choices in it: log entries 23,
24, 27, 123 and 133. -/
def Obligations.StartStage : Prop :=
  (∀ (s : State) (n k : Nat) (d side : Line) (f : Fetch) (b : Block),
     (getStn s.b n).oldPf.find? (fun f => f.k = k && f.va ≥ 2 ^ 60) = none →
     (getStn s.b n).pfOut.find? (fun f => f.k = k && f.va ≥ 2 ^ 60) = some f → f.live = true →
     (getStn s.b n).stopCode = 0 → stnActive s.b n = true →
     b = drained (withPf s.b n ((getStn s.b n).pfOut.erase f)) n (drainPf k f.va) →
     exec (.descriptorArrive n k d side ⟨0, 0, 0⟩) s = .next (s.put (tick (descTry s.par
       (modStn b n (fun st => { st with dcache := dcachePut st.dcache f.pa (if f.va < 2 ^ 61 then d else side) k })) n k)
       n k))) ∧
  (∀ (p : Params) (b : Block) (n k pa : Nat) (o : Op) (e : Entry) (c : Line), frontOp (getStrand b n k) = some o →
     o.kind = .move → o.phase = .desc → (getStrand b n k).entry = some e → xlPa e.xl o.desc = some pa →
     dcacheGet (getStn b n) (some pa) = some c →
     ∀ use : Block → Nat → Line → Block,
       use = (fun b a x => modStn b n (fun st => { st with dcache := dcachePut st.dcache a x k })) →
       (sideAddr o e c.toNat = none → descTry p b n k = startMove p (use b pa c) n k o e c.toNat 0) ∧
       (∀ sa : Nat, headIllegal p n (getStrand b n k) o c.toNat = false → sideAddr o e c.toNat = some sa →
         (dcacheGet (getStn b n) (xlPa e.xl sa) = none → descTry p b n k = blockAsk b n k sa (sa + 2 ^ 61)) ∧
         (∀ (spa : Nat) (c' : Line), xlPa e.xl sa = some spa → dcacheGet (getStn b n) (some spa) = some c' →
           descTry p b n k = startMove p (use (use b pa c) spa c') n k o e c.toNat c'.toNat))) ∧
  (∀ (s : State) (n k : Nat),
     (∀ (b : Block) (o : Op), stnRuns s.b n = true → b = tick s.b n k → pageFence b (ordB n) = false →
       ((getStrand b n k).ops.find? (fun x => x.phase = .conflict && !opConflict (getStn b n) k x) = some o →
         exec (.hazardGrant n k) s = .next (s.put (tick (afterConflict b n k o) n k))) ∧
       ((getStrand b n k).ops.find? (fun x => x.phase = .conflict && !opConflict (getStn b n) k x) = none →
         hazWaiter b n k = some o → hazTurn b n k o = true → hazUsed (getStn b n) + o.foots.length ≤ 64 →
         exec (.hazardGrant n k) s = .next (s.put (tick (grantHaz b n k o) n k)))) ∧
     (∀ o : Op, guardOp (getStrand s.b n k) = some o → stnRuns s.b n = true → guardsOver (getStrand s.b n k) = true →
       exec (.guardSatisfied n k) s = .next (s.put (tick (afterGuards s.b n k o) n k))) ∧
     (∀ o : Op, guardOp (getStrand s.b n k) = some o →
       (rbits s.b (nearB n + 0x50) 15 0 ≠ 0 →
         (waitArmed (getStrand s.b n k).guardS = true ∨ waitArmed (getStrand s.b n k).guardD = true) →
         stnFenced s.b n = false → isDead s.b = false →
         exec (.guardTimeout n k) s = .next (s.put (tick (stopAt (dropOp
           (modStrand (dropWaiters s.b n k) n k (fun t => { t with guardS := .none, guardD := .none })) n k o.id) n k o.pc 0x15)
           n k))) ∧
       (waitArmed (getStrand s.b n k).guardS = false → waitArmed (getStrand s.b n k).guardD = false →
         exec (.guardTimeout n k) s = .next (s.put s.b))) ∧
     (∀ o : Op, stnRuns s.b n = true → (getStrand s.b n k).ops.find? (fun o => bindReady s.b n k o) = some o →
       (bindSlots o).all (fun i => !(codecSlot (getStn s.b n) i).loading) = true →
       exec (.codecBind n k) s = .next (s.put (tick (modOp s.b n k o.id (fun x =>
         { x with phase := .res, mv := x.mv.map (fun m => { m with bound := (bindSlots o).map (bindSlot (getStn s.b n)) }) }))
         n k))) ∧
     (∀ (b : Block) (id : Nat) (rest : List (Nat × Nat)) (o : Op) (m : Mv), stnRuns s.b n = true → b = tick s.b n k →
       (getStn b n).resQ = (k, id) :: rest → findOp b n k id = some o → o.mv = some m →
       (burstNext b n k o = true → resFree (getStn b n) m = true →
         exec (.resourceGrant n k) s =
           .next (s.put (tick (beginIssue (setStn b n (giveRes (getStn b n) k id m)) n k id) n k))) ∧
       (burstNext b n k o = false →
         exec (.resourceGrant n k) s =
           .next (s.put (tick (modStn b n (fun st => { st with resQ := st.resQ.erase (k, id) })) n k)))))

/-! ## Bursts (R56 to R58, R227 to R229, R424 to R432) -/

/-- One sclk of the read arbiter and of the write arbiter (R56). A MEM read burst takes the lowest free tag and asks for
its physical line with its byte mask; a MEM write burst takes the lowest free tag and departs with its line, its mask,
its poisoned words (those that a buffer lost among them) and the invalidations that its line needs (R59, R198, R229,
R424). The model's choices in it: log entry 112. -/
def Obligations.BurstsIssue : Prop :=
  (∀ (s : State) (n : Nat), stnRuns s.b n = true →
     exec (.readBurstIssue n) s = .next (s.put (vaultServe (readIssue (tickStn s.b n) n) n)) ∧
     ∀ (corrected : Nat) (beyond : BitVec 2), exec (.writeBurstIssue n corrected beyond) s =
       .next (s.put (writeIssue (tickStn s.b n) n corrected beyond.toNat))) ∧
  (∀ (b : Block) (n k : Nat) (t : Strand) (o : Op) (br : Burst) (pa tag : Nat), br.space = .mem →
     xlPa t.ranges (burstVa br) = some pa →
     (rdTagNew (getStn b n) = some tag →
       tget (getStn (issueRead b n k t o br) n).rdTags tag =
         some ⟨.op k o.id br.opd, strandPart b n k, burstVa br, pa / 128, br.mask⟩) ∧
     (∀ data pois rows : Nat, tfree (getStn b n).wrTags 0 1024 = some tag →
       ∃ w, tget (getStn (issueWrite b n k t o br data pois rows) n).wrTags tag = some w ∧ w.agent = .op k o.id br.opd ∧
         w.wid = b.nextId ∧ w.line = pa / 128 ∧ w.mask = br.mask ∧ w.acked = false ∧ w.failed = false ∧
         w.poison = (poisonWords 128 pois ||| rows) ∧ w.inval = invalOf b (pa / 128)))

/-- A read that returns in good order frees its tag and hands its line to the operation that asked (R425, R427); one that a
soft reset left outstanding is discarded and counted (R67, R74). A write
completion lands the write when no invalidation is due, or leaves it waiting for its invalidations, or fails it (R227 to
R229); a write that has not landed within LAND_TMO fails with cause 3 and is counted (R228). The next invalidation takes
the lowest free identifier; its acknowledgement lands its write when it is the last one; one that is not acknowledged
within INV_TMO fails its write with cause 3 and keeps its identifier (R229, R432). The model's choices in it: log entries
3 and 28. -/
def Obligations.BurstsEnd : Prop :=
  (∀ (s : State) (n tag k id opd : Nat) (data : Line) (rq : RdReq) (b : Block),
     tget (getStn s.b n).rdTags tag = some rq → rq.agent = .op k id opd → (getStn s.b n).stopCode = 0 →
     stnActive s.b n = true →
     b = drained (withRd s.b n (tdel (getStn s.b n).rdTags tag)) n (drainRd tag) →
     exec (.readReturn n tag data ⟨0, 0, 0⟩) s =
       .next (s.put (opReadBack (reserveTag b n) n k id opd .mem rq.va rq.mask data.toNat (fun _ => false) none))) ∧
  (∀ (s : State) (n tag : Nat) (data : Line) (ret : Ret), tget (getStn s.b n).rdTags tag = none →
     (tget (getStn s.b n).oldRd tag).isSome = true →
     ∃ b', b' = drained (withOldRd s.b n (tdel (getStn s.b n).oldRd tag)) n (drainRd tag) ∧
       exec (.readReturn n tag data ret) s = .next (s.put (discardRsp b' n))) ∧
  (∀ (s : State) (n tag : Nat) (w : WrReq), tget (getStn s.b n).wrTags tag = some w → w.acked = false → w.failed = false →
     (w.inval = [] → exec (.writeCompletion (some n) tag 0) s =
       .next (s.put (wrLanded s.par (withWr s.b n (tdel (getStn s.b n).wrTags tag)) n w))) ∧
     (w.inval ≠ [] → ∃ b, b = withWr s.b n (tput (getStn s.b n).wrTags tag { w with acked := true }) ∧
       exec (.writeCompletion (some n) tag 0) s =
         .next (s.put { b with invQ := b.invQ ++ w.inval.map (fun l => (n, w.wid, l)) })) ∧
     (∀ code : BitVec 2, code ≠ 0 → exec (.writeCompletion (some n) tag code) s =
       .next (s.put (wrFailed s.par (withWr s.b n (tdel (getStn s.b n).wrTags tag)) n w
         (128 * w.line) 0))) ∧
     (tag < 1024 → exec (.landTimeout n tag) s =
       .next (s.put (wrFailed s.par (rcount (withWr s.b n (tput (getStn s.b n).wrTags tag { w with failed := true })) (ordB n + 0x54) 1) n w (128 * w.line) 3)))) ∧
  (∀ (s : State),
     (∀ (n wid line id : Nat) (rest : List (Nat × Nat × Nat)), s.b.invQ = (n, wid, line) :: rest →
       tfree s.b.invals 0 256 = some id → hubOn s.b = true →
       exec .invalidationSend s = .next (s.put (count (rcount
         { s.b with invQ := rest, invals := tput s.b.invals id ⟨n, wid, line, false⟩ } (hubB + 0x88) 1) .hub 0x09 1 none))) ∧
     (∀ (id : BitVec 8) (x : Inval) (t : Nat) (w : WrReq), tget s.b.invals id.toNat = some x → x.timed = false →
       wrByWid (getStn s.b x.stn) x.wid = some (t, w) →
       (w.inval = [x.line] → exec (.invalidationAck id) s = .next (s.put (wrLanded s.par
         (withWr { s.b with invals := tdel s.b.invals id.toNat } x.stn (tdel (getStn s.b x.stn).wrTags t)) x.stn w))) ∧
       exec (.invalidationTimeout id) s = .next (s.put (wrFailed s.par
         (withWr (rcount { s.b with invals := tput s.b.invals id.toNat { x with timed := true } } (hubB + 0x8C) 1) x.stn
           (tdel (getStn s.b x.stn).wrTags t)) x.stn w (128 * x.line) 3))))

/-! ## Codec and shaper (R158, R179, R186, R190) -/

/-- The codec decodes and encodes a block that is ready, TLOAD marks its slot LOADING and builds it from a valid table,
and STAT takes its record. The model's choices in it: log entries 25 and 31. -/
def Obligations.CodecAndStatistics : Prop :=
  ∀ (s : State) (n k : Nat) (b : Block), stnRuns s.b n = true → b = tick s.b n k →
    (∀ (o : Op) (m : Mv) (a h : Nat) (q : Bool) (c : Nat) (r : Decoded), (getStrand b n k).ops.findSome? (fun o =>
        if (o.phase = .issue ∨ o.phase = .issued) ∧ !opHeld b n k o then (nextDecode o).map (fun x => (o, x)) else none) =
          some (o, m, a, h, q) →
      c = (getStrand b n k).chan → r = decodeBlock m h q (blockPay m o a h) (blockBaseLine m o a) →
      exec (.blockDecode n k) s = .next (s.put (tick (modOp
        (countCh (countCh (countCh b n c 0x14 1) n c 0x15 (if !q && blockRead m h then hClen h else 0)) n c 0x16
          (if !q && !blockBad (cW m) (mvDelta m) h && !blockStale m h then 128 * hOlines h else 0)) n k o.id
        (fun x => { x with decoded := tput x.decoded (a / 4096) r.elems, cfaults := x.cfaults ++ blockFaults m a q r })) n k))) ∧
    (∀ (o : Op) (m : Mv) (e : EncSpec) (l : List (Nat × Bool)) (blk : EncBlk), (getStrand b n k).ops.findSome? (fun o =>
        if o.phase = .issue ∧ !opHeld b n k o then (nextEncode o).map (fun x => (o, x)) else none) = some (o, m, e, l) →
      blk = encodeBlock (mvWd m) (cEmode m.side) e.place e.lines l →
      exec (.blockEncode n k) s = .next (s.put (tick (modOp
        (countCh b n (getStrand b n k).chan 0x16 blk.payload.length) n k o.id
        (fun x => { x with encoded := x.encoded ++ [blk] })) n k))) ∧
    (∀ (o : Op), (getStrand s.b n k).ops.find? (fun o => o.kind = .tload && o.phase = .bind) = some o →
      earlierBound (getStrand s.b n k) o = true → opHeld s.b n k o = false → (getStn s.b n).tloads = [(tloadSlot o, k, o.id)] →
      (codecSlot (getStn s.b n) (tloadSlot o)).loading = false → bindersHeld s.b n (tloadSlot o) = false →
      tloadSlot o < (getStn s.b n).slots.length →
      ∃ b', b' = modOp (withSlots s.b n ((getStn s.b n).slots.set (tloadSlot o)
          { codecSlot (getStn s.b n) (tloadSlot o) with loading := true })) n k o.id (fun x => { x with marked := true }) ∧
        exec (.tloadMarkLoading n k) s = .next (s.put (tick
          (if slotBound b' n (tloadSlot o) = 0 then modOp b' n k o.id (fun x => { x with phase := .issue }) else b') n k))) ∧
    (∀ (o : Op), (getStrand s.b n k).ops.find? (fun o => o.kind = .tload && tableHere (getStn s.b n) k o && !opHeld s.b n k o) = some o →
      ∀ (t0 t1 : Nat) (byte : Nat → Nat), (gotNum o.got 9 o.desc 8).map (·.1) = some t0 →
      (gotNum o.got 9 (o.desc + 8) 8).map (·.1) = some t1 →
      byte = (fun j => ((gotByte o.got 9 (o.desc + j)).map (·.1)).getD 0) → tabValid t0 t1 byte = true →
      ∃ b', b' = modStn (withSlots s.b n ((getStn s.b n).slots.set (tloadSlot o)
          ⟨true, false, bits o.w0.toNat 23 16, tabSyms t0 byte, tabEsc t0⟩)) n
          (fun st => { st with tloads := st.tloads.filter (fun e => e.2 ≠ (k, o.id)) }) ∧
        exec (.tloadTableBuilt n k) s = .next (s.put (tick (relHaz (opRemove (modStrand b' n k
          (fun t => { t with blocked := if t.blocked = .tload then .no else t.blocked })) n k o.id) n) n k))) ∧
    (∀ (o : Op) (t : Strand), t = getStrand s.b n k → t.ops.find? (fun o => o.kind = .stat && o.phase = .res) = some o →
      (t.ops.takeWhile (fun x => x.id ≠ o.id)).all shaperOver = true → opHeld s.b n k o = false → bit o.w0.toNat 8 = false →
      bit o.w0.toNat 9 = false → bit o.w0.toNat 10 = true →
      exec (.statRecord n k) s = .next (s.put (tick (modOp s.b n k o.id (fun x =>
        { x with phase := .issue, elem := some (wordsNum (statRecord t.stats k false (bits o.w0.toNat 21 16) t.seq)) })) n k)))

/-! ## The near port (R195 to R205, R430) -/

/-- A frame mark makes the next slot slot 0; a late one trips the clock monitor (R195, R440). A slot advances the frame; a
slot that Bunar does not own, or that comes while the port does not run, does nothing else; an owned slot serves the
locked stream, a write or a read as NEAR_CFG says (R196, R197, R204). A locked slot carries the oldest staged line,
which departs; without one it is late when the stream still holds a line, and NEAR_LATE counts it (R204). A row of it
that the corrector finds beyond correction departs poisoned, and its line takes an access fault (R198, R214). The
model's choices in it: log entries 108, 135 and 136. -/
def Obligations.NearPort : Prop :=
  (∀ (s : State) (n k : Nat) (b : Block), k = (getStn s.b n).slot →
     b = setStn s.b n { getStn s.b n with slot := (k + 1) % 8 } →
     exec (.frameSync n true) s = .next (s.put (setStn s.b n { getStn s.b n with slot := 0 })) ∧
     exec (.frameSync n false) s = .next (s.put (senseEv (setStn s.b n { getStn s.b n with slot := 0 }) 0x54)) ∧
     (∀ (corrected : Nat) (beyond : BitVec 4),
       ((nearRuns b n = false ∨ bit (nearOwn b n) k = false) →
         exec (.nearSlot n corrected beyond) s = .next (s.put b)) ∧
       (nearRuns b n = true → bit (nearOwn b n) k = true → ∀ b', b' = tickStn b n →
         (bit (nearLock b' n) k = true → (lockChan b' n).isSome = true →
           exec (.nearSlot n corrected beyond) s = .next (s.put (lockedSlot b' n corrected beyond.toNat))) ∧
         (bit (nearLock b' n) k = false → bit (nearWrs b' n) k = true →
           exec (.nearSlot n corrected beyond) s = .next (s.put (freeWrite b' n corrected beyond.toNat))) ∧
         (bit (nearLock b' n) k = false → bit (nearWrs b' n) k = false →
           exec (.nearSlot n corrected beyond) s = .next (s.put (freeRead b' n))))) ∧
     (nearRuns s.b n = true → exec (.lineStaged n) s = .next (s.put (stageLine (tickStn s.b n) n)))) ∧
  (∀ (b : Block) (n : Nat),
     (∀ (l : NearLine) (rest : List NearLine) (corrected rows : Nat), (getStn b n).staged = l :: rest →
       ∃ b' : Block, (getStn b' n).staged = rest ∧
         (getStn b' n).nearWr = (getStn b n).nearWr ++
           [{ markRows l (rows &&& poisonWords 256 l.mask) with wid := b.nextId }] ∧
         ∃ c : Block, c = (if rows &&& poisonWords 256 l.mask = 0 ∨ l.link.isSome = true then b'
             else bufferFault b' n l.strand l.op (256 * l.line)) ∧
           lockedSlot b n corrected rows = (if l.strand < 256 then tick c n l.strand else c)) ∧
     ((getStn b n).staged = [] → streamLive b n = true → ∀ corrected rows : Nat,
       lockedSlot b n corrected rows = count (rcount b (nearB n + 0x58) 1) (.station n) 0x0A 1 none))

/-- The tile answers reads and writes in order: the oldest outstanding access takes the answer (R198, R199). The model's
choices in it: log entry 28. -/
def Obligations.TileAnswers : Prop :=
  ∀ (s : State) (n : Nat) (l : NearLine) (rest : List NearLine), l.link = none →
    ((getStn s.b n).nearRd = l :: rest → stnDiscards s.b n = false →
      ∀ (data : SLine) (corrected : Nat) (b : Block),
        b = count (rcount (setStn s.b n { getStn s.b n with nearRd := rest }) (nearB n + 0x5C) corrected) (.station n) 0x17
          corrected none →
        exec (.nearReadData n data ⟨0, 0, 0⟩ corrected false) s =
          .next (s.put (opReadBack b n l.strand l.op l.opd .scratch (256 * l.line) l.mask data.toNat (fun _ => false) none))) ∧
    ((getStn s.b n).nearWr = l :: rest → ∀ b, b = setStn s.b n { getStn s.b n with nearWr := rest } →
      exec (.nearWriteAck n false) s = .next (s.put (tick b n l.strand)) ∧
      exec (.nearWriteAck n true) s =
        .next (s.put (tick (opWriteFail b n l.strand l.op (256 * l.line) 0 false) n l.strand)) ∧
      exec (.nearAckMissing n) s =
        .next (s.put (tick (opWriteFail b n l.strand l.op (256 * l.line) 3 false) n l.strand)))

/-! ## Tallies (R231 to R235, R245 to R256) -/

/-- The oldest pending signal of a strand fires when its condition holds, and becomes an addition on its way (R99, R100,
R248). -/
def Obligations.SignalFires : Prop :=
  ∀ (s : State) (n k : Nat) (b : Block) (t : Strand) (g : Sig) (rest : List Sig), stnRuns s.b n = true →
    b = tick s.b n k → t = getStrand b n k → t.sigs = g :: rest → sigMet (getStn b n) k t g = true →
    ∃ b', b' = setStrand b n k { t with sigs := rest } ∧ exec (.signalFire n k) s = .next (s.put { b' with
      adds := b'.adds ++ [⟨.station n, g.tally, g.amount, some n, scopeOf g.scope,
        if g.cond = 1 then .system else .station, none⟩] })

/-- The additions that have reached a tally, those behind an earlier one of their source to another tally of the same unit
excepted, apply as one sum modulo 2^48, and their releases enter the tally; the tally's waiters are then tested and
the acknowledgements of inbound writes leave (R231, R235, R248, R250, R254). A poisoned tally discards them (R255).
Those to a local tally of a station that is not active join the hub's wake queue, and ask for a thaw when their sum
satisfies a waiter; a 65th tally of that queue asks for the thaw first (R251). One to a global tally powers a sleeping
hub core up (R376). The model's choices in it: log entries 119 and 120. -/
def Obligations.TallyAdditions : Prop :=
  (∀ (t : Nat) (adds l rest : List Add), takeAdds t [] adds = (l, rest) →
     (∀ a ∈ l, a.tally = t) ∧ l.length + rest.length = adds.length ∧
     ((∀ a ∈ adds, ∀ e ∈ adds, a.tally = t → e.tally ≠ t → sameSrc e.src a.src = true → talStn e.tally ≠ talStn t) →
       l = adds.filter (fun a => a.tally = t) ∧ rest = adds.filter (fun a => a.tally ≠ t)) ∧
     (∀ (e : Add) (r : List Add), adds = e :: r → e.tally ≠ t → talStn e.tally = talStn t →
       (∀ a ∈ r, sameSrc e.src a.src = true) → l = [])) ∧
  (∀ (s : State) (t : Nat) (l rest : List Add) (b : Block), takeAdds t [] s.b.adds = (l, rest) → l ≠ [] →
     isDead s.b = false → b = { s.b with adds := rest } →
     (talStn t = none → hubOn s.b = true →
       exec (.tallyAddition t) s = .next (s.put (sendAcks (applyAdds b t l) l))) ∧
     (talStn t = none → hubOn s.b = false →
       exec (.tallyAddition t) s = .next (s.put (modPwr s.b (fun w => { w with hubGoingUp := true })))) ∧
     (∀ n : Nat, talStn t = some n →
       (stnActive s.b n = true →
         exec (.tallyAddition t) s = .next (s.put (sendAcks (applyAdds b t l) l))) ∧
       (stnActive s.b n = false → wakeFull (getStn s.b n) t = false →
         exec (.tallyAddition t) s = .next (s.put (sendAcks (wakeAdds b n t l) l))) ∧
       (stnActive s.b n = false → wakeFull (getStn s.b n) t = true →
         exec (.tallyAddition t) s = .next (s.put (reqThaw s.b n))))) ∧
  (∀ (b : Block) (t : Nat) (l : List Add),
     ((getTal b t).poison = true → applyAdds b t l = b) ∧
     ((getTal b t).poison = false →
       (getTal (applyAdds b t l) t).value.toNat = ((getTal b t).value.toNat + addSum l) % 2 ^ 48 ∧
         (getTal (applyAdds b t l) t).rels = (getTal b t).rels ++
           (l.zipIdx).filterMap (fun e => relOf e.1 (b.nextId + e.2)))) ∧
  (∀ (b : Block) (n t : Nat) (l : List Add),
     tget (getStn (wakeAdds b n t l) n).wakeQ t = some (tgetD (getStn b n).wakeQ t [] ++ l) ∧
       (wakeAdds b n t l).tallies = b.tallies ∧
       (wakeMeets (getTal b t) (addSum (tgetD (getStn b n).wakeQ t [] ++ l)) = true → (getStn b n).power ≠ .active →
         (getStn (wakeAdds b n t l) n).wakeReq = true))

/-- A tally whose value is beyond correction is poisoned, keeps its value, loses its waiters and is counted; then each of
those waiters, in the order of their registration, stops its strand at its WAIT, expires its guard or fails its
global-operation slot (R255). The model's choices in it: log entry 27. -/
def Obligations.TallyPoisoned : Prop :=
  (∀ (s : State) (t : Nat), talExists s.par t = true →
     ∃ b : Block, exec (.tallyPoison t) s = .next (s.put (forEach (getTal s.b t).waiters b poisonWaiter)) ∧
       getTal b t = { getTal s.b t with waiters := [], poison := true } ∧ b.strands = s.b.strands ∧
       b.stations = s.b.stations ∧ b.gops = s.b.gops ∧ bit (rget b (talPage t + 0x10)) 7 = true ∧
       (rget s.b (talPage t + 0x44) < 0xFFFFFFFF → rget b (talPage t + 0x44) = rget s.b (talPage t + 0x44) + 1)) ∧
  (∀ (b : Block) (w : Waiter),
     (∀ i : Nat, w.kind = .gop i → poisonWaiter b w = gopFail b i 5) ∧
     (w.kind = .wait → poisonWaiter b w = tick (reqThaw (stopAt b w.stn w.strand
       ((getStrand b w.stn w.strand).pc - 16) 0x15) w.stn) w.stn w.strand) ∧
     (∀ o : Op, (w.kind = .gsrc ∨ w.kind = .gdst) → guardOp (getStrand b w.stn w.strand) = some o →
       poisonWaiter b w = tick (guardExpire b w.stn w.strand o) w.stn w.strand))

/-- The threshold test of R97 is the signed comparison modulo 2^48: a value from the threshold up to 2^47 − 1 beyond it
meets it, and every other value does not. -/
def Obligations.ThresholdTest : Prop :=
  ∀ v thr : Nat, v < 2 ^ 48 → thr < 2 ^ 48 →
    (talMet v thr = true ↔ ∃ d, d < 2 ^ 47 ∧ v = (thr + d) % 2 ^ 48)

/-- Landing barriers begin and report; an acquire that is settled lets its wait end; a WAIT that expires stops its strand
at the WAIT with STRAND_STOP, detaches the strand from the fault records it waits for and asks for a thaw (R98, R233,
R234, R278). A barrier covers every write that has departed and not landed when it begins, and every release numbered
below it (R234). The model's choices in it: log entries 3 and 26. -/
def Obligations.BarriersAndWaits : Prop :=
  (∀ (s : State) (n k : Nat), isDead s.b = false →
     exec (.landingBarrier n) s = .next (s.put (beginBarrier s.b n)) ∧
     exec (.barrierReport n) s = .next (s.put (reportBarrier s.b n)) ∧
     ((getStrand s.b n k).entry.isSome = true → stnFenced s.b n = false → ∀ a : Acq,
       (getStrand s.b n k).wait = .acquiring a → acqSettled s.b a = true → (getStrand s.b n k).blocked = .wait →
       ∃ t, exec (.acquireComplete n k) s = .next t ∧ (getStrand t.b n k).wait = .none ∧ (getStrand t.b n k).blocked = .no) ∧
     (stnFenced s.b n = false → ∀ (tal thr sc : Nat), (getStrand s.b n k).wait = .armed tal thr sc →
       (getStrand s.b n k).waitTmo ≠ 0 →
       exec (.waitTimeout n k) s = .next (s.put (tick (reqThaw (detachOps
         (stopAt s.b n k ((getStrand s.b n k).pc - 16) 0x15) n k) n) n k)))) ∧
  (∀ (b : Block) (n : Nat), (getStn b n).barReq ≠ [] →
     ∃ br, (getStn (beginBarrier b n) n).barriers = (getStn b n).barriers ++ [br] ∧
       (getStn (beginBarrier b n) n).barReq = [] ∧ br.tallies = (getStn b n).barReq ∧ br.mark = b.nextId ∧
       (∀ e ∈ (getStn b n).wrTags, e.2.failed = false → e.2.wid ∈ br.wids) ∧
       (∀ e ∈ (getStn b n).vWrTags, e.2.wid ∈ br.wids) ∧ (∀ e ∈ (getStn b n).nearWr, e.wid ∈ br.wids) ∧
       (∀ e ∈ (getStn b n).wWrTags, e.2.wid ∈ br.far))

/-! ## Range translation (R258 to R278) -/

/-- Walk requests, walks that end, batches and retries advance as R261 to R274 state; a walk whose read failed breaks its
partition (R276), and the result of one that a revoking switch overtook is discarded (R268). The oldest forecast record
lands: the producer index passes it and the queue loses it (R274). -/
def Obligations.TranslationCommands : Prop :=
  (∀ (s : State) (p : Nat), hubOn s.b = true →
     (∀ (x : Need) (n c : Nat), hubWorks s.b = true →
       (partNeeds s.par s.b p).filter (fun y => y.va / 65536 = x.va / 65536) = [x] → x.req = .chan n c → x.va < 2 ^ 57 →
       partOn s.b p = true → s.b.walks = [] →
       exec (.walkRequest p x.va) s = .next (s.put (startWalkers
         { s.b with walks := [⟨none, p, x.va, x.hi, x.write, x.cause, [x.req], false, false⟩] }))) ∧
     (∀ (w : Walk) (group : List TabEntry) (va : Nat), walksRun s.b = true →
       s.b.walks.find? (fun w => w.running && w.part = p && w.va / 65536 = va / 65536) = some w →
       ∀ (b : Block) (m : Nat), b = { s.b with walks := s.b.walks.filter (fun v => v ≠ w) } →
       m = (if w.addr.isNone then 0 else group.length) →
       (w.stale = true → exec (.walkDone p va group false) s = .next (s.put (startWalkers (walkEnd b false m)))) ∧
       (∀ l, w.stale = false → walkFind w.addr.isNone w.va w.hi group = .hit l →
         exec (.walkDone p va group false) s = .next (s.put (startWalkers (forEach w.reqs (walkEnd b false m)
           (fun b r => giveHit s.par b r l))))) ∧
       (∀ a, w.stale = false → walkFind w.addr.isNone w.va w.hi group = .miss a →
         exec (.walkDone p va group false) s =
           .next (s.put (startWalkers (missed (walkEnd b true m) p w a)))) ∧
       (∀ a, w.addr = some a →
         exec (.walkDone p va group true) s = .next (s.put (startWalkers (breakPart { s.b with walks := s.b.walks.map (fun v =>
           if v = w then { w with running := false, stale := false, addr := none } else v) } p a))))) ∧
     (hubWorks s.b = true → exec (.batchClose p) s = .next (s.put (batchClose s.b p))) ∧
     (p < 16 → ∀ (f : FRec) (mine : FRec → Bool), (getPart s.b p).recs.find? (fun r => r.phase = .closed) = some f →
       mine = (fun r => r.phase = .closed && r.batch = f.batch) →
       ∀ m, m = ((getPart s.b p).recs.filter mine).length →
       ∀ x : Part, x = { getPart s.b p with
         recs := (getPart s.b p).recs.map (fun r => if mine r then { r with phase := .written } else r)
         fqProd := ((getPart s.b p).fqProd + m) % 2 ^ 32 } →
       exec (.batchLanded p false) s = .next (s.put (setCause (count (setPart s.b p x) .hub 0x06 m none) (1536 + p) 1))) ∧
     (∀ (r : FRec) (group : List TabEntry) (l : List Xl), walksRun s.b = true →
       (getPart s.b p).recs.find? (fun f => f.phase = .retry && f.idx = r.idx) = some r → (getPart s.b p).cur = none →
       (getPart s.b p).pend = none → (getPart s.b p).st ≠ .broken → partOn s.b p = true →
       ∀ (b : Block) (m : Nat) (a : Option Nat), a = walkAddr (getPart s.b p) r.va →
       b = setPart s.b p { getPart s.b p with recs := (getPart s.b p).recs.filter (fun f => f ≠ r) } →
       m = (if a.isNone then 0 else group.length) →
       (walkFind a.isNone r.va (r.va + 65535) group = .hit l →
         exec (.retryWalk p r.idx group false) s = .next (s.put (forEach r.reqs (walkEnd b false m)
           (fun b y => giveHit s.par b y l)))) ∧
       (∀ x, walkFind a.isNone r.va (r.va + 65535) group = .miss x →
         exec (.retryWalk p r.idx group false) s = .next (s.put (forEach r.reqs (walkEnd b true m)
           (fun b y => giveOffside s.par b y (some (r.va / 65536 * 65536)))))))) ∧
  (∀ (s : State) (p : Nat) (r : FcRec) (rest : List FcRec), hubOn s.b = true → p < 16 → (getPart s.b p).fcQ = r :: rest →
     ∃ t, exec (.forecastLanded p false) s = .next t ∧ (getPart t.b p).fcQ = rest ∧
       (getPart t.b p).fcProd = (r.seq + 1) % 2 ^ 32)

/-- A commit reads its table into the standby bank, switches, and a plain one is complete at the switch; a revoking one
marks every translation stale and completes when the bursts issued under them are served (R267, R268). After a commit
is done its partition is READY, or BROKEN where a walk broke it since the switch (R277), with no failure, and COMMIT
is latched in its causes (R267, R279). The model's choices in it: log entries 32, 33 and 34. -/
def Obligations.Commits : Prop :=
  (∀ (s : State) (p : Nat) (c : Commit), hubWorks s.b = true → pageFence s.b xlatB = false → (getPart s.b p).cur = some c →
     (∀ table : List TabEntry, c.stage = 0 → s.b.standby = none → s.b.commitQ.head? = some p → c.tbase % 512 = 0 →
       c.tcount ≤ 65536 → table.length = c.tcount → tableErr 0 table = 0 →
       exec (.commitStart p table false) s = .next (s.put (modPart (count { s.b with standby := some p } .hub 0x0C
         (32 * c.tcount) none) p (fun x => { x with cur := some { c with stage := 1, keys := tableKeys table } })))) ∧
     (∀ x : Part, c.stage = 1 → c.revoke = false → x = { getPart s.b p with
         table := some (c.tbase, c.tcount), keys := c.keys, gen := ((getPart s.b p).gen + 1) % 65536
         st := .draining, cur := some { c with stage := 2, before := .ready }, drain := [] } →
       exec (.commitSwitch p) s = .next (s.put (startWalkers (commitDone
         { setPart s.b p x with standby := none, commitQ := s.b.commitQ.filter (· ≠ p) } p)))) ∧
     (∀ (x : Part) (b : Block), c.stage = 1 → c.revoke = true → x = { getPart s.b p with
         table := some (c.tbase, c.tcount), keys := c.keys, gen := ((getPart s.b p).gen + 1) % 65536
         st := .draining, cur := some { c with stage := 2, before := .ready }, drain := staleBursts s.b p } →
       b = markStale { setPart s.b p x with standby := none, commitQ := s.b.commitQ.filter (· ≠ p) } p →
       exec (.commitSwitch p) s = .next (s.put (startWalkers { b with
         walks := b.walks.map (fun w => if w.part = p && w.running then { w with stale := true } else w) }))) ∧
     (c.stage = 2 → (getPart s.b p).drain = [] → exec (.commitDrained p) s = .next (s.put (commitDone s.b p)))) ∧
  (∀ (b : Block) (p : Nat), p < 16 → (getPart b p).pend = none →
     ((getPart b p).cur = none → (getPart (commitDone b p) p).st = .ready) ∧
     (∀ c, (getPart b p).cur = some c → (getPart (commitDone b p) p).st = c.before) ∧
     (getPart (commitDone b p) p).cerr = 0 ∧
       (getPart (commitDone b p) p).cur = none ∧ bit (rget (commitDone b p) (xpR p 0x44)) 2 = true)

/-! ## The configuration port (R31 to R41) -/

/-- Doorbell writes, enables, disables and resumes of a channel that the port answers (R46, R47, R65, R69). A doorbell
write of a tail within the ring and its window moves the tail and nothing else of a disabled channel; of an enabled
one it lets the channel accept (R46). A tail outside stops the channel with BAD_TAIL (R47). The model's choices in it:
log entries 17, 19, 20, 100 and 102. -/
def Obligations.ChannelWrites : Prop :=
  (∀ (s : State) (n c : Nat) (w : Word) (a : Attr) (r : RegRow) (b : Block), n < 48 → c < 32 → b = counted s.b →
     (takesWrite s.par s.b (wacc (dbellB n c + 0x40) w.toNat a) (.dbell n c) r = true →
       exec (.doorbellWrite n c w a) s = .next (s.put (wrote (doorbell s.par b n c w) (dbellB n c + 0x40)))) ∧
     (∀ v : Nat, v = w.toNat ||| 1 → takesWrite s.par s.b (wacc (chR n c 0) v a) (.chan n) r = true →
       chEnable b n c = false → bit v 1 = false →
       exec (.channelEnable n c w a) s =
         .next (s.put (wrote (chEnableOn s.par (rset b (chR n c 0) (v &&& 0xF3D)) n c) (chR n c 0)))) ∧
     (∀ v : Nat, v = clearBits w.toNat 1 → takesWrite s.par s.b (wacc (chR n c 0) v a) (.chan n) r = true →
       chEnable b n c = true → bit v 1 = false →
       exec (.channelDisable n c w a) s =
         .next (s.put (wrote (chDisable s.par (rset b (chR n c 0) (v &&& 0xF3D)) n c) (chR n c 0)))) ∧
     (∀ v : Nat, v = w.toNat ||| 2 → takesWrite s.par s.b (wacc (chR n c 0) v a) (.chan n) r = true →
       (getChan b n c).st = .stopped → chEnable b n c = bit v 0 →
       exec (.resume n c w a) s =
         .next (s.put (wrote (chResume s.par (rset b (chR n c 0) (v &&& 0xF3D)) n c) (chR n c 0))))) ∧
  (∀ (p : Params) (b : Block) (n c : Nat) (t : Word) (x : Chan) (size : Nat), x = getChan b n c → size = 2 ^ chLog2 b n c →
     (t = x.tail → doorbell p b n c t = b) ∧
     (t ≠ x.tail → (t - x.tail).toNat ≤ size → (t - x.done).toNat ≤ size →
       (x.st = .disabled → doorbell p b n c t = setChan b n c { x with tail := t }) ∧
       (x.st ≠ .disabled → chAccepts (setChan b n c { x with tail := t }) n c = false →
         doorbell p b n c t = pump p (setChan b n c { x with tail := t }) n c)) ∧
     (t ≠ x.tail → (size < (t - x.tail).toNat ∨ size < (t - x.done).toNat) → x.st ≠ .disabled →
       doorbell p b n c t = stopChan b n c 0x31 none))

/-- A write of 1 bits to a cause register, to a tally's TAL_ADD and to a tally's TAL_VAL pair (R64, R231, R255). The
model's choices in it: log entries 94 and 100. -/
def Obligations.CauseAndTallyWrites : Prop :=
  ∀ (s : State) (a : Attr) (b : Block), b = counted s.b →
    (∀ (addr : BitVec 24) (w : Word) (pg : Page) (r : RegRow) (v : Nat), addr.toNat % 4 = 0 →
      takesWrite s.par s.b (wacc addr.toNat w.toNat a) pg r = true → causeVec pg (addr.toNat % 0x1000) = some v →
      exec (.interruptCauseClear addr w a) s = .next (s.put (wrote (clearCause b v w.toNat) (codeAddr addr.toNat r)))) ∧
    (∀ (t : Nat) (w : Word) (r : RegRow), t < 32768 → takesWrite s.par s.b (wacc (talAddAt t) w.toNat a) (talPg t) r = true →
      exec (.talAdd t w a) s = .next (s.put (wrote (if w = 0 then b else
        applyAdds b t [{ src := .gop, tally := t, amount := w.toNat, stn := none, declared := .chip, settled := .chip,
                         ack := none }]) (talAddAt t)))) ∧
    (∀ (t : Nat) (v : DWord) (rl rh : RegRow), t < 32768 →
      takesPair s.par s.b (talValAt t) (lo32 v.toNat) (hi32 v.toNat) a (talPg t) rl rh = true →
      ∃ b', b' = unshadowed (shadowed s.b (talValAt t) (BitVec.ofNat 32 (lo32 v.toNat))) (talValAt t) ∧
        exec (.talVal t v a) s = .next (s.put (wrote (talValWrite b' t v.toNat) (talValAt t))))

/-- Fault resolutions, commits, disables and host forecasts of a partition (R267, R272, R274, R278). ENABLE of a port and
EN of a global-operation slot (R300, R308, R315). The model's choices in it: log entries 40, 48, 100 and 102. -/
def Obligations.PartitionAndLinkWrites : Prop :=
  (∀ (s : State) (p : Nat) (w : Word) (a : Attr) (r : RegRow) (b : Block), p < 16 → b = counted s.b →
     (takesWrite s.par s.b (wacc (xpR p 0x24) w.toNat a) .xlat r = true →
       exec (.faultResolve p w a) s = .next (s.put (wrote (fqResolve b p w.toNat) (xpR p 0x24)))) ∧
     (∀ v : Nat, v = clearBits (w.toNat ||| 2) 4 → takesWrite s.par s.b (wacc (xpR p 0) v a) .xlat r = true →
       partOn b p = bit v 0 →
       exec (.commit p w a) s = .next (s.put (wrote (commitReq (rset b (xpR p 0) (v &&& 1)) p false) (xpR p 0)))) ∧
     (∀ v : Nat, v = w.toNat ||| 6 → takesWrite s.par s.b (wacc (xpR p 0) v a) .xlat r = true → partOn b p = bit v 0 →
       exec (.revokingCommit p w a) s = .next (s.put (wrote (commitReq (rset b (xpR p 0) (v &&& 1)) p true) (xpR p 0)))) ∧
     (∀ v : Nat, v = clearBits w.toNat 1 → takesWrite s.par s.b (wacc (xpR p 0) v a) .xlat r = true → partOn b p = true →
       bit v 1 = false →
       exec (.xlatDisable p w a) s = .next (s.put (wrote (xlatOff s.par (rset b (xpR p 0) 0) p) (xpR p 0)))) ∧
     (takesWrite s.par s.b (wacc (partB p + 0x4C) w.toNat a) (.part p) r = true →
       exec (.padvPost p w a) s = .next (s.put (wrote
         (fcAdvise b p (rget64 b (partB p + 0x40)) (rget b (partB p + 0x48)) (bits w.toNat 2 0) true 0 0) (partB p + 0x4C))))) ∧
  (∀ (s : State) (p : Nat) (a : Attr) (r : RegRow) (b : Block) (c : Nat), b = counted s.b →
     c = rget s.b (lportB p + 8) → c = rget b (lportB p + 8) →
     (p < 4 → takesCtrl s.par s.b (wacc (lportB p + 8) ((c &&& 2) ||| 1) a) (.lport p) r = true → bit c 0 = false →
       ∃ v, v = ((c &&& 2) + 1) + (c &&& 4) + (c &&& 8) ∧
         exec (.portEnable p a) s = .next (s.put (wrote (portOn s.par (rset b (lportB p + 8) v) p) (lportB p + 8)))) ∧
     (p < 4 → takesCtrl s.par s.b (wacc (lportB p + 8) (c &&& 2) a) (.lport p) r = true → bit c 0 = true →
       ∃ v, v = (c &&& 2) + (c &&& 4) + (c &&& 8) ∧
         exec (.portDisable p a) s = .next (s.put (wrote (portOffReq (rset b (lportB p + 8) v) p) (lportB p + 8)))) ∧
     (∀ (j : Nat) (w : Word) (g : Block), j < 8 → takesWrite s.par s.b (wacc (gopR j 0) w.toNat a) .link r = true →
       g = rset b (gopR j 0) (mergeBits (rget b (gopR j 0)) w.toNat 0xE) →
       (bit w.toNat 0 = false ∨ gopEn b j = true ∨ gopBadTally s.par g j = none) →
       exec (.gopEnable j w a) s = .next (s.put (wrote (gopSetEn s.par g j (bit w.toNat 0)) (gopR j 0)))))

/-- The commands that the driver gives the vault while it is not busy (R324, R332 to R336). The model's choices in it: log
entries 10, 93 and 100. -/
def Obligations.VaultCommandWrites : Prop :=
  ∀ (s : State) (obj : Nat) (a : Attr) (r : RegRow) (b : Block) (op : Nat) (o : Nat), obj < 4096 → op < 8 →
    takesWrite s.par s.b (wacc (vaultB + 0x48) (op + o * 2 ^ 8) a) .vault r = true → o = (if op = 4 then 0 else obj) →
    s.b.vault.busy = 0 → b = rset (counted s.b) (vaultB + 0x48) (o * 2 ^ 8) →
    (op = 1 → exec (.create obj a) s = .next (s.put (wrote (cmdCreate s.par b obj) (vaultB + 0x48)))) ∧
    (∀ headers : List DWord, op = 2 →
      exec (.close obj headers a) s = .next (s.put (wrote (cmdClose b obj headers) (vaultB + 0x48)))) ∧
    (op = 3 → exec (.delete obj a) s = .next (s.put (wrote (cmdDelete b obj) (vaultB + 0x48)))) ∧
    (∀ (g : Bool) (bad : List (Nat × Nat)), op = 4 →
      exec (.format g bad a) s = .next (s.put (wrote (cmdFormat s.par b g bad) (vaultB + 0x48))))

/-- The collector's registers: sources return to service, a record leaves the queue, the front record is shown, and the
driver asks for dead ball (R346, R354, R361, R362). The model's choices in it: log entries 99, 100, 102 and 107. -/
def Obligations.CollectorAccesses : Prop :=
  ∀ (s : State) (a : Attr) (r rh : RegRow) (b : Block), b = counted s.b →
    (∀ w : DWord, takesPair s.par s.b (fcB + 0x40) (lo32 w.toNat) (hi32 w.toNat) a .fc r rh = true →
      ∃ b', b' = unshadowed (shadowed s.b (fcB + 0x40) (BitVec.ofNat 32 (lo32 w.toNat))) (fcB + 0x40) ∧
        exec (.fcStatusClear w a) s = .next (s.put (wrote (fcStatusWrite b' w.toNat) (fcB + 0x40)))) ∧
    (∀ w : Word, takesWrite s.par s.b (wacc (fcB + 0xA0) w.toNat a) .fc r = true →
      exec (.fcPop w a) s = .next (s.put (wrote (popRec b) (fcB + 0xA0)))) ∧
    (takesRead s.par s.b (racc (fcB + 0x80) a) .fc r = true → r.pair = 0 →
      exec (.fcRecLatch a) s = .next (s.put (respond (latchRec b) .ok (readReg s.par (latchRec b) .fc 0x80)))) ∧
    (∀ c : Nat, c = (rget s.b (fcB + 8) &&& 1) ||| 2 → takesCtrl s.par s.b (wacc (fcB + 8) c a) .fc r = true →
      exec (.driverDb a) s = .next (s.put (wrote (srcEvent (rsetBits b (fcB + 8) 2)
        { src := srcColl, kind := 0x59, unit := noUnit, addr := 0, detail := BitVec.ofNat 64 (5 * 2 ^ 32) }) (fcB + 8))))

/-- The commands that write PAGE_CTRL of a page, where the page takes the write (R28 to R30, R35, R346). The model's
choices in it: log entries 81, 90, 91, 100 and 102. -/
def Obligations.PageControlWrites : Prop :=
  ∀ (s : State) (page : BitVec 24) (a : Attr) (pg : Page) (r : RegRow) (base c : Nat), base = page.toNat / 0x1000 * 0x1000 →
    c = rget s.b (base + 8) →
    (takesCtrl s.par s.b (wacc (base + 8) ((c &&& 3) ||| 4) a) pg r = true →
      exec (.softReset page a) s = .next (s.put (wrote (ctrlWrite s.par (counted s.b) pg ((c &&& 3) ||| 4)) (base + 8)))) ∧
    (takesCtrl s.par s.b (wacc (base + 8) ((c &&& 1) ||| 2) a) pg r = true →
      exec (.fenceSet page a) s = .next (s.put (wrote (ctrlWrite s.par (counted s.b) pg ((c &&& 1) ||| 2)) (base + 8)))) ∧
    (takesCtrl s.par s.b (wacc (base + 8) ((c &&& 1) ||| 0) a) pg r = true →
      exec (.fenceClear page a) s = .next (s.put (wrote (ctrlWrite s.par (counted s.b) pg (c &&& 1)) (base + 8)))) ∧
    (takesCtrl s.par s.b (wacc (base + 8) ((c &&& 3) ||| 8) a) pg r = true →
      exec (.lock page a) s = .next (s.put (wrote (ctrlWrite s.par (counted s.b) pg ((c &&& 3) ||| 8)) (base + 8)))) ∧
    (∀ w : Word, meetsWrite s.par s.b (wacc (base + 0x10) w.toNat a) pg r = true →
      exec (.pageErrClear page w a) s = .next (s.put (wrote (rclrBits (counted s.b) (base + 0x10) (w.toNat &&& 0x103FF))
        (codeAddr (base + 0x10) r))))

/-- A write, and a read, of any register that the port answers; the halves of a pair go through the shadows (R32 to R35).
The model's choices in it: log entries 92 and 100. -/
def Obligations.RegisterAccesses : Prop :=
  ∀ (s : State) (addr : BitVec 24) (w : Word) (a : Attr) (pg : Page) (r : RegRow) (off : Nat) (b : Block),
    addr.toNat % 4 = 0 → off = addr.toNat % 0x1000 → b = counted s.b →
    (∀ b' x, takesWrite s.par s.b (wacc addr.toNat w.toNat a) pg r = true →
      regWrite s.par b pg off r w.toNat none = (.ok b', x) →
      exec (.registerWrite addr w a) s = .next (s.put (wrote b' addr.toNat))) ∧
    (meetsWrite s.par s.b (wacc addr.toNat w.toNat a) pg r = true → r.pair = 1 → off ≠ 8 → off ≠ 0x10 →
      exec (.wideWriteShadow addr w a) s = .next (s.put (shadowed s.b addr.toNat w))) ∧
    (takesRead s.par s.b (racc addr.toNat a) pg r = true → r.pair = 1 → readLatch b pg off = b →
      exec (.wideReadLatch addr a) s = .next (s.put (respond (setRsh b (tput b.cfg.rshadow addr.toNat
        (BitVec.ofNat 32 (readReg s.par b pg (off + 4))))) .ok (readReg s.par b pg off))))

/-- A read of HAZ_INFO latches the entry shown; a write of STN_WAKE wakes the station; an acknowledged message leaves
MB_M2H; HCNT freezes the counters two cycles on and releases them (R243, R380, R388, R399). An access to a page of a
station that is asleep is held, and asks for the station's thaw (R36, R376). The model's choices in it: log entries 82,
96, 100, 102 and 103. -/
def Obligations.UnitAccesses : Prop :=
  (∀ (s : State) (n : Nat) (a : Attr) (r : RegRow) (b : Block), b = counted s.b →
     (n < 48 → takesRead s.par s.b (racc (ordB n + 0x5C) a) (.ord n) r = true → r.pair = 0 →
       ∃ h b', h = hazShown b n ∧
         b' = { b with hazLatch := tput b.hazLatch n (BitVec.ofNat 32 h.1, BitVec.ofNat 64 h.2.1, BitVec.ofNat 64 h.2.2) } ∧
         exec (.hazInfoLatch n a) s = .next (s.put (respond b' .ok (readReg s.par b' (.ord n) 0x5C)))) ∧
     (n < 48 → takesWrite s.par s.b (wacc (stnB n + 0x40) 1 a) (.stn n) r = true → rowMask r = 1 →
       exec (.stationWake n a) s = .next (s.put (wrote (rset b (stnB n + 0x40) 1) (stnB n + 0x40)))) ∧
     (n < 48 → s.b.cfg.held = [] → accFate s.par s.b (wacc (stnB n + 0x40) 1 a) = .thaw → (getStn s.b n).power ≠ .active →
       (getStn s.b n).wakeReq = false →
       ∃ t, exec (.stationWake n a) s = .next t ∧ (getStn t.b n).wakeReq = true ∧
         t.b.cfg.held = [wacc (stnB n + 0x40) 1 a]) ∧
     (takesWrite s.par s.b (wacc (mboxB + 0xB4) 0 a) .mbox r = true →
       exec (.m2hAck a) s = .next (s.put (wrote (ackM2h b) (mboxB + 0xB4)))) ∧
     (takesWrite s.par s.b (wacc (hcntB + 0x40) 1 a) .hcnt r = true → bit (rget b (hcntB + 0x40)) 0 = false →
       ∃ x : Nat, x < 2 ∧ ∃ t, exec (.counterFreeze a) s = .next t ∧ t.b.frzTime = b.aoTime + 1 + x ∧
         rget t.b (hcntB + 0x40) = 1 + (rget b (hcntB + 0x40) &&& 2)) ∧
     (takesWrite s.par s.b (wacc (hcntB + 0x40) 0 a) .hcnt r = true →
       exec (.counterRelease a) s = .next (s.put (wrote (rset b (hcntB + 0x40) (rget b (hcntB + 0x40) &&& 2)) (hcntB + 0x40))))) ∧
  (∀ (s : State) (x : Access) (n : Nat), s.b.cfg.held = [] → accFate s.par s.b x = .thaw → accStn x = some n →
     (getStn s.b n).power ≠ .active → (getStn s.b n).wakeReq = false →
     ∃ t, exec (.configAccessThaw x) s = .next t ∧ t.b.cfg.held = [x] ∧ (getStn t.b n).wakeReq = true ∧
       t.b.cfg.resp = s.b.cfg.resp)

/-! ## Links (R281 to R315) -/

/-- Port states move as R301 to R304 give: a drained port is OFF, link-up synchronises, link-down and a training timeout
end in DOWN, a valid HELLO ends in UP and another in MISMATCH, a STOP ends in STOPPED. The model's choices in it: log
entries 38, 39, 40 and 43. -/
def Obligations.PortStatesMove : Prop :=
  ∀ (s : State) (p : Nat) (x : Port), linkOk s.b = true → p < 4 → x = getPort s.b p →
    (x.st = .up → x.closing = true → x.replay = [] → x.outQ = [] →
      exec (.portDrained p) s = .next (s.put (setPort s.b p
        { freshPort x .off [] with inQ := x.inQ, retCred := x.retCred }))) ∧
    (x.st = .train → ∀ b, b = emptyPool s.b p → exec (.linkUp p) s = .next (s.put (setPort b p
      { freshPort (getPort b p) .sync (⟨4, 4, helloOf b p, []⟩ :: x.outQ) with inQ := (getPort b p).inQ }))) ∧
    ((x.st = .train ∨ x.st = .sync ∨ x.st = .up) →
      exec (.linkDown p) s = .next (s.put (portLeave s.b p .down 2 5))) ∧
    ((x.st = .train ∨ x.st = .sync) → exec (.trainTimeout p) s = .next (s.put (portLeave s.b p .down 2 3))) ∧
    (∀ h0 : DWord, x.st = .sync → ∀ b, b = setPort s.b p { x with peerChip := bits h0.toNat 15 6, peerPort := bits h0.toNat 27 26 } →
      (helloOk b p h0.toNat = true →
        exec (.hello p h0) s = .next (s.put (setCause (modPort b p (fun y => { y with st := .up })) (1552 + p) 1))) ∧
      (helloOk b p h0.toNat = false → exec (.hello p h0) s = .next (s.put (portLeave b p .mismatch 8 5)))) ∧
    (x.st = .up → exec (.stop p) s = .next (s.put (portLeave s.b p .stopped 4 5)))

/-- A flit that the PHY has not marked, with a good CRC and no reserved field set, is accepted when it has the sequence
number expected: its control word is taken and its units join their channel's stream; an idle flit gives its control
word only; another is discarded and counted, and a second flit that came without a first is counted (R284 to R286,
R434). A replay timeout resends; an output port of a hub that is powered sends, in dead ball a STOP that is due and
idle flits only (R286, R292, R304). ACK frees the flits that it acknowledges from the replay buffer, and only those
(R286). The model's choices in it: log entries 35, 37, 41, 42 and 140. -/
def Obligations.FlitsMove : Prop :=
  (∀ (s : State) (p : Nat) (x : Port), p < 4 → x = getPort s.b p →
     (∀ (raw : SLine) (m : Bool) (w : Nat), w = raw.toNat → linkOk s.b = true →
       exec (.flitReceive p raw m true) s = .next (s.put (rcount s.b (lportB p + 0x48) 1)) ∧
       ((x.st = .up ∨ x.st = .sync) →
         (m = false → bits w 2047 1984 = flitCrc w → lcwBad w = false → lcwVc w ≠ 7 → lcwSeq w = x.rxNext →
           exec (.flitReceive p raw m false) s = .next (s.put (bodyIn s.par
             (takeLcw (setPort s.b p { x with rxNext := x.rxNext + 1, nak := false, nakSent := false }) p w) p w))) ∧
         (m = false → bits w 2047 1984 = flitCrc w → lcwBad w = false → lcwVc w = 7 →
           exec (.flitReceive p raw m false) s = .next (s.put (takeLcw s.b p w))) ∧
         ((m = true ∨ bits w 2047 1984 ≠ flitCrc w ∨ lcwBad w = true ∨ (lcwVc w ≠ 7 ∧ lcwSeq w ≠ x.rxNext)) →
           exec (.flitReceive p raw m false) s = .next (s.put (count (rcount (modPort s.b p (fun y =>
             { y with nak := y.nak || !y.nakSent })) (lportB p + 0x48) 1) (.port p) 0x05 1 none))))) ∧
     (linkOk s.b = true → (x.st = .up ∨ x.st = .sync) →
       exec (.replayTimeout p) s = .next (s.put (resend (modPort s.b p (fun y => { y with nakSent := false })) p))) ∧
     (∀ bad : BitVec 10, (x.st = .up ∨ x.st = .sync) →
       (linkOk s.b = true → exec (.packetForward p bad) s = .next (s.put (portSend s.b p bad.toNat))) ∧
       (hubOn s.b = true → isDead s.b = true → exec (.packetForward p bad) s = .next (s.put (deadSend s.b p))))) ∧
  (∀ (pt : Port) (ack : BitVec 16) (d n : Nat), d = (ack - pt.txAcked).toNat → n = (pt.txNext - 1 - pt.txAcked).toNat →
     ((takeAck pt ack).replay = if d = 0 ∨ n < d then pt.replay else
         pt.replay.filter (fun f => decide (d < (f.seq - pt.txAcked).toNat))) ∧
       (0 < d → d ≤ n → (takeAck pt ack).txAcked = ack ∧ (takeAck pt ack).resends = 0) ∧
       (takeAck pt ack).txNext = pt.txNext ∧ (takeAck pt ack).outQ = pt.outQ ∧ (takeAck pt ack).credits = pt.credits)

/-- Requests and responses that terminate at this chip are taken from their port's pool: a request that its window refuses
is answered OFFSIDE, one that its station cannot perform UNAVAIL, another joins its station's queue in station order and
thaws the station, and responses end the accesses that wait for them; a packet whose header the pool lost is discarded
(R236, R287, R296, R298 to R300). The model's choices in it: log entries 44, 137 and 141. -/
def Obligations.PacketsTerminate : Prop :=
  ∀ (s : State) (p : Nat), linkOk s.b = true → p < 5 →
    (∀ (typ : Nat) (bad : BitVec 10) (e : InPkt) (b : Block) (i : Instr),
      (typ = 0 ∧ i = .wr p bad ∨ typ = 1 ∧ i = .rd p bad) →
      (takeIn s.b p typ bad.toNat = some ((e, none), b) →
        exec i s = .next (s.put (badHeader (poolFree b p e.pools) p))) ∧
      (∀ k : Packet, takeIn s.b p typ bad.toNat = some ((e, some k), b) →
        (inOffside s.par k e.win = true →
          exec i s = .next (s.put (linkRefuse (poolFree b p e.pools) k 1))) ∧
        (inOffside s.par k e.win = false → inUnavail s.par b k e.win = true →
          exec i s = .next (s.put (linkRefuse (poolFree b p e.pools) k 4))) ∧
        (inOffside s.par k e.win = false → inUnavail s.par b k e.win = false →
          exec i s = .next (s.put (reqThaw (modStn b (winStn e.win) (fun st =>
            { st with inQ := st.inQ ++ [⟨p, k, e.win, st.nextOrd, e.pools⟩], nextOrd := st.nextOrd + 1 })) (winStn e.win)))))) ∧
    (∀ (bad : BitVec 10) (e : InPkt) (b : Block) (c : Block), c = poolFree b p e.pools →
      (takeIn s.b p 2 bad.toNat = some ((e, none), b) → exec (.wack p bad) s = .next (s.put (badHeader c p))) ∧
      (takeIn s.b p 3 bad.toNat = some ((e, none), b) → exec (.rdata p bad) s = .next (s.put (badHeader c p))) ∧
      (∀ k : Packet,
        (takeIn s.b p 2 bad.toNat = some ((e, some k), b) →
          (pktTag k < 1024 → exec (.wack p bad) s =
            .next (s.put (winWriteEnd s.par c (pktSstn k) (pktTag k) (pktResp k) 4))) ∧
          (1024 ≤ pktTag k → exec (.wack p bad) s = .next (s.put (dropPkt c)))) ∧
        (takeIn s.b p 3 bad.toNat = some ((e, some k), b) →
          (1024 ≤ pktTag k → exec (.rdata p bad) s =
            .next (s.put (winReadEnd (count c (.station (pktSstn k)) 0x18 128 none)
              (pktSstn k) (pktTag k - 1024) (pktResp k) k.data.toNat (pktPoison k) 4))) ∧
          (pktTag k < 1024 → exec (.rdata p bad) s = .next (s.put (dropPkt c)))))) ∧
    (∀ n tag : Nat, (tget (getStn s.b n).wRdTags tag).isSome = true →
      exec (.rdTimeout n tag) s = .next (s.put (winReadEnd s.b n tag 2 0 0 3)))

/-- Sweeper packets of a port that is UP, or retrains in SYNC, are recorded in their slot, whether it has failed or not,
and the slot goes on; arrivals, a broadcast's value, a settled reset and a timeout move a slot (R306 to R313). The
model's choices in it: log entries 45, 47 and 48. -/
def Obligations.GlobalOperationsMove : Prop :=
  ∀ (s : State) (j : Nat) (g : Gop), linkOk s.b = true → j < 8 → g = getGop s.b j →
    (∀ (p : Nat) (h0 h1 : DWord), p < 4 → ((getPort s.b p).st = .up ∨ (getPort s.b p).st = .sync) →
      swSlot h0.toNat = j → (g.st ≠ .failed ∨ swFail h0.toNat = false) →
      exec (.gup p h0 h1) s = .next (s.put (gopRun s.par (setGop s.b j { g with ups := g.ups ++ [(p, h0)] }) j)) ∧
      ((g.acted = false ∨ swKind h0.toNat ≠ 3 ∨ swResume h1.toNat = true ∨ swFail h0.toNat = true) →
        exec (.gdown p h0 h1) s = .next (s.put (gopRun s.par (setGop s.b j { g with downs := g.downs ++ [(p, h0, h1)] }) j)))) ∧
    (∀ a : Acq, g.acq = .acquiring a → g.st = .armed → acqSettled s.b a = true →
      exec (.gopArrive j) s = .next (s.put (gopRun s.par (modGop s.b j (fun x =>
        { x with st := .gather, acq := .done, reading := gopKind s.b j = 1 })) j))) ∧
    (∀ v : DWord, g.reading = true →
      exec (.broadcastReadDone j v false) s = .next (s.put (gopRun s.par (toChildren
        (count (setGop s.b j { g with reading := false, value := v }) .hub 0x0C 8 none) j (myChip s.b)
        (mkSweep 9 j 1 (gopPar g) false (myChip s.b) v.toNat) (fun b => gopComplete b j)) j)) ∧
      exec (.broadcastReadDone j v true) s = .next (s.put (gopRun s.par (gopFail s.b j 0) j))) ∧
    (g.acted = true → (∀ i, i < 4 → (getPort s.b i).st ≠ .train ∧ (getPort s.b i).st ≠ .sync) →
      exec (.gopResetSettled j) s = .next (s.put (gopRun s.par (modGop s.b j (fun x => { x with settled := true })) j))) ∧
    ((g.st = .gather ∨ g.st = .release) → exec (.gopTimeout j) s = .next (s.put (gopFail s.b j 3)))

/-! ## The vault (R320 to R345) -/

/-- A CREATE, CLOSE and DELETE that the vault's state allows begin or complete, and one that it does not allow answers
STATE (R324, R332). CLOSE completes with the object READY once every line has been programmed, that of a PACKED object
whose form checks with its place index appended, and one whose form does not check with FORM (R332); DELETE with it
FREE once no MOVE holds it; MOUNT with the state that the medium gives, writes of what is gone failing (R320, R324,
R339). The model's choices in it: log entries 52, 54, 55, 56, 59, 143 and 145. -/
def Obligations.VaultCommands : Prop :=
  (∀ (p : Params) (b : Block) (obj : Nat) (x : Obj), x = getObj b obj →
     (b.vault.st ≠ .ready → cmdCreate p b obj = cmdDone b 3 ∧ cmdDelete b obj = cmdDone b 3 ∧
       ∀ l, cmdClose b obj l = cmdDone b 3) ∧
     (b.vault.st = .ready → x.st = .free → ∀ (len arg : Nat) (segs : List Nat), len = rget64 b (vaultB + 0x4C) →
       arg = rget b (vaultB + 0x54) → 0 < len → len ≤ 2 ^ 44 →
       takeSegs p b.vault (ceilDiv len (segBytes b.vault.ch)) [] = some segs →
       ∃ y, getObj (cmdCreate p b obj) obj = y ∧ y.st = .open ∧ y.len = len ∧ y.packed = bit arg 16 ∧
         y.parts = BitVec.ofNat 16 arg ∧ y.gen = (x.gen + 1) % 2 ^ 32 ∧ y.segs = segs ∧ y.frontier = 0 ∧ y.poison = [] ∧
         (cmdCreate p b obj).vault.result = 0) ∧
     (b.vault.st = .ready → x.st = .open → ∀ l : List DWord,
       (cmdClose b obj l).vault.busy = 2 ∧ (cmdClose b obj l).vault.cmdObj = obj ∧
         (getObj (cmdClose b obj l) obj).closing = true) ∧
     (b.vault.st = .ready → (x.st = .open ∨ x.st = .ready) →
       (cmdDelete b obj).vault.busy = 3 ∧ (getObj (cmdDelete b obj) obj).st = .deleting)) ∧
  (∀ (s : State) (v : Vault) (x : Obj), v = s.b.vault → x = getObj s.b v.cmdObj → vaultRuns s.b = true →
     (v.busy = 2 → v.ch ≠ 0 → v.st = .ready → x.dirty = [] → ∀ y : Obj,
       y = { x with closing := false, frontier := ceilDiv x.len cwBytes, written := [] } →
       (x.packed = false → exec .closeComplete s =
         .next (s.put (vaultSettle (cmdDone (setObj s.b v.cmdObj { y with st := .ready }) 0)))) ∧
       (x.packed = true → formOk x = false → exec .closeComplete s =
         .next (s.put (vaultSettle (cmdDone (setObj s.b v.cmdObj { y with headers := [] }) 4)))) ∧
       (x.packed = true → formOk x = true → ∀ more : Nat,
         more = ceilDiv (x.len + 8 * ceilDiv x.blocks 256) (segBytes v.ch) - x.segs.length →
         (takeSegs s.par v more [] = none → exec .closeComplete s =
           .next (s.put (vaultSettle (cmdDone (setObj s.b v.cmdObj { y with headers := [] }) 1)))) ∧
         (∀ l : List Nat, takeSegs s.par v more [] = some l → exec .closeComplete s =
           .next (s.put (vaultSettle (cmdDone (setObj s.b v.cmdObj { y with
             st := .ready, index := placeIndex x, segs := x.segs ++ l,
             birth := x.birth ++ l.map (fun _ => v.poweredS) }) 0)))))) ∧
     (v.busy = 3 → v.st = .ready → objHeld s.b v.cmdObj = false →
       exec .deleteDrained s =
         .next (s.put (vaultSettle (cmdDone (setObj s.b v.cmdObj { Obj.reset with gen := x.gen }) 0)))) ∧
     (v.st = .mounting →
       (∀ copy, exec (.mount false copy) s = .next (s.put (vaultSettle (cmdDone (modVault
         (vaultWritesFail s.b (fun _ _ => false)) (fun y => { y with st := .failed, cws := [] })) 5)))) ∧
       exec (.mount true none) s = .next (s.put (vaultSettle (cmdDone (modVault
         (vaultWritesFail s.b (fun _ _ => false)) (fun y => { y with st := .unformatted, cws := [], objs := [] })) 6))) ∧
       (∀ m : MetaCopy, ∃ b, exec (.mount true (some m)) s = .next (s.put (vaultSettle b)) ∧ b.vault.st = .ready ∧
         b.vault.ch = s.par.vaultCh ∧ b.vault.retired = m.retired ∧ b.vault.busy = 0 ∧ b.vault.result = 0 ∧
         b.vault.cws = [] ∧ b.vault.objs =
           m.objs.foldl (fun l o => tput l o.obj (mountObj (tgetD v.objs o.obj Obj.reset) o)) []))) ∧
  (∀ x : Obj, (placeIndex x).length = ceilDiv x.blocks 256 ∧
     ∀ i : Nat, i < ceilDiv x.blocks 256 → (placeIndex x)[i]? = some (roundUp (8 * x.blocks) 16 +
       ((x.headers.take (256 * i)).map (fun h => hClen h.toNat)).foldl (· + ·) 0))

/-- Codewords: the first decode of the next codeword of a MOVE, with the offsets kept for its block, and each step of the
rally end as R327 and R328 give; a read that is late makes its codewords uncorrectable (R328). A read that succeeds
delivers, and a rally step that does keeps its offsets (R327). A rally that has a step left goes on to it, and one
without leaves the codeword uncorrectable, for every operation that reads it (R328). The model's choices in it: log
entries 52, 53 and 142. -/
def Obligations.VaultReads : Prop :=
  (∀ (s : State) (n k : Nat) (data : List Line),
     (∀ (ok : Bool) (b : Block) (o : Op) (obj cw : Nat), vaultReady s.b = true → b = vaultTidy s.b →
       (getStrand b n k).ops.find? (fun o => (nextCw b n k o).map (·.2) = some cw) = some o → nextCw b n k o = some (obj, cw) →
       aheadRoom b n k o.id = true → b.vault.ch ≠ 0 → chHeld b (cw % b.vault.ch) = false →
       exec (.codewordDecoded n k cw ok data) s = .next (s.put (decodeEnd (count b .vault 0x02 1 none)
         { stn := n, strand := k, op := o.id, obj := obj, cw := cw, step := 0, offs := keptOffs b obj cw, done := false,
           poison := false, data := [] }
         ok data))) ∧
     (∀ (ok : Bool) (c : Cw), vaultReady s.b = true → s.b.vault.ch ≠ 0 → chHeld s.b (c.cw % s.b.vault.ch) = false →
       s.b.vault.cws.find? (fun d => d.stn = n && d.strand = k && d.cw = c.cw && !d.done && 0 < d.step) = some c →
       exec (.rallyStep n k c.cw ok data) s = .next (s.put (decodeEnd s.b c ok data))) ∧
     (∀ (tag : Nat) (rq : RdReq) (id opd : Nat) (o : Op), s.b.vault.powered = true → s.b.vault.ch ≠ 0 → isDead s.b = false →
       tget (getStn s.b n).vRdTags tag = some rq → rq.agent = .op k id opd → findOp s.b n k id = some o →
       ∃ late : List Nat,
         (∀ c ∈ late, poisoned s.b (rq.va / 2 ^ 44) c = false ∧ c ∈ burstCws o rq.va rq.mask) ∧
         exec (.vaultReadTimeout n tag) s =
           .next (s.put (vaultServeAll (forEach late s.b (fun b c => ueCw b (rq.va / 2 ^ 44) c 3)))))) ∧
  (∀ (b : Block) (c : Cw) (data : List Line), ∀ (b' : Block) (c' : Vault), b' = countRead b c.obj c.cw → c' = b'.vault →
     (rbits b' (vaultB + 0x70) 2 0 ≤ c.step → decodeEnd b c false data =
       vaultServeAll (putCw (ueCw b' c.obj c.cw 2) { c with done := true, poison := true })) ∧
     (c.step < rbits b' (vaultB + 0x70) 2 0 → 0 < c.step →
       decodeEnd b c false data = putCw b' { c with step := c.step + 1 }) ∧
     (c.step = 0 → decodeEnd b c true data = vaultServe (putCw b' { c with done := true, data := data }) c.stn) ∧
     (∀ (ch blk : Nat) (b'' : Block), 1 ≤ c.step → c.step ≤ 3 →
       b'' = (if rbits b' (vaultB + 0x70) 6 4 ≤ c.step then markSeg b' c.obj (c.cw / segCws c'.ch) else b') →
       blkOfCw b'' c.obj c.cw = some (ch, blk) →
       decodeEnd b c true data = vaultServe (putCw (modVCh b'' ch (fun x => { x with offs := tput x.offs blk c.step }))
         { c with done := true, data := data }) c.stn))

/-- A line within the object's window that rewrites nothing is accepted, and a poisoned one puts its codeword into the
poison list; a rewrite, and a line beyond the window, are refused with VAULT_ORDER; where the controller serves no
object a line fails, and while it mounts a line waits (R320, R329, R331, R429). A page that is complete is programmed,
in dead ball too, and its writes land (R331, R342); padding completes pages (R330). The model's choices in it: log
entries 50 and 143. -/
def Obligations.VaultWrites : Prop :=
  ∀ (s : State), s.b.vault.powered = true → s.b.vault.ch ≠ 0 →
    (∀ (n tag : Nat) (w : WrReq), isDead s.b = false → tag < 256 → tget (getStn s.b n).vWrTags tag = some w →
      (s.b.vault.st = .mounting → exec (.vaultWriteLine n tag) s = .next (s.put s.b)) ∧
      (s.b.vault.st ≠ .mounting → (s.b.vault.fenced = true ∨ s.b.vault.st ≠ .ready) →
        exec (.vaultWriteLine n tag) s = .next (s.put (vaultWrFail (vaultEv (setStn s.b n
          { getStn s.b n with vWrTags := tdel (getStn s.b n).vWrTags tag }) 0x4F 0) n w)))) ∧
    (∀ (n tag obj off : Nat) (w : WrReq) (x : Obj) (b : Block), isDead s.b = false → s.b.vault.fenced = false →
      s.b.vault.st = .ready → tag < 256 → tget (getStn s.b n).vWrTags tag = some w →
      obj = w.va / 2 ^ 44 → off = w.va % 2 ^ 44 → x = getObj s.b obj →
      b = setStn s.b n { getStn s.b n with vWrTags := tdel (getStn s.b n).vWrTags tag } →
      (lineDone x (off / 128) &&& w.mask ≠ 0 → exec (.vaultWriteLine n tag) s = .next (s.put (vaultOrder b n w true))) ∧
      (lineDone x (off / 128) &&& w.mask = 0 → (x.closing = true ∨ x.frontier + 2048 ≤ off / 4096) →
        exec (.vaultWriteLine n tag) s = .next (s.put (vaultOrder b n w false))) ∧
      (lineDone x (off / 128) &&& w.mask = 0 → x.closing = false → off / 4096 < x.frontier + 2048 →
        ∃ y t, y = { x with
            written := tput x.written (off / 128) (lineDone x (off / 128) ||| w.mask)
            poison := if w.poison = 0 ∨ x.poison.contains (off / 4096) then x.poison else x.poison ++ [off / 4096]
            dirty := if x.dirty.contains (pageOfCw s.b.vault.ch (off / 4096)) then x.dirty
              else x.dirty ++ [pageOfCw s.b.vault.ch (off / 4096)] } ∧
          exec (.vaultWriteLine n tag) s = .next t ∧ getObj t.b obj = front y ∧
          (getStn t.b n).vWrTags = tput (tdel (getStn s.b n).vWrTags tag) (256 + w.wid) w)) ∧
    (∀ (obj page : Nat) (x : Obj), x = getObj s.b obj → s.b.vault.fenced = false → s.b.vault.st = .ready →
      chHeld s.b (page / 1024 % s.b.vault.ch) = false →
      ((x.dirty.contains page = true ∧ pageFull s.b.vault.ch x page = true) ∨
        (isDead s.b = false ∧ x.closing = true ∧
          (x.dirty.contains page = true ∨ page < x.segs.length * s.b.vault.ch * 1024))) →
      exec (.pageProgrammed obj page) s = .next (s.put (vaultSettle (pageLand s.par
        (count (setObj s.b obj { x with dirty := x.dirty.filter (· ≠ page), susp := tdel x.susp page }) .vault 0x06 1 none)
        obj page true)))) ∧
    (∀ obj : Nat, vaultReady s.b = true → ((getObj s.b obj).st = .open ∨ (getObj s.b obj).st = .deleting) →
      exec (.vaultPadTimeout obj) s = .next (s.put (modObj s.b obj (padObj s.b.vault.ch))))

/-- A block that fails is replaced by a spare of its plane, and without a spare its position is retired (R338); while
FORMAT runs it counts as done (R324); a block of the log queue's areas ends the queue's erase with an error (R18); a
channel that fails is marked (R342). Scrub reads in their turn, refreshes, wear levelling and erases (R324, R334 to
R337). The model's choices in it: log entries 50, 53, 144 and 148. -/
def Obligations.VaultBlocks : Prop :=
  (∀ (s : State), vaultRuns s.b = true → s.b.vault.ch ≠ 0 →
     (s.b.vault.st = .ready → ∀ (obj page ch pos : Nat) (x : Obj), x = getObj s.b obj → ch = page / 1024 % s.b.vault.ch →
       x.segs[page / 1024 / s.b.vault.ch]? = some pos → x.dirty.contains page = true →
       (∀ sp, freeSpare (getVCh s.b ch) ch (posBlk pos) = some sp →
         exec (.programFail obj page ch) s = .next (s.put (blockFail s.b ch pos).2)) ∧
       (freeSpare (getVCh s.b ch) ch (posBlk pos) = none → ∀ b, b = modObj (retirePos s.b pos) obj
           (fun x => { x with dirty := x.dirty.filter (· ≠ page) }) →
         exec (.programFail obj page ch) s =
           .next (s.put (vaultSettle (pageLand s.par (vaultEv b 0x4F 0) obj page false))))) ∧
     (∀ ch blk : Nat, ch < s.par.vaultCh → blk < s.par.luns * 4096 →
       (areaBlk ch blk = true → exec (.eraseFail ch blk) s = .next (s.put (logErased s.b false))) ∧
       (areaBlk ch blk = false → ch < s.b.vault.ch →
         exec (.eraseFail ch blk) s = .next (s.put (fmtStep s.par (blkFails s.b ch blk) ch blk))) ∧
       (metaBlk ch blk = false → ∀ pos : Nat, blk = posBlk pos → blk % 1024 < 936 →
         blkFails s.b ch blk = (blockFail s.b ch pos).2)) ∧
     (∀ ch pos : Nat,
       (∀ sp, freeSpare (getVCh s.b ch) ch (posBlk pos) = some sp → (blockFail s.b ch pos).1 = true ∧
         (posBlk pos, sp) ∈ (getVCh (blockFail s.b ch pos).2 ch).bad ∧
         ∀ e ∈ (getVCh s.b ch).bad, e.1 ≠ posBlk pos → e ∈ (getVCh (blockFail s.b ch pos).2 ch).bad) ∧
       (freeSpare (getVCh s.b ch) ch (posBlk pos) = none → blockFail s.b ch pos = (false, retirePos s.b pos))) ∧
     (∀ ch : Nat, ch < s.par.vaultCh → (getVCh s.b ch).failed = false →
       exec (.vaultChannelFailed ch) s =
         .next (s.put (vaultEv (modVCh s.b ch (fun c => { c with failed := true })) 0x50 3)))) ∧
  (∀ (s : State), vaultReady s.b = true → s.b.vault.ch ≠ 0 →
     (∀ (obj seg cw pos : Nat) (hi ue : Bool), (getObj s.b obj).segs[seg]? = some pos → scrubTurn s.b obj seg cw = true →
       exec (.scrubRead obj seg cw hi ue) s = .next (s.put (scrub s.b obj seg cw hi ue))) ∧
     (∀ (obj seg pos : Nat), refreshDue s.b (getObj s.b obj) seg = true → seg < (getObj s.b obj).segs.length →
       (getObj s.b obj).st ≠ .free → argmin (posWear s.b.vault) (freePos s.par s.b.vault) = some pos →
       ∃ t, exec (.refresh obj seg) s = .next t ∧ (getObj t.b obj).segs = (getObj s.b obj).segs.set seg pos ∧
         seg ∉ (getObj t.b obj).marked) ∧
     (∀ (e : Nat × Nat × Nat × Nat) (pos : Nat) (w : List Nat), w = (segList s.b.vault).map (fun e => posWear s.b.vault e.2.2.1) →
       rbits s.b (vaultB + 0x7C) 31 16 < w.foldl max 0 - w.foldl min (w.headD 0) →
       argmin (fun (e : Nat × Nat × Nat × Nat) => e.2.2.2) (segList s.b.vault) = some e →
       argmax (posWear s.b.vault) (freePos s.par s.b.vault) = some pos →
       exec .wearLevel s = .next (s.put (moveSeg s.b e.1 e.2.1 pos))) ∧
     (∀ ch blk : Nat, ch < s.par.vaultCh → blk < s.par.luns * 4096 → areaBlk ch blk = false →
       exec (.blockErased ch blk) s = .next (s.put (count (modVCh s.b ch (fun c =>
         { c with erases := tmod c.erases blk 0 (· + 1), reads := tdel c.reads blk, offs := tdel c.offs blk }))
         .vault 0x07 1 none))))

/-- The log queue: a length or an offset that the areas or SRAM do not hold is an error; a read copies the area's bytes
into SRAM, and a program those of SRAM into the area, at once; a medium that fails is an error and an event of VAULT;
an erase goes on until its block is erased, and a fence of VAULT stops none of it (R18, R339, R342, R367). The model's
choices in it: log entry 60. -/
def Obligations.LogQueue : Prop :=
  (∀ (s : State) (op : BitVec 2) (area : Bool) (offset len sram : Nat) (data : List Byte) (fault : Bool),
    (s.b.mgmt.st = .rom ∨ s.b.mgmt.st = .recovery ∨ s.b.mgmt.st = .running) → isDead s.b = false →
    0 < s.par.vaultCh → op ≠ 0 → s.b.vault.logOp = none →
    ((len % 4096 ≠ 0 ∨ logAreaBytes s.par < offset + len ∨ sramBytes < sram + len) →
      exec (.logQueueCommand op area offset len sram data fault) s =
        .next (s.put (modVault s.b (fun v => { v with logErr := true })))) ∧
    (len % 4096 = 0 → offset + len ≤ logAreaBytes s.par → sram + len ≤ sramBytes → ∀ b, b = vaultPowerUp s.b →
      (op = 3 → exec (.logQueueCommand op area offset len sram data fault) s = .next (s.put
        (modVault b (fun v => { v with logOp := some (3, area, offset, len), logErr := false })))) ∧
      (op ≠ 3 → exec (.logQueueCommand op area offset len sram data fault) s =
        .next (s.put (vaultSettle (logMove b op.toNat area offset len sram data fault)))))) ∧
  (∀ (b : Block) (op : Nat) (area : Bool) (offset len sram : Nat) (data : List Byte),
    (logMove b op area offset len sram data true).vault.logErr = true ∧
    (logMove b op area offset len sram data true).mgmt = b.mgmt ∧
    (logMove b op area offset len sram data false).vault.logErr = false ∧
    (op ≠ 1 → (logMove b op true offset len sram data false).mgmt.imgArea = putBytes b.mgmt.imgArea offset (data.take len) ∧
      (logMove b op false offset len sram data false).mgmt.logArea = putBytes b.mgmt.logArea offset (data.take len))) ∧
  (∀ (b : Block) (area : Bool) (off len : Nat), b.vault.logOp = some (3, area, off, len) →
    ∃ b', logErased b true = vaultSettle b' ∧ b'.vault.logOp = none ∧ b'.vault.logErr = false ∧
      (area = true → b'.mgmt.imgArea = b.mgmt.imgArea.filter (fun e => e.1 < off || off + len ≤ e.1)) ∧
      (area = false → b'.mgmt.logArea = b.mgmt.logArea.filter (fun e => e.1 < off || off + len ≤ e.1)))

/-! ## The referee (R346 to R366) -/

/-- A counted event that the referee samples is taken from its source's pin, counted and recorded, with the content faults
that were raised after it (R347, R364); once the chip enters dead ball the accesses that waited for a thaw go on
(R37). The severity that a counted event gives its source (R348, R349, R352, R358): CRITICAL with dead ball for a kind
that is CRITICAL; MINOR for a MINOR kind at an idle source whose window does not fill; MAJOR for a MAJOR kind whose
action is to report only. The model's choices in it: log entry 72. -/
def Obligations.Events : Prop :=
  (∀ (s : State) (src : Nat) (e : Ev) (rest : List Ev), s.b.pwr.boot ≠ .reset → srcPresent s.par src = true →
     takePin s.b.ref.pins src = some (e, rest) →
     exec (.sourceEvent src none) s = .next (s.put (deadPump s.par s.b (drainData (rest.length + 1)
       (srcEvent (modRef s.b (fun r => { r with pins := rest })) e) src)))) ∧
  (∀ (p : Params) (b b' : Block), deadPump p b b' = if isDead b' && !isDead b then cfgPump p b' else b') ∧
  (∀ (b : Block) (e : Ev),
     (kindSev e.kind = 2 → (getSrc (srcEvent b e) e.src).st = .critical ∧ isDead (srcEvent b e) = true) ∧
     (kindSev e.kind = 0 → (getSrc b e.src).st = .idle → (getSrc b e.src).window = false → escN b e.src ≠ 1 →
       (getSrc (srcEvent b e) e.src).st = .minor ∧ isDead (srcEvent b e) = isDead b) ∧
     (kindSev e.kind = 1 → (getSrc b e.src).st = .idle → majorAct b e.src = 1 →
       (getSrc (srcEvent b e) e.src).st = .major ∧ isDead (srcEvent b e) = isDead b))

/-- The oldest record of the next source in rotation enters the queue under the collector's SEQ, which advances (R354);
the first record of an empty queue latches its cause. -/
def Obligations.RecordsQueue : Prop :=
  ∀ (s : State) (i : Nat) (r : Rec) (rest : List Rec), s.b.pwr.boot ≠ .reset → s.b.ref.queue.length < 512 →
    summarySrc s.b = none → holdSrc s.b = some i → (getSrc s.b i).hold = r :: rest →
    ∃ t, exec .recordQueue s = .next t ∧ t.b.ref.queue = s.b.ref.queue ++ [{ r with seq := s.b.ref.seq }] ∧
      t.b.ref.seq = s.b.ref.seq + 1 ∧ (getSrc t.b i).hold = rest ∧
      (s.b.ref.queue = [] → bit (rget t.b (fcB + 0x58)) 0 = true)

/-- An escalation window that ends closes with its count at 0 (R349); a fence whose unit has stopped completes with its
record and cause (R350, R361); a fence that is late is a CRITICAL event of its source (R351, R358). In dead ball a
station and the link engine report their halts; the last report asserts SAFE_OUT, and so does the timer without the
reports that are missing (R359). The model's choices in it: log entries 69 and 73. -/
def Obligations.FencesAndHalts : Prop :=
  (∀ (s : State) (src us : Nat),
     ((getSrc s.b src).window = true →
       exec (.escalationWindowEnd src) s = .next (s.put (setSrc s.b src { getSrc s.b src with window := false, count := 0 }))) ∧
     ((getSrc s.b src).fencing = true → unitStopped s.b (srcTarget src) = true →
       exec (.fenceComplete src us) s = .next (s.put (fenceDone s.b src us))) ∧
     ((getSrc s.b src).fencing = true → isDead s.b = false →
       ∃ b, exec (.fenceTimeout src) s = .next (s.put (cfgPump s.par b)) ∧ isDead b = true ∧
         (getSrc b src).st = .critical)) ∧
  (∀ (s : State), isDead s.b = true →
     (∀ n : Nat, n < s.par.stations → inTransition s.b n = false →
       exec (.haltReport (some n)) s = .next (s.put (safeNow s.par (modStn s.b n (fun x => { x with halted := true }))))) ∧
     ((∀ i, i < s.par.linkPorts → (getPort s.b i).st ≠ .up ∨ (getPort s.b i).stopSent = true) →
       exec (.haltReport none) s = .next (s.put (safeNow s.par (modRef s.b (fun r => { r with linkHalted := true }))))) ∧
     (s.b.ref.safe = false → ∃ t, exec .safeTimeout s = .next t ∧ t.b.ref.safe = true ∧ t.b.ref.haltIncomplete = true ∧
       safeOut t.b = true))

/-! ## Soft resets and code errors (R29, R41, R72) -/

/-- A station's reset begins once its writes have ended; a reset that has begun completes with its unit at reset and
answers the accesses that it held (R29, R72). A code error of a register marks it and sets PARITY (R41); one that the
unit's code corrects is counted and has no other effect (R74, R277, R316). The model's choices in it: log entries 98, 101
and 113. -/
def Obligations.ResetsAndCodes : Prop :=
  ∀ (s : State),
    (∀ (n : Nat) (st : Station), st = getStn s.b n → st.resetting = 1 → st.haz = [] → liveWr st.wrTags = [] →
      liveWr st.wWrTags = [] → liveWr st.vWrTags = [] → st.nearWr = [] → st.barReq = [] → st.barriers = [] →
      exec (.softResetBegin n) s = .next (s.put (setStn s.b n { st with resetting := 2 }))) ∧
    (∀ (page : BitVec 24) (pg : Page), pageAt s.par page.toNat = some pg →
      (∀ n, pg = .stn n → (getStn s.b n).resetting = 2) → ((∀ n, pg ≠ .stn n) → pageResetting s.b pg = true) →
      exec (.softResetDone page) s = .next (s.put (cfgPump s.par (unitReset s.par s.b pg)))) ∧
    (∀ (addr : BitVec 24) (r : RegRow), s.b.pwr.boot ≠ .reset → addr.toNat % 4 = 0 →
      pageAt s.par addr.toNat = some .cfg → pageRow .cfg (addr.toNat % 0x1000) = some r → r.pair = 0 →
      ∃ t, exec (.registerCodeError addr false) s = .next t ∧ t.b.badRegs.contains addr.toNat = true ∧
        bit (rget t.b (cfgB + 0x10)) 7 = true) ∧
    (∀ (addr : BitVec 24), s.b.pwr.boot ≠ .reset → addr.toNat % 4 = 0 →
      (∀ n : Nat, pageAt s.par addr.toNat = some (.stn n) →
        exec (.registerCodeError addr true) s = .next (s.put (rcount s.b (stnB n + 0x50) 1))) ∧
      (pageAt s.par addr.toNat = some .xlat →
        exec (.registerCodeError addr true) s = .next (s.put (rcount s.b (xlatB + 0x48) 1))) ∧
      (pageAt s.par addr.toNat = some .link →
        exec (.registerCodeError addr true) s = .next (s.put (rcount s.b (linkB + 0x58) 1))))

/-! ## Power (R369 to R376) -/

/-- A station's power states move as R370 to R372 give, and the accesses that wait for a thaw go on when it is over: an
idle station enters lull, and off from lull, unless a thaw is asked for, a mask or WAKE keeps it, or a management
reset lasts (R19, R20, R371); a thaw that meets an entry into lull or off ends it at once (R20). A thaw that is over
leaves the station active, with no thaw asked for (R372). The hub core powers down when nothing needs it, and up for
what does (R376). The model's choices in it: log entries 61, 67, 68 and 146. -/
def Obligations.PowerStates : Prop :=
  (∀ (s : State) (n : Nat) (st : Station), st = getStn s.b n →
     (st.power = .active → stnIdle s.b n = true → noLull s.b n = false → stnWake s.b n = false → isDead s.b = false →
       mgmtDown s.b = false → st.wakeReq = false →
       exec (.lullEntry n) s = .next (s.put (setStn s.b n { st with power := .toLull }))) ∧
     (st.power = .lull → noLull s.b n = false → noOff s.b n = false → stnWake s.b n = false → isDead s.b = false →
       rbits s.b (pwrB + 0x40) 31 16 ≠ 0 → mgmtDown s.b = false → st.wakeReq = false →
       exec (.offEntry n) s = .next (s.put (setStn s.b n { st with power := .toOff }))) ∧
     ((mgmtDown s.b = true ∨ st.wakeReq = true) →
       exec (.lullEntry n) s = .next (s.put s.b) ∧ exec (.offEntry n) s = .next (s.put s.b)) ∧
     (n < s.par.stations → st.power = .toLull →
       exec (.transitionDone n) s = .next (s.put (cfgPump s.par (setStn s.b n { st with power := .lull })))) ∧
     (n < s.par.stations → st.power = .toOff →
       exec (.transitionDone n) s = .next (s.put (cfgPump s.par (grpSleep s.par (offLoss
         (setStn s.b n { st with power := .off }) n) (grpOf n))))) ∧
     (st.wakeReq = true → isDead s.b = false →
       ((st.power = .lull ∨ st.power = .toLull) →
         exec (.thaw n) s = .next (s.put (setStn s.b n { st with power := .thawLull }))) ∧
       (st.power = .off → exec (.thaw n) s = .next (s.put (setStn s.b n { st with power := .thawOff }))) ∧
       (st.power = .toOff → exec (.thaw n) s = .next (s.put (offLoss (setStn s.b n { st with power := .thawOff }) n)))) ∧
     (n < s.par.stations → (st.power = .thawLull ∨ st.power = .thawOff) →
       ∃ b, exec (.thawDone n) s = .next (s.put (cfgPump s.par b)) ∧ (getStn b n).power = .active ∧
         (getStn b n).wakeReq = false)) ∧
  (∀ (s : State),
     (s.b.pwr.hubOn = true → s.b.pwr.hubGoingUp = false → hubIdle s.par s.b = true → isDead s.b = false →
       mgmtDown s.b = false → exec .hubPowerDown s = .next (s.put (modPwr s.b (fun w => { w with hubOn := false })))) ∧
     (s.b.pwr.boot = .hubReady → s.b.pwr.hubOn = false → isDead s.b = false → hubWanted s.b = true →
       exec .hubPowerUp s = .next (s.put (modPwr s.b (fun w => { w with hubGoingUp := true })))) ∧
     (s.b.pwr.hubGoingUp = true →
       exec .hubPowerUpDone s = .next (s.put (cfgPump s.par (modPwr s.b (fun w => { w with hubOn := true, hubGoingUp := false }))))))

/-- What a station loses in off: its descriptor cache and the prefetches not issued, its shaper history and statistics,
its codec slots, its instruction buffers and translations; its strands keep their entries, program counters, loops and
registers, and its channels, tallies and registers stay (R370). The model's choices in it: log entry 67. -/
def Obligations.OffLoses : Prop :=
  ∀ (b : Block) (n : Nat),
    (getStn (offLoss b n) n).dcache = [] ∧ (getStn (offLoss b n) n).pfQ = [] ∧ (getStn (offLoss b n) n).hist = [] ∧
      (getStn (offLoss b n) n).slots = List.replicate 4 CSlot.reset ∧
      (getStn (offLoss b n) n).power = (getStn b n).power ∧ (getStn (offLoss b n) n).wakeQ = (getStn b n).wakeQ ∧
      (offLoss b n).tallies = b.tallies ∧ (offLoss b n).chans = b.chans ∧ (offLoss b n).regs = b.regs ∧
      (∀ m : Nat, m ≠ n → getStn (offLoss b n) m = getStn b m) ∧
      (∀ e ∈ b.strands, e.1 / 256 ≠ n → e ∈ (offLoss b n).strands) ∧
      ∀ e ∈ (offLoss b n).strands, e.1 / 256 = n → e.2.lines = [] ∧ e.2.ranges = [] ∧ e.2.stats = Stats.reset ∧
        ∃ t, (e.1, t) ∈ b.strands ∧ e.2.pc = t.pc ∧ e.2.loops = t.loops ∧ e.2.x = t.x ∧ e.2.arg = t.arg ∧ e.2.st = t.st ∧
          e.2.ops = t.ops ∧ e.2.entry.map (·.va) = t.entry.map (·.va)

/-- A group moves to the lowest of its three limits: down at once, up when its rail is good; while a management reset
lasts only a thermal or droop cap moves it, and only down (R19); a rail that is late keeps the point and sets
RAIL_ERR; a cap rises one step (R369, R374, R375). Sensors: a sample is kept, a trip of a running clock and the loss
of AO_REFCLK are CRITICAL, droop trips are counted and a rail that leaves its band trips its stations (R369, R440).
The model's choices in it: log entries 61, 62, 63, 64, 65, 66, 70 and 146. -/
def Obligations.PointsAndSensors : Prop :=
  (∀ (s : State) (g : Nat) (x : Group), x = getGrp s.b g → isDead s.b = false →
     (pllOn s.par s.b g = true → (grpStations s.par g).any (inTransition s.b) = false → g < grpCount s.par →
       ∀ b : Block, b = modGrp s.b g (fun y => { y with capWas := none }) →
       (∀ t : Nat, mgmtDown s.b = false → t = opTarget s.b g →
         (t < x.cur → exec (.opPointChange g) s = .next (s.put (opSwitch b g t))) ∧
         (x.cur < t → x.req = none → rbit s.b (grpR g) 9 = false →
           exec (.opPointChange g) s = .next (s.put (modGrp b g (fun y => { y with req := some t }))))) ∧
       (mgmtDown s.b = true →
         (x.capT < x.cur → exec (.opPointChange g) s = .next (s.put (opSwitch b g x.capT))) ∧
         (x.cur ≤ x.capT → exec (.opPointChange g) s = .next (s.put s.b)))) ∧
     (∀ t : Nat, x.req = some t →
       exec (.railGood g) s = .next (s.put (opSwitch s.b g (min t (max (opTarget s.b g) x.cur)))) ∧
       (g < s.b.pwr.groups.length → g < 6 →
         ∃ u, exec (.railTimeout g) s = .next u ∧ (getGrp u.b g).req = none ∧ (getGrp u.b g).cur = x.cur ∧
           bit (rget u.b (grpR g)) 9 = true)) ∧
     (s.b.pwr.boot ≠ .reset → g < grpCount s.par → x.capT < 3 → x.hot = [] →
       (recentDroops s.b g).length ≤ rbits s.b (pwrB + 0x70) 31 16 → g < s.b.pwr.groups.length →
       ∃ u, exec (.capRaise g) s = .next u ∧ (getGrp u.b g).capT = x.capT + 1)) ∧
  (∀ (s : State), s.b.pwr.boot ≠ .reset →
     (∀ (idx : Nat) (q : BitVec 12), senseExists s.par idx = true →
       exec (.thermalSample idx q) s = .next (s.put (thermal s.par s.b idx q))) ∧
     (∀ n : Nat, n < s.par.stations → exec (.droopTrip n) s = .next (s.put (droop s.b n))) ∧
     (∀ clk : Nat, clockRuns s.par s.b clk = true → exec (.clockMonitorTrip clk) s = .next (s.put (senseEv s.b 0x54))) ∧
     (∃ b, exec .aoRefclkLoss s = .next (s.put (deadPump s.par s.b b)) ∧ isDead b = true ∧ b.ref.oscillator = true) ∧
     (∀ g : Nat, pllOn s.par s.b g = true →
       exec (.vgoodFall g) s = .next (s.put (forEach (grpStations s.par g) s.b droop))))

/-! ## Management (R367, R368, R377 to R386) -/

/-- The message in H2M is taken, and Torvyo answers PING, GET_INFO, POWER_READ, LOG_READ, LOG_MARK, SET_BUDGET, GET_STATS
and TIME_SYNC with their CODE and SEQ (R377, R378). Updates, committed only when the image's signature holds under the
key burnt, a commanded restart and a copy of the log, after which the log's area holds every record that was not
copied (R378, R382, R384 to R386). The model's choices in it: log entries 9, 12, 75, 76, 77 and 149. -/
def Obligations.TorvyoAnswers : Prop :=
  (∀ (s : State) (m : Msg), s.b.mgmt.st = .running →
     (s.b.mgmt.h2mFull = true → s.b.mgmt.taken = none → ∀ c : Nat, c = rbits s.b (mboxB + 0x70) 7 0 → 1 ≤ c → c ≤ 13 →
       ∃ t x, exec .mailboxTake s = .next t ∧ t.b.mgmt.h2mFull = false ∧ t.b.mgmt.taken = some x ∧ x.code = c ∧
         x.seq = rbits s.b (mboxB + 0x70) 15 8 ∧ x.data.length = rbits s.b (mboxB + 0x70) 19 16) ∧
     (s.b.mgmt.taken = some m →
       (m.code = 1 → exec .ping s = .next (s.put (reply s.b m 0 [s.b.mgmt.version, Config.romVersion]))) ∧
       (m.code = 2 → exec .getInfo s = .next (s.put (reply s.b m 0 [BitVec.ofNat 32 (mbImage s.b),
         BitVec.ofNat 32 s.b.mgmt.boots, BitVec.ofNat 32 s.b.aoTime, BitVec.ofNat 32 (s.b.aoTime / 2 ^ 32),
         BitVec.ofNat 32 s.b.mgmt.mgmtResets]))) ∧
       (m.code = 3 → ∃ (b : Block) (l : List Word), l.length = 8 ∧ b.mgmt = s.b.mgmt ∧
         exec .powerRead s = .next (s.put (reply b m 0 l))) ∧
       (∀ r : LogRec, m.code = 4 → s.b.mgmt.log.find? (fun r => r.seq % 2 ^ 32 = arg m 0) = some r → ∀ fault,
         exec (.logRead fault) s = .next (s.put (reply s.b m 0 (logWords r ++
           [BitVec.ofNat 32 (oldestSeq s.b.mgmt s.b.vault), BitVec.ofNat 32 (s.b.mgmt.logSeq - 1)])))) ∧
       (m.code = 5 → exec .logMark s = .next (s.put (reply
         (logAppend s.b 0x09 0 0 (arg m 0 + arg m 1 * 2 ^ 32) (arg m 2 + arg m 3 * 2 ^ 32)) m 0
         [BitVec.ofNat 32 s.b.mgmt.logSeq]))) ∧
       (m.code = 6 → (arg m 0 = 0 ∨ Config.idlePower ≤ arg m 0) →
         exec .setBudget s = .next (s.put (reply (modMgmt s.b (fun x => { x with budget := arg m 0 })) m 0 []))) ∧
       (m.code = 12 → exec .getStats s = .next (s.put (reply s.b m 0 [BitVec.ofNat 32 s.b.mgmt.thermCaps,
         BitVec.ofNat 32 s.b.mgmt.droopCaps, BitVec.ofNat 32 s.b.mgmt.deadBalls, BitVec.ofNat 32 s.b.mgmt.overwritten]))) ∧
       (m.code = 13 → exec .timeSync s = .next (s.put (reply (logAppend s.b 0x0A 0 0 (arg m 0 + arg m 1 * 2 ^ 32) 0) m 0
         [BitVec.ofNat 32 s.b.mgmt.logSeq]))))) ∧
  (∀ (s : State) (m : Msg), s.b.mgmt.st = .running → s.b.mgmt.taken = some m → vaultUsable s.par s.b = true →
     (m.code = 7 → imgLenOk (arg m 0) = true →
       exec .updateBegin s = .next (s.put (reply (modMgmt s.b (fun x =>
         { x with update := some (arg m 0), imgArea := [] })) m 0 []))) ∧
     (∀ len : Nat, m.code = 8 → s.b.mgmt.update = some len → m.data ≠ [] →
       arg m 0 + (wordBytes (m.data.drop 1)).length ≤ len →
       exec .updateData s = .next (s.put (reply (modMgmt s.b (fun x =>
         { x with imgArea := putBytes x.imgArea (arg m 0) (wordBytes (m.data.drop 1)) })) m 0 []))) ∧
     (∀ (len : Nat) (ok : Bool) (ver : Word), m.code = 9 → s.b.mgmt.update = some len →
       ver = BitVec.ofNat 32 (imgWord s.b.mgmt.imgArea 4) →
       ok = (imgHeadOk s.b.mgmt.imgArea len && decide (s.b.pwr.key ≠ 0) &&
         imgSigned s.b.pwr.key s.b.mgmt.imgArea (imgWord s.b.mgmt.imgArea 8)) →
       exec .updateCommit s = .next (s.put (if ok then mgmtReset (updateEnd s.b m true ver) 4 true
         else updateEnd s.b m false ver))) ∧
     (m.code = 10 → exec .resetMgmt s = .next (s.put (modMgmt (mgmtReset (reply s.b m 0 []) 3 true)
       (fun x => { x with recover := bit (arg m 0) 0 })))) ∧
     (m.code = 11 → exec .logFlush s =
       .next (s.put (reply (logCopyAll s.b) m 0 [BitVec.ofNat 32 (uncopied s.b.mgmt)]))) ∧
     (512 ≤ uncopied s.b.mgmt → exec .logCopy s = .next (s.put (logCopyAll s.b)))) ∧
  (∀ (b : Block) (i : Nat) (r : LogRec), b.mgmt.log[i]? = some r → b.mgmt.logCopied ≤ r.seq →
     (∀ j x, b.mgmt.log[j]? = some x → j ≠ i → x.seq % 16777216 ≠ r.seq % 16777216) →
     ∀ q : Nat, q < 8 →
       BitVec.ofNat 32 (imgWord (logCopyAll b).mgmt.logArea (32 * (r.seq % 16777216) + 4 * q)) = (logWords r).getD q 0)

/-- The notices that a restart owes, an alert, log records and the budget's caps (R374, R378, R380, R386). Restarts: the
watchdog's expiry and an uncorrectable memory error put the processor into the ROM, firmware restarts the watchdog's
count, and the ROM loads an image or enters recovery (R19, R367, R368, R385). The model's choices in it: log entries 9,
12, 75, 77, 78, 79 and 80. -/
def Obligations.ManagementNotices : Prop :=
  (∀ (s : State) (m : Msg), 
     (∀ reason : BitVec 3, s.b.mgmt.st = .running → s.b.mgmt.due = some m → m.code = 0x81 → arg m 1 = reason.toNat →
       exec (.ready reason) s = .next (s.put (postMsg (modMgmt s.b (fun x => { x with due := none })) m))) ∧
     (∀ reason : BitVec 2, s.b.mgmt.st = .recovery → s.b.mgmt.due = some m → m.code = 0x83 → arg m 0 = reason.toNat →
       exec (.recovery reason) s = .next (s.put (postMsg (modMgmt s.b (fun x => { x with due := none })) m))) ∧
     (∀ (seq : Nat) (r : LogRec), s.b.mgmt.st = .running → s.b.mgmt.log.find? (fun r => r.seq = seq) = some r → r.sev ≠ 0 →
       (s.b.mgmt.outQ.filter (fun m => m.code = 0x82)).length < 16 →
       exec (.alert seq) s = .next (s.put (postMsg s.b ⟨0x82, 0, 0, logWords r⟩))) ∧
     (∀ (torvyo : Bool) (y : LogBody), s.b.pwr.boot ≠ .reset → logOk torvyo y.typ y.sev = true → s.b.mgmt.st = .running →
       exec (.logAppend torvyo y) s = .next (s.put (logAppend s.b y.typ y.sev (y.src % 64) y.w2.toNat y.w3.toNat))) ∧
     (s.b.mgmt.st = .running → s.b.mgmt.budget ≠ 0 → s.b.pwr.groups.length = 6 → s.par.legal = true →
       ∃ t, exec .budgetEvaluate s = .next t ∧
         ∀ g, g < grpCount s.par → (getGrp t.b g).capM ≤ 3 ∧ (getGrp t.b g).cur = (getGrp s.b g).cur ∧
           (getGrp t.b g).capT = (getGrp s.b g).capT)) ∧
  (∀ (s : State), s.b.mgmt.st ≠ .reset → s.b.mgmt.st ≠ .halted →
     (s.b.mgmt.wdog = true → exec .watchdogExpiry s = .next (s.put (mgmtReset
       (signalEv (rcount s.b (mboxB + 0xC4) 1) srcMgmt 0x51 noUnit 0 (3 * 2 ^ 32)) 2 false))) ∧
     exec .watchdogRestart s = .next (s.put (modMgmt s.b (fun m => { m with wdog := true }))) ∧
     exec (.mgmtMemoryError true) s =
       .next (s.put (mgmtReset (signalEv s.b srcMgmt 0x52 noUnit 0 (5 * 2 ^ 32)) 2 false)) ∧
     exec (.mgmtMemoryError false) s = .next (s.put (modMgmt s.b (fun m => { m with memCe := m.memCe + 1 }))) ∧
     (∃ t, exec .mgmtAccessFault s = .next t ∧ t.b.mgmt.st = .rom ∧ t.b.mgmt.reason = 2 ∧ t.b.mgmt.taken = none) ∧
     (s.b.mgmt.st = .rom →
       (s.b.pwr.key = 0 → ∃ t, exec .mgmtRestart s = .next t ∧ t.b.mgmt.st = .recovery) ∧
       (∀ img : Tab Byte, img = s.b.mgmt.imgArea.filter (fun e => e.1 < 196608) →
         s.b.pwr.key ≠ 0 → s.b.mgmt.recover = false → 0 < s.par.vaultCh → s.b.vault.powered = true →
         s.b.vault.st = .ready → s.b.mgmt.imgArea ≠ [] →
         (imgHeadOk img 196608 = true → imgSigned s.b.pwr.key img (imgWord img 8) = true →
           ∃ t, exec .mgmtRestart s = .next t ∧ t.b.mgmt.st = .running ∧ t.b.mgmt.version = BitVec.ofNat 32 (imgWord img 4) ∧
             t.b.mgmt.sram = img) ∧
         ((imgHeadOk img 196608 = false ∨ imgSigned s.b.pwr.key img (imgWord img 8) = false) →
           ∃ t, exec .mgmtRestart s = .next t ∧ t.b.mgmt.st = .recovery))))

/-! ## Counters, resets and the test wrapper (R387, R388, R392 to R399, R437, R438) -/

/-- At a boundary of its window a counter in WINDOW mode shows its accumulator, which starts again at 0 (R392, R396). The
model's choices in it: log entry 97. -/
def Obligations.WindowsEnd : Prop :=
  ∀ (s : State) (l : CntLoc) (i : Nat) (x : Counter), x = getCnt s.b l i → cntPresent s.par l = true → i < cntNum l →
    rbit s.b (cntAddr l i) 9 = true → cntHeld s.b l = false → s.b.aoTime % (50 * x.win) = 0 →
    ∃ t, exec (.windowBoundary l i) s = .next t ∧ (getCnt t.b l i).value = x.acc ∧ (getCnt t.b l i).acc = 0 ∧
      (getCnt t.b l i).wcount = x.wcount + 1 ∧ t.b.regs = s.b.regs

/-- A power-on reset returns every register to its reset value and clears the log; a full reset keeps the log ring, its
SEQ and the key hash, counts a boot, and the time since power-on goes on; neither waits for anything, in dead ball or out
of it (R360, R387). Start-up: AO_READY and HUB_READY in this order; the wrapper takes its instructions, those that take
the chip over only while RESET_N is 0 (R388, R438). The model's choices in it: log entries 5, 11, 104, 105 and 106. -/
def Obligations.ResetsAndStartUp : Prop :=
  (∀ (s : State) (k : BitVec 384),
     (∃ t, exec (.powerOnReset k) s = .next t ∧ t.b.regs = [] ∧ t.b.ref.dead = false ∧ t.b.pwr.boot = .reset ∧
       t.b.pwr.key = k ∧ t.b.mgmt.log = [] ∧ t.b.ponTime = 0 ∧ t.b.strands = [] ∧ t.b.chans = [] ∧ t.b.tallies = [] ∧
       t.tap.instr = 0) ∧
     (∃ t, exec .fullReset s = .next t ∧ t.b.regs = [] ∧ t.b.ref.dead = false ∧ t.b.pwr.boot = .reset ∧
       t.b.pwr.key = s.b.pwr.key ∧ t.b.mgmt.log = s.b.mgmt.log ∧ t.b.mgmt.logSeq = s.b.mgmt.logSeq ∧
       t.b.mgmt.boots = s.b.mgmt.boots + 1 ∧ t.b.ponTime = s.b.ponTime ∧ t.b.strands = [] ∧ t.b.chans = [] ∧
       t.b.tallies = [] ∧ t.tap = ⟨0, false⟩)) ∧
  (∀ (s : State),
     (s.b.pwr.boot = .reset → (s.tap.instr = 0 ∨ 4 < s.tap.instr) →
       exec .aoReady s = .next { (s.put (cfgPump s.par (modPwr s.b (fun w => { w with boot := .aoReady })))) with
         tap := { s.tap with resetN := true } }) ∧
     (s.b.pwr.boot = .aoReady → s.b.mgmt.st = .reset → s.b.cfg.held = [] →
       ∃ t, exec .hubReady s = .next t ∧ t.b.pwr.boot = .hubReady ∧ t.b.pwr.hubOn = true ∧ t.b.mgmt.st = .rom) ∧
     (∀ code : BitVec 8, ∃ t, exec (.wrapperInstructionLoad code) s = .next t ∧ t.b = s.b ∧
       t.tap.resetN = s.tap.resetN ∧
       (code = 5 → t.tap.instr = 5) ∧ (1 ≤ code.toNat → code.toNat ≤ 4 → s.tap.resetN = false → t.tap.instr = code.toNat) ∧
       (1 ≤ code.toNat → code.toNat ≤ 4 → s.tap.resetN = true → t.tap.instr = 0) ∧
       ((code = 0 ∨ 5 < code.toNat) → t.tap.instr = 0)))

/-! ## Opcodes and loops (R76, R86, R90) -/

/-- R76: the opcodes are those of its table, and each table opcode has a legal unit; a unit with any other opcode, the
all-zero unit included, stops its strand with ILLEGAL. A row's command takes no unit of another instruction. -/
def Obligations.OpcodesOfTable : Prop :=
  (∀ w0 w1 : Nat, (∀ r ∈ unitRows, r.1 ≠ opcode w0) → unitIllegal w0 w1 = true) ∧
  (∀ r ∈ unitRows, ∃ w0 w1 : Nat, opcode w0 = r.1 ∧ unitIllegal w0 w1 = false) ∧
  unitIllegal 0 0 = true ∧
  ∀ r ∈ unitRows, ∀ (s : State) (n : Nat) (c : Cand) (u : MUnit), stnRuns s.b n = true → nextUnit s.b n = some (c, u) →
    ((∀ x ∈ unitRows, x.1 ≠ opcode u.w0) → exec (r.2 n) s = .next (s.put (halted (atUnit s.b c u) u 0x14))) ∧
    (∀ x ∈ unitRows, x.1 = opcode u.w0 → x.1 ≠ r.1 → exec (r.2 n) s = .next s)

/-- R90: an ENDL that holds any field, that has no open loop or that stands elsewhere than at the innermost level's ENDL
is illegal; otherwise the level's index rises by 1, and below the count the program counter moves to the unit after the
level's LOOP, else the level closes and execution goes on after the ENDL. A LOOP of 2^64 − 1 iterations opens its level,
whose body is the unit after the LOOP. -/
def Obligations.EndlRule : Prop :=
  ∀ (s : State) (n : Nat) (c : Cand) (u : MUnit), stnRuns s.b n = true → nextUnit s.b n = some (c, u) →
    (opcode u.w0 = 0x05 →
      (u.w0 / 256 ≠ 0 ∨ u.w1 ≠ 0 → exec (.endl n) s = .next (s.put (halted (atUnit s.b c u) u 0x14))) ∧
      (u.w0 / 256 = 0 → u.w1 = 0 →
        (u.s.loops = [] → exec (.endl n) s = .next (s.put (halted (atUnit s.b c u) u 0x14))) ∧
        (∀ l : Loop, u.s.loops.getLast? = some l →
          (l.endl ≠ u.s.pc → exec (.endl n) s = .next (s.put (halted (atUnit s.b c u) u 0x14))) ∧
          (l.endl = u.s.pc → l.i + 1 < l.count → u.e.va ≤ l.body → l.body < u.e.va + 16 * u.e.len →
            exec (.endl n) s = .next (s.put (retired (modStrand (atUnit s.b c u) n u.k (fun t =>
              { t with loops := t.loops.dropLast ++ [{ l with i := l.i + 1 }] })) u l.body))) ∧
          (l.endl = u.s.pc → l.count ≤ l.i + 1 →
            exec (.endl n) s = .next (s.put (retired (modStrand (atUnit s.b c u) n u.k (fun t =>
              { t with loops := t.loops.dropLast })) u (u.s.pc + 16))))))) ∧
    (opcode u.w0 = 0x04 → unitIllegal u.w0 u.w1 = false → bits u.w0 9 8 = 0 → u.w1 = 2 ^ 64 - 1 → bits u.w0 21 16 = 0 →
      u.s.loops.length < 8 → 0 < bits u.w0 47 24 → u.e.va ≤ u.s.pc → u.s.pc + 16 * bits u.w0 47 24 < u.e.va + 16 * u.e.len →
      exec (.loop n) s = .next (s.put (retired (modStrand (atUnit s.b c u) n u.k (fun t => { t with loops := t.loops ++
        [{ i := 0, count := 2 ^ 64 - 1, body := u.s.pc + 16, endl := u.s.pc + 16 * bits u.w0 47 24 }] })) u (u.s.pc + 16))))

/-- Where control leaves the program range: a JUMP that is taken, a LOOP's ENDL and a taken ENDL stop their strand with
PROG_BOUNDS and no other effect; a unit that is the last of the range retires, and its strand stops past the end (R86). -/
def Obligations.ProgramBounds : Prop :=
  ∀ (s : State) (n : Nat) (c : Cand) (u : MUnit),
    (takes s.b n 0x03 c u = true → bits u.w0 9 8 = 0 → sgn 32 (bits u.w0 63 32) ≠ 0 → bits u.w0 19 16 ≤ 8 →
      bits u.w0 19 16 ≤ u.s.loops.length → ∀ a : Int, a = u.s.pc + 16 * sgn 32 (bits u.w0 63 32) →
      (a < u.e.va ∨ (u.e.va : Int) + 16 * u.e.len ≤ a) →
      exec (.jump n) s = .next (s.put (halted (atUnit s.b c u) u 0x13))) ∧
    (takes s.b n 0x04 c u = true → bits u.w0 9 8 = 0 → bits u.w0 47 24 ≠ 0 → u.s.loops.length < 8 → u.e.va ≤ u.s.pc →
      u.e.va + 16 * u.e.len ≤ u.s.pc + 16 * bits u.w0 47 24 →
      exec (.loop n) s = .next (s.put (halted (atUnit s.b c u) u 0x13))) ∧
    (takes s.b n 0x05 c u = true → ∀ l : Loop, u.s.loops.getLast? = some l → l.endl = u.s.pc → l.i + 1 < l.count →
      (l.body < u.e.va ∨ u.e.va + 16 * u.e.len ≤ l.body) →
      exec (.endl n) s = .next (s.put (halted (atUnit s.b c u) u 0x13))) ∧
    (∀ b : Block, (getStrand b u.n u.k).st = .run → u.e.va + 16 * u.e.len ≤ u.s.pc + 16 → ∃ b' : Block,
      retired b u (u.s.pc + 16) = tick (stopStrand b' u.n u.k 0x13) u.n u.k ∧ (getStrand b' u.n u.k).pc = u.s.pc + 16 ∧
        b'.strands = (modStrand b u.n u.k (fun t => { t with pc := u.s.pc + 16 })).strands)

/-! ## The queue, and what holds of every command -/

/-- A step takes the command at the front of the queue and runs it with the queue's rest; with an empty queue one
AO_REFCLK cycle passes (the model's choice, log entry 2). The model's choices in it: log entries 2 and 4. -/
def Obligations.StepRunsFront : Prop :=
  ∀ s : State,
    (∀ (c : Instr) (rest : List Instr), s.pending = c :: rest → step s = exec c { s with pending := rest }) ∧
    (s.pending = [] → step s = .next (s.put (aoTick s.par s.b)) ∧ (aoTick s.par s.b).aoTime = s.b.aoTime + 1 ∧
      (aoTick s.par s.b).ponTime = s.b.ponTime + 1)

/-- No command is refused and none faults: exec answers a next state for every command in every state, and none changes
the integration parameters or the queue (the model's choice for a command whose condition does not hold: log entry 1).
The model's choices in it: log entry 1. -/
def Obligations.EveryCommandCompletes : Prop :=
  ∀ (c : Instr) (s : State), ∃ t, exec c s = .next t ∧ t.par = s.par ∧ t.pending = s.pending

/-- The state after reset is safe. The model's choices in it: log entries 5, 11 and 106. -/
def Obligations.ResetSafe : Prop :=
  State.reset.safe = true

/-- Every step keeps a safe state safe: legal parameters, a wrapper instruction that takes the chip over only while
RESET_N is asserted (R438), and well-formed commands in the queue. The model's choices in it: log entries 1, 2 and 106. -/
def Obligations.SafeKept : Prop :=
  ∀ s t : State, s.safe = true → step s = .next t → t.safe = true

/-! ## Dead ball (R359, R360) -/

/-- R360: only a full reset of Bunar leaves dead ball (the one that a power-on reset brings included); no other command
and no clock cycle does. -/
def Obligations.OnlyResetLeavesDeadBall : Prop :=
  (∀ (c : Instr) (s t : State), isDead s.b = true → exec c s = .next t → c ≠ .fullReset → (∀ k, c ≠ .powerOnReset k) →
    isDead t.b = true) ∧
  (∀ s t : State, isDead s.b = true → s.pending = [] → step s = .next t → isDead t.b = true) ∧
  (∀ s : State, ∃ t, exec .fullReset s = .next t ∧ isDead t.b = false)

/-- In dead ball strands retire and complete nothing, no burst issues, and the hub, the links, the vault and the power
controller start nothing: the commands of those units change nothing (R304, R342, R359). The model's choices in it: log
entries 26, 66 and 71. -/
def Obligations.DeadBallHolds : Prop :=
  ∀ (c : Instr) (s : State), isDead s.b = true → heldInDeadBall c = true → exec c s = .next s

/-! ## Frames -/

/-- Frames of the mover's instructions and of the start stage, of channels, of tallies, and of the near port, reads and
writes: every field of the block but those listed keeps its value. -/
def Obligations.StationFrames : Prop :=
  ∀ (c : Instr) (s t : State), exec c s = .next t →
    (moverCommand c = true → t.b = { s.b with
      regs := t.b.regs, strands := t.b.strands, stations := t.b.stations, tallies := t.b.tallies,
      walks := t.b.walks, parts := t.b.parts, irqs := t.b.irqs, gops := t.b.gops, ref := t.b.ref,
      counters := t.b.counters, nextId := t.b.nextId }) ∧
    (channelCommand c = true → t.b = { s.b with
      regs := t.b.regs, chans := t.b.chans, strands := t.b.strands, stations := t.b.stations,
      tallies := t.b.tallies, adds := t.b.adds, walks := t.b.walks, parts := t.b.parts, hubWr := t.b.hubWr,
      hubQ := t.b.hubQ, irqs := t.b.irqs, ref := t.b.ref, counters := t.b.counters }) ∧
    (tallyCommand c = true → t.b = { s.b with
      regs := t.b.regs, strands := t.b.strands, stations := t.b.stations, tallies := t.b.tallies, adds := t.b.adds,
      walks := t.b.walks, parts := t.b.parts, irqs := t.b.irqs, ports := t.b.ports, gops := t.b.gops,
      ref := t.b.ref, pwr := t.b.pwr, counters := t.b.counters, nextId := t.b.nextId }) ∧
    (dataCommand c = true → t.b = { s.b with
      regs := t.b.regs, chans := t.b.chans, strands := t.b.strands, stations := t.b.stations,
      tallies := t.b.tallies, adds := t.b.adds, walks := t.b.walks, parts := t.b.parts, invQ := t.b.invQ,
      invals := t.b.invals, hubWr := t.b.hubWr, hubQ := t.b.hubQ, irqs := t.b.irqs, ports := t.b.ports,
      gops := t.b.gops, linkReset := t.b.linkReset, colour := t.b.colour, ref := t.b.ref, counters := t.b.counters,
      frzTime := t.b.frzTime, nextId := t.b.nextId, fresh := t.b.fresh })

/-- Frames of walks, fault records and commits, of port states, and of packets and global operations. -/
def Obligations.HubFrames : Prop :=
  ∀ (c : Instr) (s t : State), exec c s = .next t →
    (xlatCommand c = true → t.b = { s.b with
      regs := t.b.regs, chans := t.b.chans, strands := t.b.strands, stations := t.b.stations,
      tallies := t.b.tallies, walks := t.b.walks, parts := t.b.parts, standby := t.b.standby,
      commitQ := t.b.commitQ, hubWr := t.b.hubWr, hubQ := t.b.hubQ, irqs := t.b.irqs, ref := t.b.ref,
      counters := t.b.counters }) ∧
    (portCommand c = true → t.b = { s.b with
      regs := t.b.regs, stations := t.b.stations, irqs := t.b.irqs, ports := t.b.ports, ref := t.b.ref,
      counters := t.b.counters, fresh := t.b.fresh }) ∧
    (packetCommand c = true → t.b = { s.b with
      regs := t.b.regs, strands := t.b.strands, stations := t.b.stations, tallies := t.b.tallies, adds := t.b.adds,
      walks := t.b.walks, parts := t.b.parts, hubWr := t.b.hubWr, hubQ := t.b.hubQ, irqs := t.b.irqs,
      ports := t.b.ports, gops := t.b.gops, linkReset := t.b.linkReset, colour := t.b.colour, ref := t.b.ref,
      counters := t.b.counters, frzTime := t.b.frzTime, fresh := t.b.fresh })

/-- Frames of the power controller, of management, of the vault's own commands and of MOUNT, which fails writes of
stations. -/
def Obligations.ServiceFrames : Prop :=
  ∀ (c : Instr) (s t : State), exec c s = .next t →
    (powerCommand c = true → t.b = { s.b with
      regs := t.b.regs, strands := t.b.strands, stations := t.b.stations, irqs := t.b.irqs, ref := t.b.ref,
      pwr := t.b.pwr, mgmt := t.b.mgmt, fresh := t.b.fresh }) ∧
    (mgmtCommand c = true → t.b = { s.b with
      regs := t.b.regs, irqs := t.b.irqs, vault := t.b.vault, ref := t.b.ref, pwr := t.b.pwr, mgmt := t.b.mgmt,
      fresh := t.b.fresh }) ∧
    (vaultCommand c = true → t.b = { s.b with
      regs := t.b.regs, irqs := t.b.irqs, vault := t.b.vault, ref := t.b.ref, mgmt := t.b.mgmt, counters := t.b.counters }) ∧
    ((∃ g m, c = .mount g m) → t.b = { s.b with
      regs := t.b.regs, strands := t.b.strands, stations := t.b.stations, tallies := t.b.tallies, walks := t.b.walks,
      parts := t.b.parts, irqs := t.b.irqs, vault := t.b.vault, ref := t.b.ref, counters := t.b.counters })

/-! ## Accesses that are refused (R26, R31 to R33, R40) -/

/-- An access to an address of no page answers ERR_DEC; a write in dead ball, a user access to a supervisor page, a
partial strobe, an address of no register, a read-only register and a write of a LOCKed or FROZEN field answer ERR_SLV
and set their bit of PAGE_ERR, and change nothing that the page holds; a write with no strobe answers OKAY and changes
nothing. The model's choices in it: log entries 81, 86 and 100. -/
def Obligations.RefusedAccesses : Prop :=
  (∀ (s : State) (addr : BitVec 24) (w : Word) (a : Attr) (x : Access) (b : Block), addr.toNat % 4 = 0 →
    x = wacc addr.toNat w.toNat a → s.b.cfg.held = [] → accFate s.par s.b x = .perform → b = counted s.b →
    (pageAt s.par addr.toNat = none → exec (.registerWrite addr w a) s = .next (s.put (refuseDec b x))) ∧
    (∀ (pg : Page) (off : Nat), pageAt s.par addr.toNat = some pg → off = addr.toNat % 0x1000 →
      (isDead b = true → deadWrite pg off = false →
        exec (.registerWrite addr w a) s = .next (s.put (refuse b x (pageB pg) 0 0))) ∧
      (isDead b = false →
        (admits b x pg = false → exec (.registerWrite addr w a) s = .next (s.put (refuse b x (pageB pg) 2 0))) ∧
        (admits b x pg = true → a.strb = 0 → exec (.registerWrite addr w a) s = .next (s.put (respond b .ok 0))) ∧
        (admits b x pg = true → a.strb ≠ 0 → a.strb ≠ 15 →
          exec (.registerWrite addr w a) s = .next (s.put (refuse b x (pageB pg) 4 0))) ∧
        (admits b x pg = true → a.strb = 15 →
          (pageRow pg off = none → exec (.registerWrite addr w a) s = .next (s.put (refuse b x (pageB pg) 5 0))) ∧
          (∀ r : RegRow, pageRow pg off = some r →
            (r.roAll = true → exec (.registerWrite addr w a) s = .next (s.put (refuse b x (pageB pg) 1 0))) ∧
            (r.roAll = false → r.pair = 0 → 0x40 ≤ off → ∀ i : Nat, judge s.par b pg [(off, r, w.toNat)] = some i →
              exec (.registerWrite addr w a) s = .next (s.put (refuse b x (pageB pg) i 0)) ∧ (i = 0 ∨ i = 3))))))) ∧
  (∀ (b : Block) (x : Access) (pg : Page) (i : Nat), i < 9 → ∀ b' : Block, b' = refuse b x (pageB pg) i 0 →
    b'.cfg.resp = .errSlv ∧ b'.cfg.rdata = 0 ∧ bit (rget b' (pageB pg + 0x10)) i = true ∧ b'.chans = b.chans ∧
      b'.strands = b.strands ∧ b'.stations = b.stations ∧ b'.tallies = b.tallies ∧ b'.parts = b.parts ∧
      b'.ports = b.ports ∧ b'.gops = b.gops ∧ b'.vault = b.vault ∧ b'.pwr = b.pwr ∧ b'.mgmt = b.mgmt ∧
      ∀ o : Nat, 0x40 ≤ o → o < 0x1000 → rget b' (pageB pg + o) = rget b (pageB pg + o)) ∧
  (∀ (b : Block) (x : Access), (refuseDec b x).cfg.resp = .errDec ∧ (refuseDec b x).cfg.rdata = 0)
end

