-- ==== Sys2Proof/Laws/State.lean ====
section
/-! SUPPORT. The small laws of tables and of the state: what a table reads after a write, which field of the block each
shared update changes, and that it changes no other. -/
namespace Sys2Proof.Machine

/-! ## Tables -/

@[simp] theorem tget_tput {α : Type} (t : Tab α) (k : Nat) (v : α) : tget (tput t k v) k = some v := by
  induction t with
  | nil => simp [tput, tget]
  | cons e t ih =>
    obtain ⟨i, w⟩ := e
    unfold tput
    split
    · simp [tget]
    · split
      · simp [tget]
      · rename_i h1 h2
        simp [tget, ih, Ne.symm h2]

theorem tget_tput_ne {α : Type} (t : Tab α) {k j : Nat} (v : α) (h : j ≠ k) : tget (tput t k v) j = tget t j := by
  induction t with
  | nil => simp [tput, tget, Ne.symm h]
  | cons e t ih =>
    obtain ⟨i, w⟩ := e
    unfold tput
    split
    · simp [tget, Ne.symm h]
    · split
      · rename_i h1 h2
        subst h2
        simp [tget, Ne.symm h]
      · simp only [tget, ih]

@[simp] theorem tgetD_tput {α : Type} (t : Tab α) (k : Nat) (v d : α) : tgetD (tput t k v) k d = v := by
  simp [tgetD]

theorem tgetD_tput_ne {α : Type} (t : Tab α) {k j : Nat} (v d : α) (h : j ≠ k) : tgetD (tput t k v) j d = tgetD t j d := by
  simp [tgetD, tget_tput_ne t v h]

@[simp] theorem tput_tput {α : Type} (t : Tab α) (k : Nat) (v w : α) : tput (tput t k v) k w = tput t k w := by
  induction t with
  | nil => simp [tput]
  | cons e t ih =>
    obtain ⟨i, x⟩ := e
    simp only [tput]
    split
    · simp [tput]
    · split
      · rename_i h1 h2
        simp [tput, h2]
      · rename_i h1 h2
        simp only [tput, h1, h2, if_false, ih]

/-- Keys stay strictly rising under a write. -/
theorem trising_tput {α : Type} (t : Tab α) (lo k : Nat) (v : α) (h : trising lo t = true) (hk : lo ≤ k) :
    trising lo (tput t k v) = true := by
  induction t generalizing lo with
  | nil => simp [tput, trising, hk]
  | cons e t ih =>
    obtain ⟨i, w⟩ := e
    simp only [trising, Bool.and_eq_true, decide_eq_true_eq] at h
    unfold tput
    split
    · simp only [trising, Bool.and_eq_true, decide_eq_true_eq]
      exact ⟨hk, by omega, h.2⟩
    · split
      · rename_i h1 h2
        subst h2
        simpa [trising] using h
      · simp only [trising, Bool.and_eq_true, decide_eq_true_eq]
        exact ⟨h.1, ih (i + 1) h.2 (by omega)⟩

/-! ## Units: what an update of one unit reads, and the fields of the block that it leaves -/

@[simp] theorem get_setChan (b : Block) (n c : Nat) (x : Chan) : getChan (setChan b n c x) n c = x := by
  simp [getChan, setChan]
@[simp] theorem get_modChan (b : Block) (n c : Nat) (f : Chan → Chan) : getChan (modChan b n c f) n c = f (getChan b n c) := by
  simp [modChan]
@[simp] theorem setChan_regs (b : Block) (n c : Nat) (x : Chan) : (setChan b n c x).regs = b.regs := rfl
@[simp] theorem modChan_regs (b : Block) (n c : Nat) (f : Chan → Chan) : (modChan b n c f).regs = b.regs := rfl
@[simp] theorem setChan_cfg (b : Block) (n c : Nat) (x : Chan) : (setChan b n c x).cfg = b.cfg := rfl
@[simp] theorem modChan_cfg (b : Block) (n c : Nat) (f : Chan → Chan) : (modChan b n c f).cfg = b.cfg := rfl
@[simp] theorem setChan_strands (b : Block) (n c : Nat) (x : Chan) : (setChan b n c x).strands = b.strands := rfl
@[simp] theorem modChan_strands (b : Block) (n c : Nat) (f : Chan → Chan) : (modChan b n c f).strands = b.strands := rfl
@[simp] theorem setChan_stations (b : Block) (n c : Nat) (x : Chan) : (setChan b n c x).stations = b.stations := rfl
@[simp] theorem modChan_stations (b : Block) (n c : Nat) (f : Chan → Chan) : (modChan b n c f).stations = b.stations := rfl
@[simp] theorem setChan_tallies (b : Block) (n c : Nat) (x : Chan) : (setChan b n c x).tallies = b.tallies := rfl
@[simp] theorem modChan_tallies (b : Block) (n c : Nat) (f : Chan → Chan) : (modChan b n c f).tallies = b.tallies := rfl
@[simp] theorem setChan_adds (b : Block) (n c : Nat) (x : Chan) : (setChan b n c x).adds = b.adds := rfl
@[simp] theorem modChan_adds (b : Block) (n c : Nat) (f : Chan → Chan) : (modChan b n c f).adds = b.adds := rfl
@[simp] theorem setChan_walks (b : Block) (n c : Nat) (x : Chan) : (setChan b n c x).walks = b.walks := rfl
@[simp] theorem modChan_walks (b : Block) (n c : Nat) (f : Chan → Chan) : (modChan b n c f).walks = b.walks := rfl
@[simp] theorem setChan_parts (b : Block) (n c : Nat) (x : Chan) : (setChan b n c x).parts = b.parts := rfl
@[simp] theorem modChan_parts (b : Block) (n c : Nat) (f : Chan → Chan) : (modChan b n c f).parts = b.parts := rfl
@[simp] theorem setChan_standby (b : Block) (n c : Nat) (x : Chan) : (setChan b n c x).standby = b.standby := rfl
@[simp] theorem modChan_standby (b : Block) (n c : Nat) (f : Chan → Chan) : (modChan b n c f).standby = b.standby := rfl
@[simp] theorem setChan_commitQ (b : Block) (n c : Nat) (x : Chan) : (setChan b n c x).commitQ = b.commitQ := rfl
@[simp] theorem modChan_commitQ (b : Block) (n c : Nat) (f : Chan → Chan) : (modChan b n c f).commitQ = b.commitQ := rfl
@[simp] theorem setChan_invQ (b : Block) (n c : Nat) (x : Chan) : (setChan b n c x).invQ = b.invQ := rfl
@[simp] theorem modChan_invQ (b : Block) (n c : Nat) (f : Chan → Chan) : (modChan b n c f).invQ = b.invQ := rfl
@[simp] theorem setChan_invals (b : Block) (n c : Nat) (x : Chan) : (setChan b n c x).invals = b.invals := rfl
@[simp] theorem modChan_invals (b : Block) (n c : Nat) (f : Chan → Chan) : (modChan b n c f).invals = b.invals := rfl
@[simp] theorem setChan_hubWr (b : Block) (n c : Nat) (x : Chan) : (setChan b n c x).hubWr = b.hubWr := rfl
@[simp] theorem modChan_hubWr (b : Block) (n c : Nat) (f : Chan → Chan) : (modChan b n c f).hubWr = b.hubWr := rfl
@[simp] theorem setChan_hubQ (b : Block) (n c : Nat) (x : Chan) : (setChan b n c x).hubQ = b.hubQ := rfl
@[simp] theorem modChan_hubQ (b : Block) (n c : Nat) (f : Chan → Chan) : (modChan b n c f).hubQ = b.hubQ := rfl
@[simp] theorem setChan_irqs (b : Block) (n c : Nat) (x : Chan) : (setChan b n c x).irqs = b.irqs := rfl
@[simp] theorem modChan_irqs (b : Block) (n c : Nat) (f : Chan → Chan) : (modChan b n c f).irqs = b.irqs := rfl
@[simp] theorem setChan_ports (b : Block) (n c : Nat) (x : Chan) : (setChan b n c x).ports = b.ports := rfl
@[simp] theorem modChan_ports (b : Block) (n c : Nat) (f : Chan → Chan) : (modChan b n c f).ports = b.ports := rfl
@[simp] theorem setChan_gops (b : Block) (n c : Nat) (x : Chan) : (setChan b n c x).gops = b.gops := rfl
@[simp] theorem modChan_gops (b : Block) (n c : Nat) (f : Chan → Chan) : (modChan b n c f).gops = b.gops := rfl
@[simp] theorem setChan_linkReset (b : Block) (n c : Nat) (x : Chan) : (setChan b n c x).linkReset = b.linkReset := rfl
@[simp] theorem modChan_linkReset (b : Block) (n c : Nat) (f : Chan → Chan) : (modChan b n c f).linkReset = b.linkReset := rfl
@[simp] theorem setChan_colour (b : Block) (n c : Nat) (x : Chan) : (setChan b n c x).colour = b.colour := rfl
@[simp] theorem modChan_colour (b : Block) (n c : Nat) (f : Chan → Chan) : (modChan b n c f).colour = b.colour := rfl
@[simp] theorem setChan_vault (b : Block) (n c : Nat) (x : Chan) : (setChan b n c x).vault = b.vault := rfl
@[simp] theorem modChan_vault (b : Block) (n c : Nat) (f : Chan → Chan) : (modChan b n c f).vault = b.vault := rfl
@[simp] theorem setChan_ref (b : Block) (n c : Nat) (x : Chan) : (setChan b n c x).ref = b.ref := rfl
@[simp] theorem modChan_ref (b : Block) (n c : Nat) (f : Chan → Chan) : (modChan b n c f).ref = b.ref := rfl
@[simp] theorem setChan_pwr (b : Block) (n c : Nat) (x : Chan) : (setChan b n c x).pwr = b.pwr := rfl
@[simp] theorem modChan_pwr (b : Block) (n c : Nat) (f : Chan → Chan) : (modChan b n c f).pwr = b.pwr := rfl
@[simp] theorem setChan_mgmt (b : Block) (n c : Nat) (x : Chan) : (setChan b n c x).mgmt = b.mgmt := rfl
@[simp] theorem modChan_mgmt (b : Block) (n c : Nat) (f : Chan → Chan) : (modChan b n c f).mgmt = b.mgmt := rfl
@[simp] theorem setChan_counters (b : Block) (n c : Nat) (x : Chan) : (setChan b n c x).counters = b.counters := rfl
@[simp] theorem modChan_counters (b : Block) (n c : Nat) (f : Chan → Chan) : (modChan b n c f).counters = b.counters := rfl
@[simp] theorem setChan_frzTime (b : Block) (n c : Nat) (x : Chan) : (setChan b n c x).frzTime = b.frzTime := rfl
@[simp] theorem modChan_frzTime (b : Block) (n c : Nat) (f : Chan → Chan) : (modChan b n c f).frzTime = b.frzTime := rfl
@[simp] theorem setChan_aoTime (b : Block) (n c : Nat) (x : Chan) : (setChan b n c x).aoTime = b.aoTime := rfl
@[simp] theorem modChan_aoTime (b : Block) (n c : Nat) (f : Chan → Chan) : (modChan b n c f).aoTime = b.aoTime := rfl
@[simp] theorem setChan_ponTime (b : Block) (n c : Nat) (x : Chan) : (setChan b n c x).ponTime = b.ponTime := rfl
@[simp] theorem modChan_ponTime (b : Block) (n c : Nat) (f : Chan → Chan) : (modChan b n c f).ponTime = b.ponTime := rfl
@[simp] theorem setChan_badRegs (b : Block) (n c : Nat) (x : Chan) : (setChan b n c x).badRegs = b.badRegs := rfl
@[simp] theorem modChan_badRegs (b : Block) (n c : Nat) (f : Chan → Chan) : (modChan b n c f).badRegs = b.badRegs := rfl
@[simp] theorem setChan_hazLatch (b : Block) (n c : Nat) (x : Chan) : (setChan b n c x).hazLatch = b.hazLatch := rfl
@[simp] theorem modChan_hazLatch (b : Block) (n c : Nat) (f : Chan → Chan) : (modChan b n c f).hazLatch = b.hazLatch := rfl
@[simp] theorem setChan_nextId (b : Block) (n c : Nat) (x : Chan) : (setChan b n c x).nextId = b.nextId := rfl
@[simp] theorem modChan_nextId (b : Block) (n c : Nat) (f : Chan → Chan) : (modChan b n c f).nextId = b.nextId := rfl
@[simp] theorem setChan_fresh (b : Block) (n c : Nat) (x : Chan) : (setChan b n c x).fresh = b.fresh := rfl
@[simp] theorem modChan_fresh (b : Block) (n c : Nat) (f : Chan → Chan) : (modChan b n c f).fresh = b.fresh := rfl
@[simp] theorem get_setStrand (b : Block) (n k : Nat) (x : Strand) : getStrand (setStrand b n k x) n k = x := by
  simp [getStrand, setStrand]
@[simp] theorem get_modStrand (b : Block) (n k : Nat) (f : Strand → Strand) : getStrand (modStrand b n k f) n k = f (getStrand b n k) := by
  simp [modStrand]
@[simp] theorem setStrand_regs (b : Block) (n k : Nat) (x : Strand) : (setStrand b n k x).regs = b.regs := rfl
@[simp] theorem modStrand_regs (b : Block) (n k : Nat) (f : Strand → Strand) : (modStrand b n k f).regs = b.regs := rfl
@[simp] theorem setStrand_cfg (b : Block) (n k : Nat) (x : Strand) : (setStrand b n k x).cfg = b.cfg := rfl
@[simp] theorem modStrand_cfg (b : Block) (n k : Nat) (f : Strand → Strand) : (modStrand b n k f).cfg = b.cfg := rfl
@[simp] theorem setStrand_chans (b : Block) (n k : Nat) (x : Strand) : (setStrand b n k x).chans = b.chans := rfl
@[simp] theorem modStrand_chans (b : Block) (n k : Nat) (f : Strand → Strand) : (modStrand b n k f).chans = b.chans := rfl
@[simp] theorem setStrand_stations (b : Block) (n k : Nat) (x : Strand) : (setStrand b n k x).stations = b.stations := rfl
@[simp] theorem modStrand_stations (b : Block) (n k : Nat) (f : Strand → Strand) : (modStrand b n k f).stations = b.stations := rfl
@[simp] theorem setStrand_tallies (b : Block) (n k : Nat) (x : Strand) : (setStrand b n k x).tallies = b.tallies := rfl
@[simp] theorem modStrand_tallies (b : Block) (n k : Nat) (f : Strand → Strand) : (modStrand b n k f).tallies = b.tallies := rfl
@[simp] theorem setStrand_adds (b : Block) (n k : Nat) (x : Strand) : (setStrand b n k x).adds = b.adds := rfl
@[simp] theorem modStrand_adds (b : Block) (n k : Nat) (f : Strand → Strand) : (modStrand b n k f).adds = b.adds := rfl
@[simp] theorem setStrand_walks (b : Block) (n k : Nat) (x : Strand) : (setStrand b n k x).walks = b.walks := rfl
@[simp] theorem modStrand_walks (b : Block) (n k : Nat) (f : Strand → Strand) : (modStrand b n k f).walks = b.walks := rfl
@[simp] theorem setStrand_parts (b : Block) (n k : Nat) (x : Strand) : (setStrand b n k x).parts = b.parts := rfl
@[simp] theorem modStrand_parts (b : Block) (n k : Nat) (f : Strand → Strand) : (modStrand b n k f).parts = b.parts := rfl
@[simp] theorem setStrand_standby (b : Block) (n k : Nat) (x : Strand) : (setStrand b n k x).standby = b.standby := rfl
@[simp] theorem modStrand_standby (b : Block) (n k : Nat) (f : Strand → Strand) : (modStrand b n k f).standby = b.standby := rfl
@[simp] theorem setStrand_commitQ (b : Block) (n k : Nat) (x : Strand) : (setStrand b n k x).commitQ = b.commitQ := rfl
@[simp] theorem modStrand_commitQ (b : Block) (n k : Nat) (f : Strand → Strand) : (modStrand b n k f).commitQ = b.commitQ := rfl
@[simp] theorem setStrand_invQ (b : Block) (n k : Nat) (x : Strand) : (setStrand b n k x).invQ = b.invQ := rfl
@[simp] theorem modStrand_invQ (b : Block) (n k : Nat) (f : Strand → Strand) : (modStrand b n k f).invQ = b.invQ := rfl
@[simp] theorem setStrand_invals (b : Block) (n k : Nat) (x : Strand) : (setStrand b n k x).invals = b.invals := rfl
@[simp] theorem modStrand_invals (b : Block) (n k : Nat) (f : Strand → Strand) : (modStrand b n k f).invals = b.invals := rfl
@[simp] theorem setStrand_hubWr (b : Block) (n k : Nat) (x : Strand) : (setStrand b n k x).hubWr = b.hubWr := rfl
@[simp] theorem modStrand_hubWr (b : Block) (n k : Nat) (f : Strand → Strand) : (modStrand b n k f).hubWr = b.hubWr := rfl
@[simp] theorem setStrand_hubQ (b : Block) (n k : Nat) (x : Strand) : (setStrand b n k x).hubQ = b.hubQ := rfl
@[simp] theorem modStrand_hubQ (b : Block) (n k : Nat) (f : Strand → Strand) : (modStrand b n k f).hubQ = b.hubQ := rfl
@[simp] theorem setStrand_irqs (b : Block) (n k : Nat) (x : Strand) : (setStrand b n k x).irqs = b.irqs := rfl
@[simp] theorem modStrand_irqs (b : Block) (n k : Nat) (f : Strand → Strand) : (modStrand b n k f).irqs = b.irqs := rfl
@[simp] theorem setStrand_ports (b : Block) (n k : Nat) (x : Strand) : (setStrand b n k x).ports = b.ports := rfl
@[simp] theorem modStrand_ports (b : Block) (n k : Nat) (f : Strand → Strand) : (modStrand b n k f).ports = b.ports := rfl
@[simp] theorem setStrand_gops (b : Block) (n k : Nat) (x : Strand) : (setStrand b n k x).gops = b.gops := rfl
@[simp] theorem modStrand_gops (b : Block) (n k : Nat) (f : Strand → Strand) : (modStrand b n k f).gops = b.gops := rfl
@[simp] theorem setStrand_linkReset (b : Block) (n k : Nat) (x : Strand) : (setStrand b n k x).linkReset = b.linkReset := rfl
@[simp] theorem modStrand_linkReset (b : Block) (n k : Nat) (f : Strand → Strand) : (modStrand b n k f).linkReset = b.linkReset := rfl
@[simp] theorem setStrand_colour (b : Block) (n k : Nat) (x : Strand) : (setStrand b n k x).colour = b.colour := rfl
@[simp] theorem modStrand_colour (b : Block) (n k : Nat) (f : Strand → Strand) : (modStrand b n k f).colour = b.colour := rfl
@[simp] theorem setStrand_vault (b : Block) (n k : Nat) (x : Strand) : (setStrand b n k x).vault = b.vault := rfl
@[simp] theorem modStrand_vault (b : Block) (n k : Nat) (f : Strand → Strand) : (modStrand b n k f).vault = b.vault := rfl
@[simp] theorem setStrand_ref (b : Block) (n k : Nat) (x : Strand) : (setStrand b n k x).ref = b.ref := rfl
@[simp] theorem modStrand_ref (b : Block) (n k : Nat) (f : Strand → Strand) : (modStrand b n k f).ref = b.ref := rfl
@[simp] theorem setStrand_pwr (b : Block) (n k : Nat) (x : Strand) : (setStrand b n k x).pwr = b.pwr := rfl
@[simp] theorem modStrand_pwr (b : Block) (n k : Nat) (f : Strand → Strand) : (modStrand b n k f).pwr = b.pwr := rfl
@[simp] theorem setStrand_mgmt (b : Block) (n k : Nat) (x : Strand) : (setStrand b n k x).mgmt = b.mgmt := rfl
@[simp] theorem modStrand_mgmt (b : Block) (n k : Nat) (f : Strand → Strand) : (modStrand b n k f).mgmt = b.mgmt := rfl
@[simp] theorem setStrand_counters (b : Block) (n k : Nat) (x : Strand) : (setStrand b n k x).counters = b.counters := rfl
@[simp] theorem modStrand_counters (b : Block) (n k : Nat) (f : Strand → Strand) : (modStrand b n k f).counters = b.counters := rfl
@[simp] theorem setStrand_frzTime (b : Block) (n k : Nat) (x : Strand) : (setStrand b n k x).frzTime = b.frzTime := rfl
@[simp] theorem modStrand_frzTime (b : Block) (n k : Nat) (f : Strand → Strand) : (modStrand b n k f).frzTime = b.frzTime := rfl
@[simp] theorem setStrand_aoTime (b : Block) (n k : Nat) (x : Strand) : (setStrand b n k x).aoTime = b.aoTime := rfl
@[simp] theorem modStrand_aoTime (b : Block) (n k : Nat) (f : Strand → Strand) : (modStrand b n k f).aoTime = b.aoTime := rfl
@[simp] theorem setStrand_ponTime (b : Block) (n k : Nat) (x : Strand) : (setStrand b n k x).ponTime = b.ponTime := rfl
@[simp] theorem modStrand_ponTime (b : Block) (n k : Nat) (f : Strand → Strand) : (modStrand b n k f).ponTime = b.ponTime := rfl
@[simp] theorem setStrand_badRegs (b : Block) (n k : Nat) (x : Strand) : (setStrand b n k x).badRegs = b.badRegs := rfl
@[simp] theorem modStrand_badRegs (b : Block) (n k : Nat) (f : Strand → Strand) : (modStrand b n k f).badRegs = b.badRegs := rfl
@[simp] theorem setStrand_hazLatch (b : Block) (n k : Nat) (x : Strand) : (setStrand b n k x).hazLatch = b.hazLatch := rfl
@[simp] theorem modStrand_hazLatch (b : Block) (n k : Nat) (f : Strand → Strand) : (modStrand b n k f).hazLatch = b.hazLatch := rfl
@[simp] theorem setStrand_nextId (b : Block) (n k : Nat) (x : Strand) : (setStrand b n k x).nextId = b.nextId := rfl
@[simp] theorem modStrand_nextId (b : Block) (n k : Nat) (f : Strand → Strand) : (modStrand b n k f).nextId = b.nextId := rfl
@[simp] theorem setStrand_fresh (b : Block) (n k : Nat) (x : Strand) : (setStrand b n k x).fresh = b.fresh := rfl
@[simp] theorem modStrand_fresh (b : Block) (n k : Nat) (f : Strand → Strand) : (modStrand b n k f).fresh = b.fresh := rfl
@[simp] theorem get_setStn (b : Block) (n : Nat) (x : Station) : getStn (setStn b n x) n = x := by
  simp [getStn, setStn]
@[simp] theorem get_modStn (b : Block) (n : Nat) (f : Station → Station) : getStn (modStn b n f) n = f (getStn b n) := by
  simp [modStn]
@[simp] theorem setStn_regs (b : Block) (n : Nat) (x : Station) : (setStn b n x).regs = b.regs := rfl
@[simp] theorem modStn_regs (b : Block) (n : Nat) (f : Station → Station) : (modStn b n f).regs = b.regs := rfl
@[simp] theorem setStn_cfg (b : Block) (n : Nat) (x : Station) : (setStn b n x).cfg = b.cfg := rfl
@[simp] theorem modStn_cfg (b : Block) (n : Nat) (f : Station → Station) : (modStn b n f).cfg = b.cfg := rfl
@[simp] theorem setStn_chans (b : Block) (n : Nat) (x : Station) : (setStn b n x).chans = b.chans := rfl
@[simp] theorem modStn_chans (b : Block) (n : Nat) (f : Station → Station) : (modStn b n f).chans = b.chans := rfl
@[simp] theorem setStn_strands (b : Block) (n : Nat) (x : Station) : (setStn b n x).strands = b.strands := rfl
@[simp] theorem modStn_strands (b : Block) (n : Nat) (f : Station → Station) : (modStn b n f).strands = b.strands := rfl
@[simp] theorem setStn_tallies (b : Block) (n : Nat) (x : Station) : (setStn b n x).tallies = b.tallies := rfl
@[simp] theorem modStn_tallies (b : Block) (n : Nat) (f : Station → Station) : (modStn b n f).tallies = b.tallies := rfl
@[simp] theorem setStn_adds (b : Block) (n : Nat) (x : Station) : (setStn b n x).adds = b.adds := rfl
@[simp] theorem modStn_adds (b : Block) (n : Nat) (f : Station → Station) : (modStn b n f).adds = b.adds := rfl
@[simp] theorem setStn_walks (b : Block) (n : Nat) (x : Station) : (setStn b n x).walks = b.walks := rfl
@[simp] theorem modStn_walks (b : Block) (n : Nat) (f : Station → Station) : (modStn b n f).walks = b.walks := rfl
@[simp] theorem setStn_parts (b : Block) (n : Nat) (x : Station) : (setStn b n x).parts = b.parts := rfl
@[simp] theorem modStn_parts (b : Block) (n : Nat) (f : Station → Station) : (modStn b n f).parts = b.parts := rfl
@[simp] theorem setStn_standby (b : Block) (n : Nat) (x : Station) : (setStn b n x).standby = b.standby := rfl
@[simp] theorem modStn_standby (b : Block) (n : Nat) (f : Station → Station) : (modStn b n f).standby = b.standby := rfl
@[simp] theorem setStn_commitQ (b : Block) (n : Nat) (x : Station) : (setStn b n x).commitQ = b.commitQ := rfl
@[simp] theorem modStn_commitQ (b : Block) (n : Nat) (f : Station → Station) : (modStn b n f).commitQ = b.commitQ := rfl
@[simp] theorem setStn_invQ (b : Block) (n : Nat) (x : Station) : (setStn b n x).invQ = b.invQ := rfl
@[simp] theorem modStn_invQ (b : Block) (n : Nat) (f : Station → Station) : (modStn b n f).invQ = b.invQ := rfl
@[simp] theorem setStn_invals (b : Block) (n : Nat) (x : Station) : (setStn b n x).invals = b.invals := rfl
@[simp] theorem modStn_invals (b : Block) (n : Nat) (f : Station → Station) : (modStn b n f).invals = b.invals := rfl
@[simp] theorem setStn_hubWr (b : Block) (n : Nat) (x : Station) : (setStn b n x).hubWr = b.hubWr := rfl
@[simp] theorem modStn_hubWr (b : Block) (n : Nat) (f : Station → Station) : (modStn b n f).hubWr = b.hubWr := rfl
@[simp] theorem setStn_hubQ (b : Block) (n : Nat) (x : Station) : (setStn b n x).hubQ = b.hubQ := rfl
@[simp] theorem modStn_hubQ (b : Block) (n : Nat) (f : Station → Station) : (modStn b n f).hubQ = b.hubQ := rfl
@[simp] theorem setStn_irqs (b : Block) (n : Nat) (x : Station) : (setStn b n x).irqs = b.irqs := rfl
@[simp] theorem modStn_irqs (b : Block) (n : Nat) (f : Station → Station) : (modStn b n f).irqs = b.irqs := rfl
@[simp] theorem setStn_ports (b : Block) (n : Nat) (x : Station) : (setStn b n x).ports = b.ports := rfl
@[simp] theorem modStn_ports (b : Block) (n : Nat) (f : Station → Station) : (modStn b n f).ports = b.ports := rfl
@[simp] theorem setStn_gops (b : Block) (n : Nat) (x : Station) : (setStn b n x).gops = b.gops := rfl
@[simp] theorem modStn_gops (b : Block) (n : Nat) (f : Station → Station) : (modStn b n f).gops = b.gops := rfl
@[simp] theorem setStn_linkReset (b : Block) (n : Nat) (x : Station) : (setStn b n x).linkReset = b.linkReset := rfl
@[simp] theorem modStn_linkReset (b : Block) (n : Nat) (f : Station → Station) : (modStn b n f).linkReset = b.linkReset := rfl
@[simp] theorem setStn_colour (b : Block) (n : Nat) (x : Station) : (setStn b n x).colour = b.colour := rfl
@[simp] theorem modStn_colour (b : Block) (n : Nat) (f : Station → Station) : (modStn b n f).colour = b.colour := rfl
@[simp] theorem setStn_vault (b : Block) (n : Nat) (x : Station) : (setStn b n x).vault = b.vault := rfl
@[simp] theorem modStn_vault (b : Block) (n : Nat) (f : Station → Station) : (modStn b n f).vault = b.vault := rfl
@[simp] theorem setStn_ref (b : Block) (n : Nat) (x : Station) : (setStn b n x).ref = b.ref := rfl
@[simp] theorem modStn_ref (b : Block) (n : Nat) (f : Station → Station) : (modStn b n f).ref = b.ref := rfl
@[simp] theorem setStn_pwr (b : Block) (n : Nat) (x : Station) : (setStn b n x).pwr = b.pwr := rfl
@[simp] theorem modStn_pwr (b : Block) (n : Nat) (f : Station → Station) : (modStn b n f).pwr = b.pwr := rfl
@[simp] theorem setStn_mgmt (b : Block) (n : Nat) (x : Station) : (setStn b n x).mgmt = b.mgmt := rfl
@[simp] theorem modStn_mgmt (b : Block) (n : Nat) (f : Station → Station) : (modStn b n f).mgmt = b.mgmt := rfl
@[simp] theorem setStn_counters (b : Block) (n : Nat) (x : Station) : (setStn b n x).counters = b.counters := rfl
@[simp] theorem modStn_counters (b : Block) (n : Nat) (f : Station → Station) : (modStn b n f).counters = b.counters := rfl
@[simp] theorem setStn_frzTime (b : Block) (n : Nat) (x : Station) : (setStn b n x).frzTime = b.frzTime := rfl
@[simp] theorem modStn_frzTime (b : Block) (n : Nat) (f : Station → Station) : (modStn b n f).frzTime = b.frzTime := rfl
@[simp] theorem setStn_aoTime (b : Block) (n : Nat) (x : Station) : (setStn b n x).aoTime = b.aoTime := rfl
@[simp] theorem modStn_aoTime (b : Block) (n : Nat) (f : Station → Station) : (modStn b n f).aoTime = b.aoTime := rfl
@[simp] theorem setStn_ponTime (b : Block) (n : Nat) (x : Station) : (setStn b n x).ponTime = b.ponTime := rfl
@[simp] theorem modStn_ponTime (b : Block) (n : Nat) (f : Station → Station) : (modStn b n f).ponTime = b.ponTime := rfl
@[simp] theorem setStn_badRegs (b : Block) (n : Nat) (x : Station) : (setStn b n x).badRegs = b.badRegs := rfl
@[simp] theorem modStn_badRegs (b : Block) (n : Nat) (f : Station → Station) : (modStn b n f).badRegs = b.badRegs := rfl
@[simp] theorem setStn_hazLatch (b : Block) (n : Nat) (x : Station) : (setStn b n x).hazLatch = b.hazLatch := rfl
@[simp] theorem modStn_hazLatch (b : Block) (n : Nat) (f : Station → Station) : (modStn b n f).hazLatch = b.hazLatch := rfl
@[simp] theorem setStn_nextId (b : Block) (n : Nat) (x : Station) : (setStn b n x).nextId = b.nextId := rfl
@[simp] theorem modStn_nextId (b : Block) (n : Nat) (f : Station → Station) : (modStn b n f).nextId = b.nextId := rfl
@[simp] theorem setStn_fresh (b : Block) (n : Nat) (x : Station) : (setStn b n x).fresh = b.fresh := rfl
@[simp] theorem modStn_fresh (b : Block) (n : Nat) (f : Station → Station) : (modStn b n f).fresh = b.fresh := rfl
@[simp] theorem get_setTal (b : Block) (t : Nat) (x : Tally) : getTal (setTal b t x) t = x := by
  simp [getTal, setTal]
@[simp] theorem get_modTal (b : Block) (t : Nat) (f : Tally → Tally) : getTal (modTal b t f) t = f (getTal b t) := by
  simp [modTal]
@[simp] theorem setTal_regs (b : Block) (t : Nat) (x : Tally) : (setTal b t x).regs = b.regs := rfl
@[simp] theorem modTal_regs (b : Block) (t : Nat) (f : Tally → Tally) : (modTal b t f).regs = b.regs := rfl
@[simp] theorem setTal_cfg (b : Block) (t : Nat) (x : Tally) : (setTal b t x).cfg = b.cfg := rfl
@[simp] theorem modTal_cfg (b : Block) (t : Nat) (f : Tally → Tally) : (modTal b t f).cfg = b.cfg := rfl
@[simp] theorem setTal_chans (b : Block) (t : Nat) (x : Tally) : (setTal b t x).chans = b.chans := rfl
@[simp] theorem modTal_chans (b : Block) (t : Nat) (f : Tally → Tally) : (modTal b t f).chans = b.chans := rfl
@[simp] theorem setTal_strands (b : Block) (t : Nat) (x : Tally) : (setTal b t x).strands = b.strands := rfl
@[simp] theorem modTal_strands (b : Block) (t : Nat) (f : Tally → Tally) : (modTal b t f).strands = b.strands := rfl
@[simp] theorem setTal_stations (b : Block) (t : Nat) (x : Tally) : (setTal b t x).stations = b.stations := rfl
@[simp] theorem modTal_stations (b : Block) (t : Nat) (f : Tally → Tally) : (modTal b t f).stations = b.stations := rfl
@[simp] theorem setTal_adds (b : Block) (t : Nat) (x : Tally) : (setTal b t x).adds = b.adds := rfl
@[simp] theorem modTal_adds (b : Block) (t : Nat) (f : Tally → Tally) : (modTal b t f).adds = b.adds := rfl
@[simp] theorem setTal_walks (b : Block) (t : Nat) (x : Tally) : (setTal b t x).walks = b.walks := rfl
@[simp] theorem modTal_walks (b : Block) (t : Nat) (f : Tally → Tally) : (modTal b t f).walks = b.walks := rfl
@[simp] theorem setTal_parts (b : Block) (t : Nat) (x : Tally) : (setTal b t x).parts = b.parts := rfl
@[simp] theorem modTal_parts (b : Block) (t : Nat) (f : Tally → Tally) : (modTal b t f).parts = b.parts := rfl
@[simp] theorem setTal_standby (b : Block) (t : Nat) (x : Tally) : (setTal b t x).standby = b.standby := rfl
@[simp] theorem modTal_standby (b : Block) (t : Nat) (f : Tally → Tally) : (modTal b t f).standby = b.standby := rfl
@[simp] theorem setTal_commitQ (b : Block) (t : Nat) (x : Tally) : (setTal b t x).commitQ = b.commitQ := rfl
@[simp] theorem modTal_commitQ (b : Block) (t : Nat) (f : Tally → Tally) : (modTal b t f).commitQ = b.commitQ := rfl
@[simp] theorem setTal_invQ (b : Block) (t : Nat) (x : Tally) : (setTal b t x).invQ = b.invQ := rfl
@[simp] theorem modTal_invQ (b : Block) (t : Nat) (f : Tally → Tally) : (modTal b t f).invQ = b.invQ := rfl
@[simp] theorem setTal_invals (b : Block) (t : Nat) (x : Tally) : (setTal b t x).invals = b.invals := rfl
@[simp] theorem modTal_invals (b : Block) (t : Nat) (f : Tally → Tally) : (modTal b t f).invals = b.invals := rfl
@[simp] theorem setTal_hubWr (b : Block) (t : Nat) (x : Tally) : (setTal b t x).hubWr = b.hubWr := rfl
@[simp] theorem modTal_hubWr (b : Block) (t : Nat) (f : Tally → Tally) : (modTal b t f).hubWr = b.hubWr := rfl
@[simp] theorem setTal_hubQ (b : Block) (t : Nat) (x : Tally) : (setTal b t x).hubQ = b.hubQ := rfl
@[simp] theorem modTal_hubQ (b : Block) (t : Nat) (f : Tally → Tally) : (modTal b t f).hubQ = b.hubQ := rfl
@[simp] theorem setTal_irqs (b : Block) (t : Nat) (x : Tally) : (setTal b t x).irqs = b.irqs := rfl
@[simp] theorem modTal_irqs (b : Block) (t : Nat) (f : Tally → Tally) : (modTal b t f).irqs = b.irqs := rfl
@[simp] theorem setTal_ports (b : Block) (t : Nat) (x : Tally) : (setTal b t x).ports = b.ports := rfl
@[simp] theorem modTal_ports (b : Block) (t : Nat) (f : Tally → Tally) : (modTal b t f).ports = b.ports := rfl
@[simp] theorem setTal_gops (b : Block) (t : Nat) (x : Tally) : (setTal b t x).gops = b.gops := rfl
@[simp] theorem modTal_gops (b : Block) (t : Nat) (f : Tally → Tally) : (modTal b t f).gops = b.gops := rfl
@[simp] theorem setTal_linkReset (b : Block) (t : Nat) (x : Tally) : (setTal b t x).linkReset = b.linkReset := rfl
@[simp] theorem modTal_linkReset (b : Block) (t : Nat) (f : Tally → Tally) : (modTal b t f).linkReset = b.linkReset := rfl
@[simp] theorem setTal_colour (b : Block) (t : Nat) (x : Tally) : (setTal b t x).colour = b.colour := rfl
@[simp] theorem modTal_colour (b : Block) (t : Nat) (f : Tally → Tally) : (modTal b t f).colour = b.colour := rfl
@[simp] theorem setTal_vault (b : Block) (t : Nat) (x : Tally) : (setTal b t x).vault = b.vault := rfl
@[simp] theorem modTal_vault (b : Block) (t : Nat) (f : Tally → Tally) : (modTal b t f).vault = b.vault := rfl
@[simp] theorem setTal_ref (b : Block) (t : Nat) (x : Tally) : (setTal b t x).ref = b.ref := rfl
@[simp] theorem modTal_ref (b : Block) (t : Nat) (f : Tally → Tally) : (modTal b t f).ref = b.ref := rfl
@[simp] theorem setTal_pwr (b : Block) (t : Nat) (x : Tally) : (setTal b t x).pwr = b.pwr := rfl
@[simp] theorem modTal_pwr (b : Block) (t : Nat) (f : Tally → Tally) : (modTal b t f).pwr = b.pwr := rfl
@[simp] theorem setTal_mgmt (b : Block) (t : Nat) (x : Tally) : (setTal b t x).mgmt = b.mgmt := rfl
@[simp] theorem modTal_mgmt (b : Block) (t : Nat) (f : Tally → Tally) : (modTal b t f).mgmt = b.mgmt := rfl
@[simp] theorem setTal_counters (b : Block) (t : Nat) (x : Tally) : (setTal b t x).counters = b.counters := rfl
@[simp] theorem modTal_counters (b : Block) (t : Nat) (f : Tally → Tally) : (modTal b t f).counters = b.counters := rfl
@[simp] theorem setTal_frzTime (b : Block) (t : Nat) (x : Tally) : (setTal b t x).frzTime = b.frzTime := rfl
@[simp] theorem modTal_frzTime (b : Block) (t : Nat) (f : Tally → Tally) : (modTal b t f).frzTime = b.frzTime := rfl
@[simp] theorem setTal_aoTime (b : Block) (t : Nat) (x : Tally) : (setTal b t x).aoTime = b.aoTime := rfl
@[simp] theorem modTal_aoTime (b : Block) (t : Nat) (f : Tally → Tally) : (modTal b t f).aoTime = b.aoTime := rfl
@[simp] theorem setTal_ponTime (b : Block) (t : Nat) (x : Tally) : (setTal b t x).ponTime = b.ponTime := rfl
@[simp] theorem modTal_ponTime (b : Block) (t : Nat) (f : Tally → Tally) : (modTal b t f).ponTime = b.ponTime := rfl
@[simp] theorem setTal_badRegs (b : Block) (t : Nat) (x : Tally) : (setTal b t x).badRegs = b.badRegs := rfl
@[simp] theorem modTal_badRegs (b : Block) (t : Nat) (f : Tally → Tally) : (modTal b t f).badRegs = b.badRegs := rfl
@[simp] theorem setTal_hazLatch (b : Block) (t : Nat) (x : Tally) : (setTal b t x).hazLatch = b.hazLatch := rfl
@[simp] theorem modTal_hazLatch (b : Block) (t : Nat) (f : Tally → Tally) : (modTal b t f).hazLatch = b.hazLatch := rfl
@[simp] theorem setTal_nextId (b : Block) (t : Nat) (x : Tally) : (setTal b t x).nextId = b.nextId := rfl
@[simp] theorem modTal_nextId (b : Block) (t : Nat) (f : Tally → Tally) : (modTal b t f).nextId = b.nextId := rfl
@[simp] theorem setTal_fresh (b : Block) (t : Nat) (x : Tally) : (setTal b t x).fresh = b.fresh := rfl
@[simp] theorem modTal_fresh (b : Block) (t : Nat) (f : Tally → Tally) : (modTal b t f).fresh = b.fresh := rfl
@[simp] theorem get_setPart (b : Block) (p : Nat) (x : Part) : getPart (setPart b p x) p = x := by
  simp [getPart, setPart]
@[simp] theorem get_modPart (b : Block) (p : Nat) (f : Part → Part) : getPart (modPart b p f) p = f (getPart b p) := by
  simp [modPart]
@[simp] theorem setPart_regs (b : Block) (p : Nat) (x : Part) : (setPart b p x).regs = b.regs := rfl
@[simp] theorem modPart_regs (b : Block) (p : Nat) (f : Part → Part) : (modPart b p f).regs = b.regs := rfl
@[simp] theorem setPart_cfg (b : Block) (p : Nat) (x : Part) : (setPart b p x).cfg = b.cfg := rfl
@[simp] theorem modPart_cfg (b : Block) (p : Nat) (f : Part → Part) : (modPart b p f).cfg = b.cfg := rfl
@[simp] theorem setPart_chans (b : Block) (p : Nat) (x : Part) : (setPart b p x).chans = b.chans := rfl
@[simp] theorem modPart_chans (b : Block) (p : Nat) (f : Part → Part) : (modPart b p f).chans = b.chans := rfl
@[simp] theorem setPart_strands (b : Block) (p : Nat) (x : Part) : (setPart b p x).strands = b.strands := rfl
@[simp] theorem modPart_strands (b : Block) (p : Nat) (f : Part → Part) : (modPart b p f).strands = b.strands := rfl
@[simp] theorem setPart_stations (b : Block) (p : Nat) (x : Part) : (setPart b p x).stations = b.stations := rfl
@[simp] theorem modPart_stations (b : Block) (p : Nat) (f : Part → Part) : (modPart b p f).stations = b.stations := rfl
@[simp] theorem setPart_tallies (b : Block) (p : Nat) (x : Part) : (setPart b p x).tallies = b.tallies := rfl
@[simp] theorem modPart_tallies (b : Block) (p : Nat) (f : Part → Part) : (modPart b p f).tallies = b.tallies := rfl
@[simp] theorem setPart_adds (b : Block) (p : Nat) (x : Part) : (setPart b p x).adds = b.adds := rfl
@[simp] theorem modPart_adds (b : Block) (p : Nat) (f : Part → Part) : (modPart b p f).adds = b.adds := rfl
@[simp] theorem setPart_walks (b : Block) (p : Nat) (x : Part) : (setPart b p x).walks = b.walks := rfl
@[simp] theorem modPart_walks (b : Block) (p : Nat) (f : Part → Part) : (modPart b p f).walks = b.walks := rfl
@[simp] theorem setPart_standby (b : Block) (p : Nat) (x : Part) : (setPart b p x).standby = b.standby := rfl
@[simp] theorem modPart_standby (b : Block) (p : Nat) (f : Part → Part) : (modPart b p f).standby = b.standby := rfl
@[simp] theorem setPart_commitQ (b : Block) (p : Nat) (x : Part) : (setPart b p x).commitQ = b.commitQ := rfl
@[simp] theorem modPart_commitQ (b : Block) (p : Nat) (f : Part → Part) : (modPart b p f).commitQ = b.commitQ := rfl
@[simp] theorem setPart_invQ (b : Block) (p : Nat) (x : Part) : (setPart b p x).invQ = b.invQ := rfl
@[simp] theorem modPart_invQ (b : Block) (p : Nat) (f : Part → Part) : (modPart b p f).invQ = b.invQ := rfl
@[simp] theorem setPart_invals (b : Block) (p : Nat) (x : Part) : (setPart b p x).invals = b.invals := rfl
@[simp] theorem modPart_invals (b : Block) (p : Nat) (f : Part → Part) : (modPart b p f).invals = b.invals := rfl
@[simp] theorem setPart_hubWr (b : Block) (p : Nat) (x : Part) : (setPart b p x).hubWr = b.hubWr := rfl
@[simp] theorem modPart_hubWr (b : Block) (p : Nat) (f : Part → Part) : (modPart b p f).hubWr = b.hubWr := rfl
@[simp] theorem setPart_hubQ (b : Block) (p : Nat) (x : Part) : (setPart b p x).hubQ = b.hubQ := rfl
@[simp] theorem modPart_hubQ (b : Block) (p : Nat) (f : Part → Part) : (modPart b p f).hubQ = b.hubQ := rfl
@[simp] theorem setPart_irqs (b : Block) (p : Nat) (x : Part) : (setPart b p x).irqs = b.irqs := rfl
@[simp] theorem modPart_irqs (b : Block) (p : Nat) (f : Part → Part) : (modPart b p f).irqs = b.irqs := rfl
@[simp] theorem setPart_ports (b : Block) (p : Nat) (x : Part) : (setPart b p x).ports = b.ports := rfl
@[simp] theorem modPart_ports (b : Block) (p : Nat) (f : Part → Part) : (modPart b p f).ports = b.ports := rfl
@[simp] theorem setPart_gops (b : Block) (p : Nat) (x : Part) : (setPart b p x).gops = b.gops := rfl
@[simp] theorem modPart_gops (b : Block) (p : Nat) (f : Part → Part) : (modPart b p f).gops = b.gops := rfl
@[simp] theorem setPart_linkReset (b : Block) (p : Nat) (x : Part) : (setPart b p x).linkReset = b.linkReset := rfl
@[simp] theorem modPart_linkReset (b : Block) (p : Nat) (f : Part → Part) : (modPart b p f).linkReset = b.linkReset := rfl
@[simp] theorem setPart_colour (b : Block) (p : Nat) (x : Part) : (setPart b p x).colour = b.colour := rfl
@[simp] theorem modPart_colour (b : Block) (p : Nat) (f : Part → Part) : (modPart b p f).colour = b.colour := rfl
@[simp] theorem setPart_vault (b : Block) (p : Nat) (x : Part) : (setPart b p x).vault = b.vault := rfl
@[simp] theorem modPart_vault (b : Block) (p : Nat) (f : Part → Part) : (modPart b p f).vault = b.vault := rfl
@[simp] theorem setPart_ref (b : Block) (p : Nat) (x : Part) : (setPart b p x).ref = b.ref := rfl
@[simp] theorem modPart_ref (b : Block) (p : Nat) (f : Part → Part) : (modPart b p f).ref = b.ref := rfl
@[simp] theorem setPart_pwr (b : Block) (p : Nat) (x : Part) : (setPart b p x).pwr = b.pwr := rfl
@[simp] theorem modPart_pwr (b : Block) (p : Nat) (f : Part → Part) : (modPart b p f).pwr = b.pwr := rfl
@[simp] theorem setPart_mgmt (b : Block) (p : Nat) (x : Part) : (setPart b p x).mgmt = b.mgmt := rfl
@[simp] theorem modPart_mgmt (b : Block) (p : Nat) (f : Part → Part) : (modPart b p f).mgmt = b.mgmt := rfl
@[simp] theorem setPart_counters (b : Block) (p : Nat) (x : Part) : (setPart b p x).counters = b.counters := rfl
@[simp] theorem modPart_counters (b : Block) (p : Nat) (f : Part → Part) : (modPart b p f).counters = b.counters := rfl
@[simp] theorem setPart_frzTime (b : Block) (p : Nat) (x : Part) : (setPart b p x).frzTime = b.frzTime := rfl
@[simp] theorem modPart_frzTime (b : Block) (p : Nat) (f : Part → Part) : (modPart b p f).frzTime = b.frzTime := rfl
@[simp] theorem setPart_aoTime (b : Block) (p : Nat) (x : Part) : (setPart b p x).aoTime = b.aoTime := rfl
@[simp] theorem modPart_aoTime (b : Block) (p : Nat) (f : Part → Part) : (modPart b p f).aoTime = b.aoTime := rfl
@[simp] theorem setPart_ponTime (b : Block) (p : Nat) (x : Part) : (setPart b p x).ponTime = b.ponTime := rfl
@[simp] theorem modPart_ponTime (b : Block) (p : Nat) (f : Part → Part) : (modPart b p f).ponTime = b.ponTime := rfl
@[simp] theorem setPart_badRegs (b : Block) (p : Nat) (x : Part) : (setPart b p x).badRegs = b.badRegs := rfl
@[simp] theorem modPart_badRegs (b : Block) (p : Nat) (f : Part → Part) : (modPart b p f).badRegs = b.badRegs := rfl
@[simp] theorem setPart_hazLatch (b : Block) (p : Nat) (x : Part) : (setPart b p x).hazLatch = b.hazLatch := rfl
@[simp] theorem modPart_hazLatch (b : Block) (p : Nat) (f : Part → Part) : (modPart b p f).hazLatch = b.hazLatch := rfl
@[simp] theorem setPart_nextId (b : Block) (p : Nat) (x : Part) : (setPart b p x).nextId = b.nextId := rfl
@[simp] theorem modPart_nextId (b : Block) (p : Nat) (f : Part → Part) : (modPart b p f).nextId = b.nextId := rfl
@[simp] theorem setPart_fresh (b : Block) (p : Nat) (x : Part) : (setPart b p x).fresh = b.fresh := rfl
@[simp] theorem modPart_fresh (b : Block) (p : Nat) (f : Part → Part) : (modPart b p f).fresh = b.fresh := rfl
@[simp] theorem get_setPort (b : Block) (p : Nat) (x : Port) : getPort (setPort b p x) p = x := by
  simp [getPort, setPort]
@[simp] theorem get_modPort (b : Block) (p : Nat) (f : Port → Port) : getPort (modPort b p f) p = f (getPort b p) := by
  simp [modPort]
@[simp] theorem setPort_regs (b : Block) (p : Nat) (x : Port) : (setPort b p x).regs = b.regs := rfl
@[simp] theorem modPort_regs (b : Block) (p : Nat) (f : Port → Port) : (modPort b p f).regs = b.regs := rfl
@[simp] theorem setPort_cfg (b : Block) (p : Nat) (x : Port) : (setPort b p x).cfg = b.cfg := rfl
@[simp] theorem modPort_cfg (b : Block) (p : Nat) (f : Port → Port) : (modPort b p f).cfg = b.cfg := rfl
@[simp] theorem setPort_chans (b : Block) (p : Nat) (x : Port) : (setPort b p x).chans = b.chans := rfl
@[simp] theorem modPort_chans (b : Block) (p : Nat) (f : Port → Port) : (modPort b p f).chans = b.chans := rfl
@[simp] theorem setPort_strands (b : Block) (p : Nat) (x : Port) : (setPort b p x).strands = b.strands := rfl
@[simp] theorem modPort_strands (b : Block) (p : Nat) (f : Port → Port) : (modPort b p f).strands = b.strands := rfl
@[simp] theorem setPort_stations (b : Block) (p : Nat) (x : Port) : (setPort b p x).stations = b.stations := rfl
@[simp] theorem modPort_stations (b : Block) (p : Nat) (f : Port → Port) : (modPort b p f).stations = b.stations := rfl
@[simp] theorem setPort_tallies (b : Block) (p : Nat) (x : Port) : (setPort b p x).tallies = b.tallies := rfl
@[simp] theorem modPort_tallies (b : Block) (p : Nat) (f : Port → Port) : (modPort b p f).tallies = b.tallies := rfl
@[simp] theorem setPort_adds (b : Block) (p : Nat) (x : Port) : (setPort b p x).adds = b.adds := rfl
@[simp] theorem modPort_adds (b : Block) (p : Nat) (f : Port → Port) : (modPort b p f).adds = b.adds := rfl
@[simp] theorem setPort_walks (b : Block) (p : Nat) (x : Port) : (setPort b p x).walks = b.walks := rfl
@[simp] theorem modPort_walks (b : Block) (p : Nat) (f : Port → Port) : (modPort b p f).walks = b.walks := rfl
@[simp] theorem setPort_parts (b : Block) (p : Nat) (x : Port) : (setPort b p x).parts = b.parts := rfl
@[simp] theorem modPort_parts (b : Block) (p : Nat) (f : Port → Port) : (modPort b p f).parts = b.parts := rfl
@[simp] theorem setPort_standby (b : Block) (p : Nat) (x : Port) : (setPort b p x).standby = b.standby := rfl
@[simp] theorem modPort_standby (b : Block) (p : Nat) (f : Port → Port) : (modPort b p f).standby = b.standby := rfl
@[simp] theorem setPort_commitQ (b : Block) (p : Nat) (x : Port) : (setPort b p x).commitQ = b.commitQ := rfl
@[simp] theorem modPort_commitQ (b : Block) (p : Nat) (f : Port → Port) : (modPort b p f).commitQ = b.commitQ := rfl
@[simp] theorem setPort_invQ (b : Block) (p : Nat) (x : Port) : (setPort b p x).invQ = b.invQ := rfl
@[simp] theorem modPort_invQ (b : Block) (p : Nat) (f : Port → Port) : (modPort b p f).invQ = b.invQ := rfl
@[simp] theorem setPort_invals (b : Block) (p : Nat) (x : Port) : (setPort b p x).invals = b.invals := rfl
@[simp] theorem modPort_invals (b : Block) (p : Nat) (f : Port → Port) : (modPort b p f).invals = b.invals := rfl
@[simp] theorem setPort_hubWr (b : Block) (p : Nat) (x : Port) : (setPort b p x).hubWr = b.hubWr := rfl
@[simp] theorem modPort_hubWr (b : Block) (p : Nat) (f : Port → Port) : (modPort b p f).hubWr = b.hubWr := rfl
@[simp] theorem setPort_hubQ (b : Block) (p : Nat) (x : Port) : (setPort b p x).hubQ = b.hubQ := rfl
@[simp] theorem modPort_hubQ (b : Block) (p : Nat) (f : Port → Port) : (modPort b p f).hubQ = b.hubQ := rfl
@[simp] theorem setPort_irqs (b : Block) (p : Nat) (x : Port) : (setPort b p x).irqs = b.irqs := rfl
@[simp] theorem modPort_irqs (b : Block) (p : Nat) (f : Port → Port) : (modPort b p f).irqs = b.irqs := rfl
@[simp] theorem setPort_gops (b : Block) (p : Nat) (x : Port) : (setPort b p x).gops = b.gops := rfl
@[simp] theorem modPort_gops (b : Block) (p : Nat) (f : Port → Port) : (modPort b p f).gops = b.gops := rfl
@[simp] theorem setPort_linkReset (b : Block) (p : Nat) (x : Port) : (setPort b p x).linkReset = b.linkReset := rfl
@[simp] theorem modPort_linkReset (b : Block) (p : Nat) (f : Port → Port) : (modPort b p f).linkReset = b.linkReset := rfl
@[simp] theorem setPort_colour (b : Block) (p : Nat) (x : Port) : (setPort b p x).colour = b.colour := rfl
@[simp] theorem modPort_colour (b : Block) (p : Nat) (f : Port → Port) : (modPort b p f).colour = b.colour := rfl
@[simp] theorem setPort_vault (b : Block) (p : Nat) (x : Port) : (setPort b p x).vault = b.vault := rfl
@[simp] theorem modPort_vault (b : Block) (p : Nat) (f : Port → Port) : (modPort b p f).vault = b.vault := rfl
@[simp] theorem setPort_ref (b : Block) (p : Nat) (x : Port) : (setPort b p x).ref = b.ref := rfl
@[simp] theorem modPort_ref (b : Block) (p : Nat) (f : Port → Port) : (modPort b p f).ref = b.ref := rfl
@[simp] theorem setPort_pwr (b : Block) (p : Nat) (x : Port) : (setPort b p x).pwr = b.pwr := rfl
@[simp] theorem modPort_pwr (b : Block) (p : Nat) (f : Port → Port) : (modPort b p f).pwr = b.pwr := rfl
@[simp] theorem setPort_mgmt (b : Block) (p : Nat) (x : Port) : (setPort b p x).mgmt = b.mgmt := rfl
@[simp] theorem modPort_mgmt (b : Block) (p : Nat) (f : Port → Port) : (modPort b p f).mgmt = b.mgmt := rfl
@[simp] theorem setPort_counters (b : Block) (p : Nat) (x : Port) : (setPort b p x).counters = b.counters := rfl
@[simp] theorem modPort_counters (b : Block) (p : Nat) (f : Port → Port) : (modPort b p f).counters = b.counters := rfl
@[simp] theorem setPort_frzTime (b : Block) (p : Nat) (x : Port) : (setPort b p x).frzTime = b.frzTime := rfl
@[simp] theorem modPort_frzTime (b : Block) (p : Nat) (f : Port → Port) : (modPort b p f).frzTime = b.frzTime := rfl
@[simp] theorem setPort_aoTime (b : Block) (p : Nat) (x : Port) : (setPort b p x).aoTime = b.aoTime := rfl
@[simp] theorem modPort_aoTime (b : Block) (p : Nat) (f : Port → Port) : (modPort b p f).aoTime = b.aoTime := rfl
@[simp] theorem setPort_ponTime (b : Block) (p : Nat) (x : Port) : (setPort b p x).ponTime = b.ponTime := rfl
@[simp] theorem modPort_ponTime (b : Block) (p : Nat) (f : Port → Port) : (modPort b p f).ponTime = b.ponTime := rfl
@[simp] theorem setPort_badRegs (b : Block) (p : Nat) (x : Port) : (setPort b p x).badRegs = b.badRegs := rfl
@[simp] theorem modPort_badRegs (b : Block) (p : Nat) (f : Port → Port) : (modPort b p f).badRegs = b.badRegs := rfl
@[simp] theorem setPort_hazLatch (b : Block) (p : Nat) (x : Port) : (setPort b p x).hazLatch = b.hazLatch := rfl
@[simp] theorem modPort_hazLatch (b : Block) (p : Nat) (f : Port → Port) : (modPort b p f).hazLatch = b.hazLatch := rfl
@[simp] theorem setPort_nextId (b : Block) (p : Nat) (x : Port) : (setPort b p x).nextId = b.nextId := rfl
@[simp] theorem modPort_nextId (b : Block) (p : Nat) (f : Port → Port) : (modPort b p f).nextId = b.nextId := rfl
@[simp] theorem setPort_fresh (b : Block) (p : Nat) (x : Port) : (setPort b p x).fresh = b.fresh := rfl
@[simp] theorem modPort_fresh (b : Block) (p : Nat) (f : Port → Port) : (modPort b p f).fresh = b.fresh := rfl
@[simp] theorem get_setGop (b : Block) (i : Nat) (x : Gop) : getGop (setGop b i x) i = x := by
  simp [getGop, setGop]
@[simp] theorem get_modGop (b : Block) (i : Nat) (f : Gop → Gop) : getGop (modGop b i f) i = f (getGop b i) := by
  simp [modGop]
@[simp] theorem setGop_regs (b : Block) (i : Nat) (x : Gop) : (setGop b i x).regs = b.regs := rfl
@[simp] theorem modGop_regs (b : Block) (i : Nat) (f : Gop → Gop) : (modGop b i f).regs = b.regs := rfl
@[simp] theorem setGop_cfg (b : Block) (i : Nat) (x : Gop) : (setGop b i x).cfg = b.cfg := rfl
@[simp] theorem modGop_cfg (b : Block) (i : Nat) (f : Gop → Gop) : (modGop b i f).cfg = b.cfg := rfl
@[simp] theorem setGop_chans (b : Block) (i : Nat) (x : Gop) : (setGop b i x).chans = b.chans := rfl
@[simp] theorem modGop_chans (b : Block) (i : Nat) (f : Gop → Gop) : (modGop b i f).chans = b.chans := rfl
@[simp] theorem setGop_strands (b : Block) (i : Nat) (x : Gop) : (setGop b i x).strands = b.strands := rfl
@[simp] theorem modGop_strands (b : Block) (i : Nat) (f : Gop → Gop) : (modGop b i f).strands = b.strands := rfl
@[simp] theorem setGop_stations (b : Block) (i : Nat) (x : Gop) : (setGop b i x).stations = b.stations := rfl
@[simp] theorem modGop_stations (b : Block) (i : Nat) (f : Gop → Gop) : (modGop b i f).stations = b.stations := rfl
@[simp] theorem setGop_tallies (b : Block) (i : Nat) (x : Gop) : (setGop b i x).tallies = b.tallies := rfl
@[simp] theorem modGop_tallies (b : Block) (i : Nat) (f : Gop → Gop) : (modGop b i f).tallies = b.tallies := rfl
@[simp] theorem setGop_adds (b : Block) (i : Nat) (x : Gop) : (setGop b i x).adds = b.adds := rfl
@[simp] theorem modGop_adds (b : Block) (i : Nat) (f : Gop → Gop) : (modGop b i f).adds = b.adds := rfl
@[simp] theorem setGop_walks (b : Block) (i : Nat) (x : Gop) : (setGop b i x).walks = b.walks := rfl
@[simp] theorem modGop_walks (b : Block) (i : Nat) (f : Gop → Gop) : (modGop b i f).walks = b.walks := rfl
@[simp] theorem setGop_parts (b : Block) (i : Nat) (x : Gop) : (setGop b i x).parts = b.parts := rfl
@[simp] theorem modGop_parts (b : Block) (i : Nat) (f : Gop → Gop) : (modGop b i f).parts = b.parts := rfl
@[simp] theorem setGop_standby (b : Block) (i : Nat) (x : Gop) : (setGop b i x).standby = b.standby := rfl
@[simp] theorem modGop_standby (b : Block) (i : Nat) (f : Gop → Gop) : (modGop b i f).standby = b.standby := rfl
@[simp] theorem setGop_commitQ (b : Block) (i : Nat) (x : Gop) : (setGop b i x).commitQ = b.commitQ := rfl
@[simp] theorem modGop_commitQ (b : Block) (i : Nat) (f : Gop → Gop) : (modGop b i f).commitQ = b.commitQ := rfl
@[simp] theorem setGop_invQ (b : Block) (i : Nat) (x : Gop) : (setGop b i x).invQ = b.invQ := rfl
@[simp] theorem modGop_invQ (b : Block) (i : Nat) (f : Gop → Gop) : (modGop b i f).invQ = b.invQ := rfl
@[simp] theorem setGop_invals (b : Block) (i : Nat) (x : Gop) : (setGop b i x).invals = b.invals := rfl
@[simp] theorem modGop_invals (b : Block) (i : Nat) (f : Gop → Gop) : (modGop b i f).invals = b.invals := rfl
@[simp] theorem setGop_hubWr (b : Block) (i : Nat) (x : Gop) : (setGop b i x).hubWr = b.hubWr := rfl
@[simp] theorem modGop_hubWr (b : Block) (i : Nat) (f : Gop → Gop) : (modGop b i f).hubWr = b.hubWr := rfl
@[simp] theorem setGop_hubQ (b : Block) (i : Nat) (x : Gop) : (setGop b i x).hubQ = b.hubQ := rfl
@[simp] theorem modGop_hubQ (b : Block) (i : Nat) (f : Gop → Gop) : (modGop b i f).hubQ = b.hubQ := rfl
@[simp] theorem setGop_irqs (b : Block) (i : Nat) (x : Gop) : (setGop b i x).irqs = b.irqs := rfl
@[simp] theorem modGop_irqs (b : Block) (i : Nat) (f : Gop → Gop) : (modGop b i f).irqs = b.irqs := rfl
@[simp] theorem setGop_ports (b : Block) (i : Nat) (x : Gop) : (setGop b i x).ports = b.ports := rfl
@[simp] theorem modGop_ports (b : Block) (i : Nat) (f : Gop → Gop) : (modGop b i f).ports = b.ports := rfl
@[simp] theorem setGop_linkReset (b : Block) (i : Nat) (x : Gop) : (setGop b i x).linkReset = b.linkReset := rfl
@[simp] theorem modGop_linkReset (b : Block) (i : Nat) (f : Gop → Gop) : (modGop b i f).linkReset = b.linkReset := rfl
@[simp] theorem setGop_colour (b : Block) (i : Nat) (x : Gop) : (setGop b i x).colour = b.colour := rfl
@[simp] theorem modGop_colour (b : Block) (i : Nat) (f : Gop → Gop) : (modGop b i f).colour = b.colour := rfl
@[simp] theorem setGop_vault (b : Block) (i : Nat) (x : Gop) : (setGop b i x).vault = b.vault := rfl
@[simp] theorem modGop_vault (b : Block) (i : Nat) (f : Gop → Gop) : (modGop b i f).vault = b.vault := rfl
@[simp] theorem setGop_ref (b : Block) (i : Nat) (x : Gop) : (setGop b i x).ref = b.ref := rfl
@[simp] theorem modGop_ref (b : Block) (i : Nat) (f : Gop → Gop) : (modGop b i f).ref = b.ref := rfl
@[simp] theorem setGop_pwr (b : Block) (i : Nat) (x : Gop) : (setGop b i x).pwr = b.pwr := rfl
@[simp] theorem modGop_pwr (b : Block) (i : Nat) (f : Gop → Gop) : (modGop b i f).pwr = b.pwr := rfl
@[simp] theorem setGop_mgmt (b : Block) (i : Nat) (x : Gop) : (setGop b i x).mgmt = b.mgmt := rfl
@[simp] theorem modGop_mgmt (b : Block) (i : Nat) (f : Gop → Gop) : (modGop b i f).mgmt = b.mgmt := rfl
@[simp] theorem setGop_counters (b : Block) (i : Nat) (x : Gop) : (setGop b i x).counters = b.counters := rfl
@[simp] theorem modGop_counters (b : Block) (i : Nat) (f : Gop → Gop) : (modGop b i f).counters = b.counters := rfl
@[simp] theorem setGop_frzTime (b : Block) (i : Nat) (x : Gop) : (setGop b i x).frzTime = b.frzTime := rfl
@[simp] theorem modGop_frzTime (b : Block) (i : Nat) (f : Gop → Gop) : (modGop b i f).frzTime = b.frzTime := rfl
@[simp] theorem setGop_aoTime (b : Block) (i : Nat) (x : Gop) : (setGop b i x).aoTime = b.aoTime := rfl
@[simp] theorem modGop_aoTime (b : Block) (i : Nat) (f : Gop → Gop) : (modGop b i f).aoTime = b.aoTime := rfl
@[simp] theorem setGop_ponTime (b : Block) (i : Nat) (x : Gop) : (setGop b i x).ponTime = b.ponTime := rfl
@[simp] theorem modGop_ponTime (b : Block) (i : Nat) (f : Gop → Gop) : (modGop b i f).ponTime = b.ponTime := rfl
@[simp] theorem setGop_badRegs (b : Block) (i : Nat) (x : Gop) : (setGop b i x).badRegs = b.badRegs := rfl
@[simp] theorem modGop_badRegs (b : Block) (i : Nat) (f : Gop → Gop) : (modGop b i f).badRegs = b.badRegs := rfl
@[simp] theorem setGop_hazLatch (b : Block) (i : Nat) (x : Gop) : (setGop b i x).hazLatch = b.hazLatch := rfl
@[simp] theorem modGop_hazLatch (b : Block) (i : Nat) (f : Gop → Gop) : (modGop b i f).hazLatch = b.hazLatch := rfl
@[simp] theorem setGop_nextId (b : Block) (i : Nat) (x : Gop) : (setGop b i x).nextId = b.nextId := rfl
@[simp] theorem modGop_nextId (b : Block) (i : Nat) (f : Gop → Gop) : (modGop b i f).nextId = b.nextId := rfl
@[simp] theorem setGop_fresh (b : Block) (i : Nat) (x : Gop) : (setGop b i x).fresh = b.fresh := rfl
@[simp] theorem modGop_fresh (b : Block) (i : Nat) (f : Gop → Gop) : (modGop b i f).fresh = b.fresh := rfl
@[simp] theorem get_setSrc (b : Block) (i : Nat) (x : Src) : getSrc (setSrc b i x) i = x := by
  simp [getSrc, setSrc]
@[simp] theorem get_setObj (b : Block) (o : Nat) (x : Obj) : getObj (setObj b o x) o = x := by
  simp [getObj, setObj, modVault]
@[simp] theorem modVault_vault (b : Block) (f : Vault → Vault) : (modVault b f).vault = f b.vault := rfl
@[simp] theorem modVault_regs (b : Block) (f : Vault → Vault) : (modVault b f).regs = b.regs := rfl
@[simp] theorem modVault_cfg (b : Block) (f : Vault → Vault) : (modVault b f).cfg = b.cfg := rfl
@[simp] theorem modVault_chans (b : Block) (f : Vault → Vault) : (modVault b f).chans = b.chans := rfl
@[simp] theorem modVault_strands (b : Block) (f : Vault → Vault) : (modVault b f).strands = b.strands := rfl
@[simp] theorem modVault_stations (b : Block) (f : Vault → Vault) : (modVault b f).stations = b.stations := rfl
@[simp] theorem modVault_tallies (b : Block) (f : Vault → Vault) : (modVault b f).tallies = b.tallies := rfl
@[simp] theorem modVault_adds (b : Block) (f : Vault → Vault) : (modVault b f).adds = b.adds := rfl
@[simp] theorem modVault_walks (b : Block) (f : Vault → Vault) : (modVault b f).walks = b.walks := rfl
@[simp] theorem modVault_parts (b : Block) (f : Vault → Vault) : (modVault b f).parts = b.parts := rfl
@[simp] theorem modVault_standby (b : Block) (f : Vault → Vault) : (modVault b f).standby = b.standby := rfl
@[simp] theorem modVault_commitQ (b : Block) (f : Vault → Vault) : (modVault b f).commitQ = b.commitQ := rfl
@[simp] theorem modVault_invQ (b : Block) (f : Vault → Vault) : (modVault b f).invQ = b.invQ := rfl
@[simp] theorem modVault_invals (b : Block) (f : Vault → Vault) : (modVault b f).invals = b.invals := rfl
@[simp] theorem modVault_hubWr (b : Block) (f : Vault → Vault) : (modVault b f).hubWr = b.hubWr := rfl
@[simp] theorem modVault_hubQ (b : Block) (f : Vault → Vault) : (modVault b f).hubQ = b.hubQ := rfl
@[simp] theorem modVault_irqs (b : Block) (f : Vault → Vault) : (modVault b f).irqs = b.irqs := rfl
@[simp] theorem modVault_ports (b : Block) (f : Vault → Vault) : (modVault b f).ports = b.ports := rfl
@[simp] theorem modVault_gops (b : Block) (f : Vault → Vault) : (modVault b f).gops = b.gops := rfl
@[simp] theorem modVault_linkReset (b : Block) (f : Vault → Vault) : (modVault b f).linkReset = b.linkReset := rfl
@[simp] theorem modVault_colour (b : Block) (f : Vault → Vault) : (modVault b f).colour = b.colour := rfl
@[simp] theorem modVault_ref (b : Block) (f : Vault → Vault) : (modVault b f).ref = b.ref := rfl
@[simp] theorem modVault_pwr (b : Block) (f : Vault → Vault) : (modVault b f).pwr = b.pwr := rfl
@[simp] theorem modVault_mgmt (b : Block) (f : Vault → Vault) : (modVault b f).mgmt = b.mgmt := rfl
@[simp] theorem modVault_counters (b : Block) (f : Vault → Vault) : (modVault b f).counters = b.counters := rfl
@[simp] theorem modVault_frzTime (b : Block) (f : Vault → Vault) : (modVault b f).frzTime = b.frzTime := rfl
@[simp] theorem modVault_aoTime (b : Block) (f : Vault → Vault) : (modVault b f).aoTime = b.aoTime := rfl
@[simp] theorem modVault_ponTime (b : Block) (f : Vault → Vault) : (modVault b f).ponTime = b.ponTime := rfl
@[simp] theorem modVault_badRegs (b : Block) (f : Vault → Vault) : (modVault b f).badRegs = b.badRegs := rfl
@[simp] theorem modVault_hazLatch (b : Block) (f : Vault → Vault) : (modVault b f).hazLatch = b.hazLatch := rfl
@[simp] theorem modVault_nextId (b : Block) (f : Vault → Vault) : (modVault b f).nextId = b.nextId := rfl
@[simp] theorem modVault_fresh (b : Block) (f : Vault → Vault) : (modVault b f).fresh = b.fresh := rfl
@[simp] theorem modRef_ref (b : Block) (f : Referee → Referee) : (modRef b f).ref = f b.ref := rfl
@[simp] theorem modRef_regs (b : Block) (f : Referee → Referee) : (modRef b f).regs = b.regs := rfl
@[simp] theorem modRef_cfg (b : Block) (f : Referee → Referee) : (modRef b f).cfg = b.cfg := rfl
@[simp] theorem modRef_chans (b : Block) (f : Referee → Referee) : (modRef b f).chans = b.chans := rfl
@[simp] theorem modRef_strands (b : Block) (f : Referee → Referee) : (modRef b f).strands = b.strands := rfl
@[simp] theorem modRef_stations (b : Block) (f : Referee → Referee) : (modRef b f).stations = b.stations := rfl
@[simp] theorem modRef_tallies (b : Block) (f : Referee → Referee) : (modRef b f).tallies = b.tallies := rfl
@[simp] theorem modRef_adds (b : Block) (f : Referee → Referee) : (modRef b f).adds = b.adds := rfl
@[simp] theorem modRef_walks (b : Block) (f : Referee → Referee) : (modRef b f).walks = b.walks := rfl
@[simp] theorem modRef_parts (b : Block) (f : Referee → Referee) : (modRef b f).parts = b.parts := rfl
@[simp] theorem modRef_standby (b : Block) (f : Referee → Referee) : (modRef b f).standby = b.standby := rfl
@[simp] theorem modRef_commitQ (b : Block) (f : Referee → Referee) : (modRef b f).commitQ = b.commitQ := rfl
@[simp] theorem modRef_invQ (b : Block) (f : Referee → Referee) : (modRef b f).invQ = b.invQ := rfl
@[simp] theorem modRef_invals (b : Block) (f : Referee → Referee) : (modRef b f).invals = b.invals := rfl
@[simp] theorem modRef_hubWr (b : Block) (f : Referee → Referee) : (modRef b f).hubWr = b.hubWr := rfl
@[simp] theorem modRef_hubQ (b : Block) (f : Referee → Referee) : (modRef b f).hubQ = b.hubQ := rfl
@[simp] theorem modRef_irqs (b : Block) (f : Referee → Referee) : (modRef b f).irqs = b.irqs := rfl
@[simp] theorem modRef_ports (b : Block) (f : Referee → Referee) : (modRef b f).ports = b.ports := rfl
@[simp] theorem modRef_gops (b : Block) (f : Referee → Referee) : (modRef b f).gops = b.gops := rfl
@[simp] theorem modRef_linkReset (b : Block) (f : Referee → Referee) : (modRef b f).linkReset = b.linkReset := rfl
@[simp] theorem modRef_colour (b : Block) (f : Referee → Referee) : (modRef b f).colour = b.colour := rfl
@[simp] theorem modRef_vault (b : Block) (f : Referee → Referee) : (modRef b f).vault = b.vault := rfl
@[simp] theorem modRef_pwr (b : Block) (f : Referee → Referee) : (modRef b f).pwr = b.pwr := rfl
@[simp] theorem modRef_mgmt (b : Block) (f : Referee → Referee) : (modRef b f).mgmt = b.mgmt := rfl
@[simp] theorem modRef_counters (b : Block) (f : Referee → Referee) : (modRef b f).counters = b.counters := rfl
@[simp] theorem modRef_frzTime (b : Block) (f : Referee → Referee) : (modRef b f).frzTime = b.frzTime := rfl
@[simp] theorem modRef_aoTime (b : Block) (f : Referee → Referee) : (modRef b f).aoTime = b.aoTime := rfl
@[simp] theorem modRef_ponTime (b : Block) (f : Referee → Referee) : (modRef b f).ponTime = b.ponTime := rfl
@[simp] theorem modRef_badRegs (b : Block) (f : Referee → Referee) : (modRef b f).badRegs = b.badRegs := rfl
@[simp] theorem modRef_hazLatch (b : Block) (f : Referee → Referee) : (modRef b f).hazLatch = b.hazLatch := rfl
@[simp] theorem modRef_nextId (b : Block) (f : Referee → Referee) : (modRef b f).nextId = b.nextId := rfl
@[simp] theorem modRef_fresh (b : Block) (f : Referee → Referee) : (modRef b f).fresh = b.fresh := rfl
@[simp] theorem modMgmt_mgmt (b : Block) (f : Mgmt → Mgmt) : (modMgmt b f).mgmt = f b.mgmt := rfl
@[simp] theorem modMgmt_regs (b : Block) (f : Mgmt → Mgmt) : (modMgmt b f).regs = b.regs := rfl
@[simp] theorem modMgmt_cfg (b : Block) (f : Mgmt → Mgmt) : (modMgmt b f).cfg = b.cfg := rfl
@[simp] theorem modMgmt_chans (b : Block) (f : Mgmt → Mgmt) : (modMgmt b f).chans = b.chans := rfl
@[simp] theorem modMgmt_strands (b : Block) (f : Mgmt → Mgmt) : (modMgmt b f).strands = b.strands := rfl
@[simp] theorem modMgmt_stations (b : Block) (f : Mgmt → Mgmt) : (modMgmt b f).stations = b.stations := rfl
@[simp] theorem modMgmt_tallies (b : Block) (f : Mgmt → Mgmt) : (modMgmt b f).tallies = b.tallies := rfl
@[simp] theorem modMgmt_adds (b : Block) (f : Mgmt → Mgmt) : (modMgmt b f).adds = b.adds := rfl
@[simp] theorem modMgmt_walks (b : Block) (f : Mgmt → Mgmt) : (modMgmt b f).walks = b.walks := rfl
@[simp] theorem modMgmt_parts (b : Block) (f : Mgmt → Mgmt) : (modMgmt b f).parts = b.parts := rfl
@[simp] theorem modMgmt_standby (b : Block) (f : Mgmt → Mgmt) : (modMgmt b f).standby = b.standby := rfl
@[simp] theorem modMgmt_commitQ (b : Block) (f : Mgmt → Mgmt) : (modMgmt b f).commitQ = b.commitQ := rfl
@[simp] theorem modMgmt_invQ (b : Block) (f : Mgmt → Mgmt) : (modMgmt b f).invQ = b.invQ := rfl
@[simp] theorem modMgmt_invals (b : Block) (f : Mgmt → Mgmt) : (modMgmt b f).invals = b.invals := rfl
@[simp] theorem modMgmt_hubWr (b : Block) (f : Mgmt → Mgmt) : (modMgmt b f).hubWr = b.hubWr := rfl
@[simp] theorem modMgmt_hubQ (b : Block) (f : Mgmt → Mgmt) : (modMgmt b f).hubQ = b.hubQ := rfl
@[simp] theorem modMgmt_irqs (b : Block) (f : Mgmt → Mgmt) : (modMgmt b f).irqs = b.irqs := rfl
@[simp] theorem modMgmt_ports (b : Block) (f : Mgmt → Mgmt) : (modMgmt b f).ports = b.ports := rfl
@[simp] theorem modMgmt_gops (b : Block) (f : Mgmt → Mgmt) : (modMgmt b f).gops = b.gops := rfl
@[simp] theorem modMgmt_linkReset (b : Block) (f : Mgmt → Mgmt) : (modMgmt b f).linkReset = b.linkReset := rfl
@[simp] theorem modMgmt_colour (b : Block) (f : Mgmt → Mgmt) : (modMgmt b f).colour = b.colour := rfl
@[simp] theorem modMgmt_vault (b : Block) (f : Mgmt → Mgmt) : (modMgmt b f).vault = b.vault := rfl
@[simp] theorem modMgmt_ref (b : Block) (f : Mgmt → Mgmt) : (modMgmt b f).ref = b.ref := rfl
@[simp] theorem modMgmt_pwr (b : Block) (f : Mgmt → Mgmt) : (modMgmt b f).pwr = b.pwr := rfl
@[simp] theorem modMgmt_counters (b : Block) (f : Mgmt → Mgmt) : (modMgmt b f).counters = b.counters := rfl
@[simp] theorem modMgmt_frzTime (b : Block) (f : Mgmt → Mgmt) : (modMgmt b f).frzTime = b.frzTime := rfl
@[simp] theorem modMgmt_aoTime (b : Block) (f : Mgmt → Mgmt) : (modMgmt b f).aoTime = b.aoTime := rfl
@[simp] theorem modMgmt_ponTime (b : Block) (f : Mgmt → Mgmt) : (modMgmt b f).ponTime = b.ponTime := rfl
@[simp] theorem modMgmt_badRegs (b : Block) (f : Mgmt → Mgmt) : (modMgmt b f).badRegs = b.badRegs := rfl
@[simp] theorem modMgmt_hazLatch (b : Block) (f : Mgmt → Mgmt) : (modMgmt b f).hazLatch = b.hazLatch := rfl
@[simp] theorem modMgmt_nextId (b : Block) (f : Mgmt → Mgmt) : (modMgmt b f).nextId = b.nextId := rfl
@[simp] theorem modMgmt_fresh (b : Block) (f : Mgmt → Mgmt) : (modMgmt b f).fresh = b.fresh := rfl
@[simp] theorem modPwr_pwr (b : Block) (f : Pwr → Pwr) : (modPwr b f).pwr = f b.pwr := rfl
@[simp] theorem modPwr_regs (b : Block) (f : Pwr → Pwr) : (modPwr b f).regs = b.regs := rfl
@[simp] theorem modPwr_cfg (b : Block) (f : Pwr → Pwr) : (modPwr b f).cfg = b.cfg := rfl
@[simp] theorem modPwr_chans (b : Block) (f : Pwr → Pwr) : (modPwr b f).chans = b.chans := rfl
@[simp] theorem modPwr_strands (b : Block) (f : Pwr → Pwr) : (modPwr b f).strands = b.strands := rfl
@[simp] theorem modPwr_stations (b : Block) (f : Pwr → Pwr) : (modPwr b f).stations = b.stations := rfl
@[simp] theorem modPwr_tallies (b : Block) (f : Pwr → Pwr) : (modPwr b f).tallies = b.tallies := rfl
@[simp] theorem modPwr_adds (b : Block) (f : Pwr → Pwr) : (modPwr b f).adds = b.adds := rfl
@[simp] theorem modPwr_walks (b : Block) (f : Pwr → Pwr) : (modPwr b f).walks = b.walks := rfl
@[simp] theorem modPwr_parts (b : Block) (f : Pwr → Pwr) : (modPwr b f).parts = b.parts := rfl
@[simp] theorem modPwr_standby (b : Block) (f : Pwr → Pwr) : (modPwr b f).standby = b.standby := rfl
@[simp] theorem modPwr_commitQ (b : Block) (f : Pwr → Pwr) : (modPwr b f).commitQ = b.commitQ := rfl
@[simp] theorem modPwr_invQ (b : Block) (f : Pwr → Pwr) : (modPwr b f).invQ = b.invQ := rfl
@[simp] theorem modPwr_invals (b : Block) (f : Pwr → Pwr) : (modPwr b f).invals = b.invals := rfl
@[simp] theorem modPwr_hubWr (b : Block) (f : Pwr → Pwr) : (modPwr b f).hubWr = b.hubWr := rfl
@[simp] theorem modPwr_hubQ (b : Block) (f : Pwr → Pwr) : (modPwr b f).hubQ = b.hubQ := rfl
@[simp] theorem modPwr_irqs (b : Block) (f : Pwr → Pwr) : (modPwr b f).irqs = b.irqs := rfl
@[simp] theorem modPwr_ports (b : Block) (f : Pwr → Pwr) : (modPwr b f).ports = b.ports := rfl
@[simp] theorem modPwr_gops (b : Block) (f : Pwr → Pwr) : (modPwr b f).gops = b.gops := rfl
@[simp] theorem modPwr_linkReset (b : Block) (f : Pwr → Pwr) : (modPwr b f).linkReset = b.linkReset := rfl
@[simp] theorem modPwr_colour (b : Block) (f : Pwr → Pwr) : (modPwr b f).colour = b.colour := rfl
@[simp] theorem modPwr_vault (b : Block) (f : Pwr → Pwr) : (modPwr b f).vault = b.vault := rfl
@[simp] theorem modPwr_ref (b : Block) (f : Pwr → Pwr) : (modPwr b f).ref = b.ref := rfl
@[simp] theorem modPwr_mgmt (b : Block) (f : Pwr → Pwr) : (modPwr b f).mgmt = b.mgmt := rfl
@[simp] theorem modPwr_counters (b : Block) (f : Pwr → Pwr) : (modPwr b f).counters = b.counters := rfl
@[simp] theorem modPwr_frzTime (b : Block) (f : Pwr → Pwr) : (modPwr b f).frzTime = b.frzTime := rfl
@[simp] theorem modPwr_aoTime (b : Block) (f : Pwr → Pwr) : (modPwr b f).aoTime = b.aoTime := rfl
@[simp] theorem modPwr_ponTime (b : Block) (f : Pwr → Pwr) : (modPwr b f).ponTime = b.ponTime := rfl
@[simp] theorem modPwr_badRegs (b : Block) (f : Pwr → Pwr) : (modPwr b f).badRegs = b.badRegs := rfl
@[simp] theorem modPwr_hazLatch (b : Block) (f : Pwr → Pwr) : (modPwr b f).hazLatch = b.hazLatch := rfl
@[simp] theorem modPwr_nextId (b : Block) (f : Pwr → Pwr) : (modPwr b f).nextId = b.nextId := rfl
@[simp] theorem modPwr_fresh (b : Block) (f : Pwr → Pwr) : (modPwr b f).fresh = b.fresh := rfl
@[simp] theorem rset_cfg (b : Block) (a v : Nat) : (rset b a v).cfg = b.cfg := rfl
@[simp] theorem rset_chans (b : Block) (a v : Nat) : (rset b a v).chans = b.chans := rfl
@[simp] theorem rset_strands (b : Block) (a v : Nat) : (rset b a v).strands = b.strands := rfl
@[simp] theorem rset_stations (b : Block) (a v : Nat) : (rset b a v).stations = b.stations := rfl
@[simp] theorem rset_tallies (b : Block) (a v : Nat) : (rset b a v).tallies = b.tallies := rfl
@[simp] theorem rset_adds (b : Block) (a v : Nat) : (rset b a v).adds = b.adds := rfl
@[simp] theorem rset_walks (b : Block) (a v : Nat) : (rset b a v).walks = b.walks := rfl
@[simp] theorem rset_parts (b : Block) (a v : Nat) : (rset b a v).parts = b.parts := rfl
@[simp] theorem rset_standby (b : Block) (a v : Nat) : (rset b a v).standby = b.standby := rfl
@[simp] theorem rset_commitQ (b : Block) (a v : Nat) : (rset b a v).commitQ = b.commitQ := rfl
@[simp] theorem rset_invQ (b : Block) (a v : Nat) : (rset b a v).invQ = b.invQ := rfl
@[simp] theorem rset_invals (b : Block) (a v : Nat) : (rset b a v).invals = b.invals := rfl
@[simp] theorem rset_hubWr (b : Block) (a v : Nat) : (rset b a v).hubWr = b.hubWr := rfl
@[simp] theorem rset_hubQ (b : Block) (a v : Nat) : (rset b a v).hubQ = b.hubQ := rfl
@[simp] theorem rset_irqs (b : Block) (a v : Nat) : (rset b a v).irqs = b.irqs := rfl
@[simp] theorem rset_ports (b : Block) (a v : Nat) : (rset b a v).ports = b.ports := rfl
@[simp] theorem rset_gops (b : Block) (a v : Nat) : (rset b a v).gops = b.gops := rfl
@[simp] theorem rset_linkReset (b : Block) (a v : Nat) : (rset b a v).linkReset = b.linkReset := rfl
@[simp] theorem rset_colour (b : Block) (a v : Nat) : (rset b a v).colour = b.colour := rfl
@[simp] theorem rset_vault (b : Block) (a v : Nat) : (rset b a v).vault = b.vault := rfl
@[simp] theorem rset_ref (b : Block) (a v : Nat) : (rset b a v).ref = b.ref := rfl
@[simp] theorem rset_pwr (b : Block) (a v : Nat) : (rset b a v).pwr = b.pwr := rfl
@[simp] theorem rset_mgmt (b : Block) (a v : Nat) : (rset b a v).mgmt = b.mgmt := rfl
@[simp] theorem rset_counters (b : Block) (a v : Nat) : (rset b a v).counters = b.counters := rfl
@[simp] theorem rset_frzTime (b : Block) (a v : Nat) : (rset b a v).frzTime = b.frzTime := rfl
@[simp] theorem rset_aoTime (b : Block) (a v : Nat) : (rset b a v).aoTime = b.aoTime := rfl
@[simp] theorem rset_ponTime (b : Block) (a v : Nat) : (rset b a v).ponTime = b.ponTime := rfl
@[simp] theorem rset_badRegs (b : Block) (a v : Nat) : (rset b a v).badRegs = b.badRegs := rfl
@[simp] theorem rset_hazLatch (b : Block) (a v : Nat) : (rset b a v).hazLatch = b.hazLatch := rfl
@[simp] theorem rset_nextId (b : Block) (a v : Nat) : (rset b a v).nextId = b.nextId := rfl
@[simp] theorem rset_fresh (b : Block) (a v : Nat) : (rset b a v).fresh = b.fresh := rfl
@[simp] theorem setChan_setChan (b : Block) (n c : Nat) (x y : Chan) : setChan (setChan b n c x) n c y = setChan b n c y := by
  simp [setChan]
@[simp] theorem modChan_setChan (b : Block) (n c : Nat) (x : Chan) (f : Chan → Chan) : modChan (setChan b n c x) n c f = setChan b n c (f x) := by
  simp [modChan]
@[simp] theorem modChan_modChan (b : Block) (n c : Nat) (f g : Chan → Chan) :
    modChan (modChan b n c f) n c g = modChan b n c (fun x => g (f x)) := by
  simp [modChan]
@[simp] theorem setStrand_setStrand (b : Block) (n k : Nat) (x y : Strand) : setStrand (setStrand b n k x) n k y = setStrand b n k y := by
  simp [setStrand]
@[simp] theorem modStrand_setStrand (b : Block) (n k : Nat) (x : Strand) (f : Strand → Strand) : modStrand (setStrand b n k x) n k f = setStrand b n k (f x) := by
  simp [modStrand]
@[simp] theorem modStrand_modStrand (b : Block) (n k : Nat) (f g : Strand → Strand) :
    modStrand (modStrand b n k f) n k g = modStrand b n k (fun x => g (f x)) := by
  simp [modStrand]
@[simp] theorem setStn_setStn (b : Block) (n : Nat) (x y : Station) : setStn (setStn b n x) n y = setStn b n y := by
  simp [setStn]
@[simp] theorem modStn_setStn (b : Block) (n : Nat) (x : Station) (f : Station → Station) : modStn (setStn b n x) n f = setStn b n (f x) := by
  simp [modStn]
@[simp] theorem modStn_modStn (b : Block) (n : Nat) (f g : Station → Station) :
    modStn (modStn b n f) n g = modStn b n (fun x => g (f x)) := by
  simp [modStn]
@[simp] theorem setTal_setTal (b : Block) (t : Nat) (x y : Tally) : setTal (setTal b t x) t y = setTal b t y := by
  simp [setTal]
@[simp] theorem modTal_setTal (b : Block) (t : Nat) (x : Tally) (f : Tally → Tally) : modTal (setTal b t x) t f = setTal b t (f x) := by
  simp [modTal]
@[simp] theorem modTal_modTal (b : Block) (t : Nat) (f g : Tally → Tally) :
    modTal (modTal b t f) t g = modTal b t (fun x => g (f x)) := by
  simp [modTal]
@[simp] theorem setPart_setPart (b : Block) (p : Nat) (x y : Part) : setPart (setPart b p x) p y = setPart b p y := by
  simp [setPart]
@[simp] theorem modPart_setPart (b : Block) (p : Nat) (x : Part) (f : Part → Part) : modPart (setPart b p x) p f = setPart b p (f x) := by
  simp [modPart]
@[simp] theorem modPart_modPart (b : Block) (p : Nat) (f g : Part → Part) :
    modPart (modPart b p f) p g = modPart b p (fun x => g (f x)) := by
  simp [modPart]
@[simp] theorem setPort_setPort (b : Block) (p : Nat) (x y : Port) : setPort (setPort b p x) p y = setPort b p y := by
  simp [setPort]
@[simp] theorem modPort_setPort (b : Block) (p : Nat) (x : Port) (f : Port → Port) : modPort (setPort b p x) p f = setPort b p (f x) := by
  simp [modPort]
@[simp] theorem modPort_modPort (b : Block) (p : Nat) (f g : Port → Port) :
    modPort (modPort b p f) p g = modPort b p (fun x => g (f x)) := by
  simp [modPort]
@[simp] theorem setGop_setGop (b : Block) (i : Nat) (x y : Gop) : setGop (setGop b i x) i y = setGop b i y := by
  simp [setGop]
@[simp] theorem modGop_setGop (b : Block) (i : Nat) (x : Gop) (f : Gop → Gop) : modGop (setGop b i x) i f = setGop b i (f x) := by
  simp [modGop]
@[simp] theorem modGop_modGop (b : Block) (i : Nat) (f g : Gop → Gop) :
    modGop (modGop b i f) i g = modGop b i (fun x => g (f x)) := by
  simp [modGop]

/-! ## Reading one unit beside an update of another kind -/

@[simp] theorem getChan_setStrand (b : Block) (n c n' k' : Nat) (x : Strand) : getChan (setStrand b n' k' x) n c = getChan b n c := rfl
@[simp] theorem getChan_modStrand (b : Block) (n c n' k' : Nat) (f : Strand → Strand) : getChan (modStrand b n' k' f) n c = getChan b n c := rfl
@[simp] theorem getChan_setStn (b : Block) (n c n' : Nat) (x : Station) : getChan (setStn b n' x) n c = getChan b n c := rfl
@[simp] theorem getChan_modStn (b : Block) (n c n' : Nat) (f : Station → Station) : getChan (modStn b n' f) n c = getChan b n c := rfl
@[simp] theorem getChan_setTal (b : Block) (n c t' : Nat) (x : Tally) : getChan (setTal b t' x) n c = getChan b n c := rfl
@[simp] theorem getChan_modTal (b : Block) (n c t' : Nat) (f : Tally → Tally) : getChan (modTal b t' f) n c = getChan b n c := rfl
@[simp] theorem getChan_setPart (b : Block) (n c p' : Nat) (x : Part) : getChan (setPart b p' x) n c = getChan b n c := rfl
@[simp] theorem getChan_modPart (b : Block) (n c p' : Nat) (f : Part → Part) : getChan (modPart b p' f) n c = getChan b n c := rfl
@[simp] theorem getChan_setPort (b : Block) (n c p' : Nat) (x : Port) : getChan (setPort b p' x) n c = getChan b n c := rfl
@[simp] theorem getChan_modPort (b : Block) (n c p' : Nat) (f : Port → Port) : getChan (modPort b p' f) n c = getChan b n c := rfl
@[simp] theorem getChan_setGop (b : Block) (n c i' : Nat) (x : Gop) : getChan (setGop b i' x) n c = getChan b n c := rfl
@[simp] theorem getChan_modGop (b : Block) (n c i' : Nat) (f : Gop → Gop) : getChan (modGop b i' f) n c = getChan b n c := rfl
@[simp] theorem getChan_rset (b : Block) (n c i v : Nat) : getChan (rset b i v) n c = getChan b n c := rfl
@[simp] theorem getStrand_setChan (b : Block) (n k n' c' : Nat) (x : Chan) : getStrand (setChan b n' c' x) n k = getStrand b n k := rfl
@[simp] theorem getStrand_modChan (b : Block) (n k n' c' : Nat) (f : Chan → Chan) : getStrand (modChan b n' c' f) n k = getStrand b n k := rfl
@[simp] theorem getStrand_setStn (b : Block) (n k n' : Nat) (x : Station) : getStrand (setStn b n' x) n k = getStrand b n k := rfl
@[simp] theorem getStrand_modStn (b : Block) (n k n' : Nat) (f : Station → Station) : getStrand (modStn b n' f) n k = getStrand b n k := rfl
@[simp] theorem getStrand_setTal (b : Block) (n k t' : Nat) (x : Tally) : getStrand (setTal b t' x) n k = getStrand b n k := rfl
@[simp] theorem getStrand_modTal (b : Block) (n k t' : Nat) (f : Tally → Tally) : getStrand (modTal b t' f) n k = getStrand b n k := rfl
@[simp] theorem getStrand_setPart (b : Block) (n k p' : Nat) (x : Part) : getStrand (setPart b p' x) n k = getStrand b n k := rfl
@[simp] theorem getStrand_modPart (b : Block) (n k p' : Nat) (f : Part → Part) : getStrand (modPart b p' f) n k = getStrand b n k := rfl
@[simp] theorem getStrand_setPort (b : Block) (n k p' : Nat) (x : Port) : getStrand (setPort b p' x) n k = getStrand b n k := rfl
@[simp] theorem getStrand_modPort (b : Block) (n k p' : Nat) (f : Port → Port) : getStrand (modPort b p' f) n k = getStrand b n k := rfl
@[simp] theorem getStrand_setGop (b : Block) (n k i' : Nat) (x : Gop) : getStrand (setGop b i' x) n k = getStrand b n k := rfl
@[simp] theorem getStrand_modGop (b : Block) (n k i' : Nat) (f : Gop → Gop) : getStrand (modGop b i' f) n k = getStrand b n k := rfl
@[simp] theorem getStrand_rset (b : Block) (n k i v : Nat) : getStrand (rset b i v) n k = getStrand b n k := rfl
@[simp] theorem getStn_setChan (b : Block) (n n' c' : Nat) (x : Chan) : getStn (setChan b n' c' x) n = getStn b n := rfl
@[simp] theorem getStn_modChan (b : Block) (n n' c' : Nat) (f : Chan → Chan) : getStn (modChan b n' c' f) n = getStn b n := rfl
@[simp] theorem getStn_setStrand (b : Block) (n n' k' : Nat) (x : Strand) : getStn (setStrand b n' k' x) n = getStn b n := rfl
@[simp] theorem getStn_modStrand (b : Block) (n n' k' : Nat) (f : Strand → Strand) : getStn (modStrand b n' k' f) n = getStn b n := rfl
@[simp] theorem getStn_setTal (b : Block) (n t' : Nat) (x : Tally) : getStn (setTal b t' x) n = getStn b n := rfl
@[simp] theorem getStn_modTal (b : Block) (n t' : Nat) (f : Tally → Tally) : getStn (modTal b t' f) n = getStn b n := rfl
@[simp] theorem getStn_setPart (b : Block) (n p' : Nat) (x : Part) : getStn (setPart b p' x) n = getStn b n := rfl
@[simp] theorem getStn_modPart (b : Block) (n p' : Nat) (f : Part → Part) : getStn (modPart b p' f) n = getStn b n := rfl
@[simp] theorem getStn_setPort (b : Block) (n p' : Nat) (x : Port) : getStn (setPort b p' x) n = getStn b n := rfl
@[simp] theorem getStn_modPort (b : Block) (n p' : Nat) (f : Port → Port) : getStn (modPort b p' f) n = getStn b n := rfl
@[simp] theorem getStn_setGop (b : Block) (n i' : Nat) (x : Gop) : getStn (setGop b i' x) n = getStn b n := rfl
@[simp] theorem getStn_modGop (b : Block) (n i' : Nat) (f : Gop → Gop) : getStn (modGop b i' f) n = getStn b n := rfl
@[simp] theorem getStn_rset (b : Block) (n i v : Nat) : getStn (rset b i v) n = getStn b n := rfl
@[simp] theorem getTal_setChan (b : Block) (t n' c' : Nat) (x : Chan) : getTal (setChan b n' c' x) t = getTal b t := rfl
@[simp] theorem getTal_modChan (b : Block) (t n' c' : Nat) (f : Chan → Chan) : getTal (modChan b n' c' f) t = getTal b t := rfl
@[simp] theorem getTal_setStrand (b : Block) (t n' k' : Nat) (x : Strand) : getTal (setStrand b n' k' x) t = getTal b t := rfl
@[simp] theorem getTal_modStrand (b : Block) (t n' k' : Nat) (f : Strand → Strand) : getTal (modStrand b n' k' f) t = getTal b t := rfl
@[simp] theorem getTal_setStn (b : Block) (t n' : Nat) (x : Station) : getTal (setStn b n' x) t = getTal b t := rfl
@[simp] theorem getTal_modStn (b : Block) (t n' : Nat) (f : Station → Station) : getTal (modStn b n' f) t = getTal b t := rfl
@[simp] theorem getTal_setPart (b : Block) (t p' : Nat) (x : Part) : getTal (setPart b p' x) t = getTal b t := rfl
@[simp] theorem getTal_modPart (b : Block) (t p' : Nat) (f : Part → Part) : getTal (modPart b p' f) t = getTal b t := rfl
@[simp] theorem getTal_setPort (b : Block) (t p' : Nat) (x : Port) : getTal (setPort b p' x) t = getTal b t := rfl
@[simp] theorem getTal_modPort (b : Block) (t p' : Nat) (f : Port → Port) : getTal (modPort b p' f) t = getTal b t := rfl
@[simp] theorem getTal_setGop (b : Block) (t i' : Nat) (x : Gop) : getTal (setGop b i' x) t = getTal b t := rfl
@[simp] theorem getTal_modGop (b : Block) (t i' : Nat) (f : Gop → Gop) : getTal (modGop b i' f) t = getTal b t := rfl
@[simp] theorem getTal_rset (b : Block) (t i v : Nat) : getTal (rset b i v) t = getTal b t := rfl
@[simp] theorem getPart_setChan (b : Block) (p n' c' : Nat) (x : Chan) : getPart (setChan b n' c' x) p = getPart b p := rfl
@[simp] theorem getPart_modChan (b : Block) (p n' c' : Nat) (f : Chan → Chan) : getPart (modChan b n' c' f) p = getPart b p := rfl
@[simp] theorem getPart_setStrand (b : Block) (p n' k' : Nat) (x : Strand) : getPart (setStrand b n' k' x) p = getPart b p := rfl
@[simp] theorem getPart_modStrand (b : Block) (p n' k' : Nat) (f : Strand → Strand) : getPart (modStrand b n' k' f) p = getPart b p := rfl
@[simp] theorem getPart_setStn (b : Block) (p n' : Nat) (x : Station) : getPart (setStn b n' x) p = getPart b p := rfl
@[simp] theorem getPart_modStn (b : Block) (p n' : Nat) (f : Station → Station) : getPart (modStn b n' f) p = getPart b p := rfl
@[simp] theorem getPart_setTal (b : Block) (p t' : Nat) (x : Tally) : getPart (setTal b t' x) p = getPart b p := rfl
@[simp] theorem getPart_modTal (b : Block) (p t' : Nat) (f : Tally → Tally) : getPart (modTal b t' f) p = getPart b p := rfl
@[simp] theorem getPart_setPort (b : Block) (p p' : Nat) (x : Port) : getPart (setPort b p' x) p = getPart b p := rfl
@[simp] theorem getPart_modPort (b : Block) (p p' : Nat) (f : Port → Port) : getPart (modPort b p' f) p = getPart b p := rfl
@[simp] theorem getPart_setGop (b : Block) (p i' : Nat) (x : Gop) : getPart (setGop b i' x) p = getPart b p := rfl
@[simp] theorem getPart_modGop (b : Block) (p i' : Nat) (f : Gop → Gop) : getPart (modGop b i' f) p = getPart b p := rfl
@[simp] theorem getPart_rset (b : Block) (p i v : Nat) : getPart (rset b i v) p = getPart b p := rfl
@[simp] theorem getPort_setChan (b : Block) (p n' c' : Nat) (x : Chan) : getPort (setChan b n' c' x) p = getPort b p := rfl
@[simp] theorem getPort_modChan (b : Block) (p n' c' : Nat) (f : Chan → Chan) : getPort (modChan b n' c' f) p = getPort b p := rfl
@[simp] theorem getPort_setStrand (b : Block) (p n' k' : Nat) (x : Strand) : getPort (setStrand b n' k' x) p = getPort b p := rfl
@[simp] theorem getPort_modStrand (b : Block) (p n' k' : Nat) (f : Strand → Strand) : getPort (modStrand b n' k' f) p = getPort b p := rfl
@[simp] theorem getPort_setStn (b : Block) (p n' : Nat) (x : Station) : getPort (setStn b n' x) p = getPort b p := rfl
@[simp] theorem getPort_modStn (b : Block) (p n' : Nat) (f : Station → Station) : getPort (modStn b n' f) p = getPort b p := rfl
@[simp] theorem getPort_setTal (b : Block) (p t' : Nat) (x : Tally) : getPort (setTal b t' x) p = getPort b p := rfl
@[simp] theorem getPort_modTal (b : Block) (p t' : Nat) (f : Tally → Tally) : getPort (modTal b t' f) p = getPort b p := rfl
@[simp] theorem getPort_setPart (b : Block) (p p' : Nat) (x : Part) : getPort (setPart b p' x) p = getPort b p := rfl
@[simp] theorem getPort_modPart (b : Block) (p p' : Nat) (f : Part → Part) : getPort (modPart b p' f) p = getPort b p := rfl
@[simp] theorem getPort_setGop (b : Block) (p i' : Nat) (x : Gop) : getPort (setGop b i' x) p = getPort b p := rfl
@[simp] theorem getPort_modGop (b : Block) (p i' : Nat) (f : Gop → Gop) : getPort (modGop b i' f) p = getPort b p := rfl
@[simp] theorem getPort_rset (b : Block) (p i v : Nat) : getPort (rset b i v) p = getPort b p := rfl
@[simp] theorem getGop_setChan (b : Block) (i n' c' : Nat) (x : Chan) : getGop (setChan b n' c' x) i = getGop b i := rfl
@[simp] theorem getGop_modChan (b : Block) (i n' c' : Nat) (f : Chan → Chan) : getGop (modChan b n' c' f) i = getGop b i := rfl
@[simp] theorem getGop_setStrand (b : Block) (i n' k' : Nat) (x : Strand) : getGop (setStrand b n' k' x) i = getGop b i := rfl
@[simp] theorem getGop_modStrand (b : Block) (i n' k' : Nat) (f : Strand → Strand) : getGop (modStrand b n' k' f) i = getGop b i := rfl
@[simp] theorem getGop_setStn (b : Block) (i n' : Nat) (x : Station) : getGop (setStn b n' x) i = getGop b i := rfl
@[simp] theorem getGop_modStn (b : Block) (i n' : Nat) (f : Station → Station) : getGop (modStn b n' f) i = getGop b i := rfl
@[simp] theorem getGop_setTal (b : Block) (i t' : Nat) (x : Tally) : getGop (setTal b t' x) i = getGop b i := rfl
@[simp] theorem getGop_modTal (b : Block) (i t' : Nat) (f : Tally → Tally) : getGop (modTal b t' f) i = getGop b i := rfl
@[simp] theorem getGop_setPart (b : Block) (i p' : Nat) (x : Part) : getGop (setPart b p' x) i = getGop b i := rfl
@[simp] theorem getGop_modPart (b : Block) (i p' : Nat) (f : Part → Part) : getGop (modPart b p' f) i = getGop b i := rfl
@[simp] theorem getGop_setPort (b : Block) (i p' : Nat) (x : Port) : getGop (setPort b p' x) i = getGop b i := rfl
@[simp] theorem getGop_modPort (b : Block) (i p' : Nat) (f : Port → Port) : getGop (modPort b p' f) i = getGop b i := rfl
@[simp] theorem getGop_rset (b : Block) (i r v : Nat) : getGop (rset b r v) i = getGop b i := rfl
@[simp] theorem rget_setChan (b : Block) (n c r : Nat) (x : Chan) : rget (setChan b n c x) r = rget b r := rfl
@[simp] theorem rget_modChan (b : Block) (n c r : Nat) (f : Chan → Chan) : rget (modChan b n c f) r = rget b r := rfl
@[simp] theorem rget_setStrand (b : Block) (n k r : Nat) (x : Strand) : rget (setStrand b n k x) r = rget b r := rfl
@[simp] theorem rget_modStrand (b : Block) (n k r : Nat) (f : Strand → Strand) : rget (modStrand b n k f) r = rget b r := rfl
@[simp] theorem rget_setStn (b : Block) (n r : Nat) (x : Station) : rget (setStn b n x) r = rget b r := rfl
@[simp] theorem rget_modStn (b : Block) (n r : Nat) (f : Station → Station) : rget (modStn b n f) r = rget b r := rfl
@[simp] theorem rget_setTal (b : Block) (t r : Nat) (x : Tally) : rget (setTal b t x) r = rget b r := rfl
@[simp] theorem rget_modTal (b : Block) (t r : Nat) (f : Tally → Tally) : rget (modTal b t f) r = rget b r := rfl
@[simp] theorem rget_setPart (b : Block) (p r : Nat) (x : Part) : rget (setPart b p x) r = rget b r := rfl
@[simp] theorem rget_modPart (b : Block) (p r : Nat) (f : Part → Part) : rget (modPart b p f) r = rget b r := rfl
@[simp] theorem rget_setPort (b : Block) (p r : Nat) (x : Port) : rget (setPort b p x) r = rget b r := rfl
@[simp] theorem rget_modPort (b : Block) (p r : Nat) (f : Port → Port) : rget (modPort b p f) r = rget b r := rfl
@[simp] theorem rget_setGop (b : Block) (i r : Nat) (x : Gop) : rget (setGop b i x) r = rget b r := rfl
@[simp] theorem rget_modGop (b : Block) (i r : Nat) (f : Gop → Gop) : rget (modGop b i f) r = rget b r := rfl

end Sys2Proof.Machine
end

