-- ==== Sys2Proof/Laws/Mover.lean ====
section
/-! SUPPORT. What the sequencer does with a unit that it takes, whatever the instruction (R79). -/
namespace Sys2Proof.Machine

@[simp] theorem put_b (s : State) (b : Block) : (s.put b).b = b := rfl
@[simp] theorem put_par (s : State) (b : Block) : (s.put b).par = s.par := rfl
@[simp] theorem put_pending (s : State) (b : Block) : (s.put b).pending = s.pending := rfl
@[simp] theorem put_tap (s : State) (b : Block) : (s.put b).tap = s.tap := rfl

/-- A command whose effect is a block operation answers the state with that block. -/
theorem effect_put (f : Params → Block → Block) (s : State) : effect f s = .next (s.put (f s.par s.b)) := rfl

theorem takes_iff {b : Block} {n op : Nat} {c : Cand} {u : MUnit} (h : takes b n op c u = true) :
    stnRuns b n = true ∧ seqPick b n = some c ∧ u.n = n ∧ u.k = c.strand ∧ u.s = getStrand b n c.strand ∧
      u.s.entry = some u.e ∧ unitAt u.s u.s.pc = some (u.w0, u.w1) ∧ opcode u.w0 = op ∧ unitIllegal u.w0 u.w1 = false := by
  simp only [takes, Bool.and_eq_true, decide_eq_true_eq, Bool.not_eq_true'] at h
  obtain ⟨⟨⟨h1, h2⟩, h3⟩, h4⟩ := h
  unfold nextUnit at h2
  split at h2
  · simp at h2
  · rename_i c' hc
    dsimp only at h2
    split at h2
    · rename_i e w0 w1 he hu
      simp only [Option.some.injEq, Prod.mk.injEq] at h2
      obtain ⟨rfl, rfl⟩ := h2
      exact ⟨h1, hc, rfl, rfl, rfl, he, hu, h3, h4⟩
    · simp at h2

theorem takes_stn {b : Block} {n op : Nat} {c : Cand} {u : MUnit} (h : takes b n op c u = true) : u.n = n :=
  (takes_iff h).2.2.1

/-- Every instruction's row does, on a unit that is taken, what the instruction's own definition says, and brings the strand
up to date. -/
theorem moverRow_taken {s : State} {n op : Nat} {c : Cand} {u : MUnit} (f) (h : takes s.b n op c u = true) :
    moverRow n op f s = .next (s.put (tick (finishUnit u (f s.par (atUnit s.b c u) u)) n u.k)) := by
  obtain ⟨h1, h2, h3, h4, h5, h6, h7, h8, h9⟩ := takes_iff h
  obtain ⟨un, uk, us, ue, w0, w1⟩ := u
  dsimp only at *
  subst h3 h4
  simp only [moverRow, effect, onBlock, runUnit, h1, h2, ← h5, h6, h7, h8, h9, Bool.not_true, Bool.false_eq_true, if_false,
    atUnit, ne_eq, not_true_eq_false, false_and, State.put]

theorem inRange_of {u : MUnit} {a : Int} (h1 : (u.e.va : Int) ≤ a) (h2 : a < u.e.va + 16 * u.e.len) :
    inRange u a = true := by
  unfold inRange progEnd
  rw [Bool.and_eq_true]
  exact ⟨decide_eq_true h1, decide_eq_true (by push_cast; exact h2)⟩

/-- A unit that is taken leaves everything but its strand and the sequencer's pointers. -/
@[simp] theorem atUnit_rget (b : Block) (c : Cand) (u : MUnit) (r : Nat) : rget (atUnit b c u) r = rget b r := rfl
@[simp] theorem atUnit_nextId (b : Block) (c : Cand) (u : MUnit) : (atUnit b c u).nextId = b.nextId := rfl
@[simp] theorem atUnit_getTal (b : Block) (c : Cand) (u : MUnit) (t : Nat) : getTal (atUnit b c u) t = getTal b t := rfl
@[simp] theorem atUnit_slots (b : Block) (c : Cand) (u : MUnit) :
    (getStn (atUnit b c u) u.n).slots = (getStn b u.n).slots := by
  simp [atUnit]

end Sys2Proof.Machine
end

