-- ==== Sys2Proof/Laws/Access.lean ====
section
/-! SUPPORT. What the configuration port does with an access that it answers at once, whatever the register (R32 to R35). -/
namespace Sys2Proof.Machine

theorem ite_elim {α : Type} {c : Prop} [Decidable c] {x y : Option α} {v : α} {P : Prop} (h : (if c then x else y) = some v)
    (h1 : c → x = some v → P) (h2 : ¬ c → y = some v → P) : P := by
  by_cases hc : c
  · exact h1 hc (by rwa [if_pos hc] at h)
  · exact h2 hc (by rwa [if_neg hc] at h)

/-- A page that an address decodes to starts at the address's multiple of 4,096 (R25, R27). -/
theorem pageOf_base {a : Nat} {pg : Page} (h : pageOf a = some pg) : pageB pg = a / 0x1000 * 0x1000 := by
  unfold pageOf at h
  dsimp only at h
  generalize a / 0x1000 = q at h ⊢
  repeat' (refine ite_elim h ?_ ?_ <;> clear h <;> intro _ h)
  all_goals first
    | (cases h; simp only [pageB, hubB, cfgB, xlatB, fcB, hcntB, pwrB, gtalB, stnB, chanB, strdB, shpB, codecB, nearB, ltalB,
        ordB, scntB, dbellB, linkB, lportB, vaultB, vchB, partB, mboxB]; omega)
    | cases h

/-- Byte addresses of pages. -/
theorem meets_base {p : Params} {b : Block} {x : Access} {pg : Page} {r : RegRow} (h : meets p b x pg r = true) :
    pageB pg = accAddr x / 0x1000 * 0x1000 := by
  simp only [meets, Bool.and_eq_true, decide_eq_true_eq] at h
  have := h.1.1.1.2
  simp only [pageAt, Option.filter_eq_some_iff] at this
  exact pageOf_base this.1

theorem accAddr_wacc (addr w : Nat) (a : Attr) (h : addr < 2 ^ 24) (h4 : addr % 4 = 0) : accAddr (wacc addr w a) = addr := by
  simp only [accAddr, wacc, BitVec.toNat_ofNat]
  omega

theorem accAddr_racc (addr : Nat) (a : Attr) (h : addr < 2 ^ 24) (h4 : addr % 4 = 0) : accAddr (racc addr a) = addr := by
  simp only [accAddr, racc, BitVec.toNat_ofNat]
  omega

/-- An access that meets its register is performed on the block that has counted it. -/
theorem meets_perform {p : Params} {b : Block} {x : Access} {pg : Page} {r : RegRow} (h : meets p b x pg r = true)
    (med : Option Med) :
    cfgAccess p b x med = if x.write then performWrite p (counted b) x pg med else performRead p (counted b) x pg := by
  simp only [meets, Bool.and_eq_true, decide_eq_true_eq] at h
  obtain ⟨⟨⟨⟨⟨h1, h2⟩, h3⟩, h4⟩, h5⟩, h6⟩ := h
  have h4' : (x.write && isDead (counted b) && !deadWrite pg (accAddr x % 0x1000)) = false := by
    revert h4; cases x.write <;> cases isDead (counted b) <;> cases deadWrite pg (accAddr x % 0x1000) <;> simp
  have hc : count b .hub 0x0A 1 none = counted b := rfl
  simp only [cfgAccess, h1, ne_eq, not_true_eq_false, if_false, meetAcc, h2, performAcc, h3, hc, h4', h5,
    Bool.not_true, Bool.false_eq_true]

theorem meets_row {p : Params} {b : Block} {x : Access} {pg : Page} {r : RegRow} (h : meets p b x pg r = true) :
    pageRow pg (accAddr x % 0x1000) = some r := by
  simp only [meets, Bool.and_eq_true, decide_eq_true_eq] at h
  exact h.2

theorem takesWrite_pair {p : Params} {b : Block} {x : Access} {pg : Page} {r : RegRow} (h : takesWrite p b x pg r = true) :
    r.pair = 0 := by
  simp only [takesWrite, Bool.and_eq_true, decide_eq_true_eq] at h
  exact h.1.1.2

/-- A write that the port takes does what the register's unit does with it. -/
theorem takesWrite_perform {p : Params} {b b' y : Block} {x : Access} {pg : Page} {r : RegRow} {med : Option Med}
    (h : takesWrite p b x pg r = true)
    (hw : regWrite p (counted b) pg (accAddr x % 0x1000) r x.data.toNat med = (.ok b', y)) :
    cfgAccess p b x med = wrote b' (codeAddr (pageB pg + accAddr x % 0x1000) r) := by
  simp only [takesWrite, meetsWrite, Bool.and_eq_true, decide_eq_true_eq, Bool.not_eq_true'] at h
  obtain ⟨⟨⟨⟨⟨⟨h1, h2⟩, h3⟩, h4⟩, h5⟩, h6⟩, h7⟩ := h
  rw [meets_perform h1, h2, if_pos rfl]
  have hne : ¬ accAddr x % 0x1000 = 8 := by omega
  have hne2 : ¬ accAddr x % 0x1000 = 0x10 := by omega
  simp [performWrite, h3, meets_row h1, h4, h5, h7, hw, hne, hne2, wrote]

/-- The same for a command that writes one register at its window address. -/
theorem takesWrite_effect {s : State} {addr w off : Nat} {a : Attr} {pg : Page} {r : RegRow} {b' y : Block}
    (h : takesWrite s.par s.b (wacc addr w a) pg r = true) (h1 : addr < 2 ^ 24) (h2 : addr % 4 = 0) (hw : w < 2 ^ 32)
    (ha : addr = pageB pg + off) (ho : off = addr % 0x1000)
    (e : regWrite s.par (counted s.b) pg off r w none = (.ok b', y)) :
    effect (fun p b => cfgWrite p b addr w a) s = .next (s.put (wrote b' addr)) := by
  rw [effect_put]
  have e1 := accAddr_wacc addr w a h1 h2
  have := takesWrite_perform (med := none) (b' := b') (y := y) h (by
    rw [e1, ← ho, ← e]
    exact congrArg (fun v => regWrite s.par (counted s.b) pg off r v none)
      ((BitVec.toNat_ofNat w 32).trans (Nat.mod_eq_of_lt hw)))
  have e2 : cfgWrite s.par s.b addr w a = cfgAccess s.par s.b (wacc addr w a) none := rfl
  rw [e2, this, e1, ← ho]
  simp [codeAddr, takesWrite_pair h, ha]

/-- A write of PAGE_CTRL that its page takes. -/
theorem takesCtrl_perform {p : Params} {b : Block} {x : Access} {pg : Page} {r : RegRow} {med : Option Med}
    (h : takesCtrl p b x pg r = true) :
    cfgAccess p b x med = wrote (ctrlWrite p (counted b) pg x.data.toNat) (codeAddr (pageB pg + 8) r) := by
  simp only [takesCtrl, meetsWrite, Bool.and_eq_true, decide_eq_true_eq, Bool.not_eq_true'] at h
  obtain ⟨⟨⟨⟨⟨h1, h2⟩, h3⟩, h4⟩, h5⟩, h6⟩ := h
  rw [meets_perform h1, h2, if_pos rfl]
  have hr := meets_row h1
  rw [h5] at hr
  simp [performWrite, h3, hr, h4, h5, h6, wrote]

/-- A read that the port answers returns the register, after what the access latches. -/
theorem takesRead_perform {p : Params} {b : Block} {x : Access} {pg : Page} {r : RegRow} {med : Option Med}
    (h : takesRead p b x pg r = true) (hp : r.pair = 0) :
    cfgAccess p b x med = respond (readLatch (counted b) pg (accAddr x % 0x1000)) .ok
      (readReg p (readLatch (counted b) pg (accAddr x % 0x1000)) pg (accAddr x % 0x1000)) := by
  simp only [takesRead, Bool.and_eq_true, Bool.not_eq_true'] at h
  obtain ⟨⟨h1, h2⟩, h3⟩ := h
  rw [meets_perform h1, h2]
  simp [performRead, meets_row h1, h3, hp]

end Sys2Proof.Machine
end

