-- ==== Sys2Proof/Laws/Channel.lean ====
section
/-! SUPPORT. What the instruction buffer's upkeep, a dispatch and a channel's settling leave as it was. -/
namespace Sys2Proof.Machine

@[simp] theorem pfAsk_strands (b : Block) (n k va : Nat) : (pfAsk b n k va).strands = b.strands := by
  unfold pfAsk; dsimp only; split <;> (try split) <;> rfl
@[simp] theorem pfAsk_chans (b : Block) (n k va : Nat) : (pfAsk b n k va).chans = b.chans := by
  unfold pfAsk; dsimp only; split <;> (try split) <;> rfl

@[simp] theorem getStrand_pfAsk (b : Block) (n k va n' k' : Nat) : getStrand (pfAsk b n k va) n' k' = getStrand b n' k' := by
  simp [getStrand]

/-- Giving up lines changes nothing of the strand but the lines it holds. -/
theorem getStrand_dropLines (b : Block) (n k : Nat) (g : Nat → Bool) : getStrand (dropLines b n k g) n k =
    { getStrand b n k with lines := (getStrand b n k).lines.filter (fun l => !g l.1) } := by
  simp only [dropLines, getStrand_modStn, get_modStrand]

@[simp] theorem dropLines_chans (b : Block) (n k : Nat) (g : Nat → Bool) : (dropLines b n k g).chans = b.chans := rfl

/-- Keeping the instruction buffer ahead changes nothing of the strand but the lines it holds. -/
theorem refetch_strand (b : Block) (n k : Nat) :
    ∃ l, getStrand (refetch b n k) n k = { getStrand b n k with lines := l } := by
  unfold refetch
  dsimp only
  split
  · exact ⟨_, by rw [getStrand_pfAsk, getStrand_pfAsk, getStrand_dropLines]⟩
  · split
    · exact ⟨(getStrand b n k).lines, rfl⟩
    · split
      · exact ⟨(getStrand b n k).lines, by simp⟩
      · split
        · exact ⟨(getStrand b n k).lines, rfl⟩
        · exact ⟨_, by rw [getStrand_pfAsk, getStrand_dropLines]⟩

@[simp] theorem refetch_chans (b : Block) (n k : Nat) : (refetch b n k).chans = b.chans := by
  unfold refetch
  dsimp only
  split
  · simp
  · split
    · rfl
    · split
      · simp
      · split <;> simp

@[simp] theorem chSettle_strands (b : Block) (n c : Nat) : (chSettle b n c).strands = b.strands := rfl

/-- Settling a channel's state changes nothing else of it. -/
@[simp] theorem chSettle_accepted (b : Block) (n c : Nat) : (getChan (chSettle b n c) n c).accepted = (getChan b n c).accepted := by
  simp [chSettle]

@[simp] theorem isDead_hubFree (b : Block) (t : Nat) : isDead (hubFree b t) = isDead b := by
  unfold hubFree; split
  · rfl
  · split <;> rfl

end Sys2Proof.Machine
end

