-- ==== Sys2Proof/Laws/Counters.lean ====
section
/-! SUPPORT. Counting an event changes the counters and their control words, and nothing else (R392 to R396). -/
namespace Sys2Proof.Machine

/-- What each step of a fold leaves, the fold leaves. -/
theorem forEach_keeps {α β : Type} (g : Block → β) (l : List α) (f : Block → α → Block) (h : ∀ b x, g (f b x) = g b) (b : Block) :
    g (forEach l b f) = g b := by
  unfold forEach
  induction l generalizing b with
  | nil => rfl
  | cons x t ih => simp only [List.foldl_cons, ih, h]

/-- Counting keeps whatever an update of a counter and of a register keeps. -/
theorem count_keeps {β : Type} (g : Block → β) (hr : ∀ b a v, g (rset b a v) = g b) (hc : ∀ b l i x, g (setCnt b l i x) = g b)
    (b : Block) (l : CntLoc) (ev amt : Nat) (o : Option Nat) : g (count b l ev amt o) = g b := by
  unfold count
  split
  · rfl
  · apply forEach_keeps
    intro b i
    split
    · unfold cntAdd
      dsimp only
      split <;> split <;> simp [rsetBits, hr, hc]
    · rfl

@[simp] theorem count_cfg (b : Block) (l : CntLoc) (ev amt : Nat) (o : Option Nat) : (count b l ev amt o).cfg = b.cfg :=
  count_keeps (·.cfg) (fun _ _ _ => rfl) (fun _ _ _ _ => rfl) b l ev amt o
@[simp] theorem countCh_cfg (b : Block) (n c ev amt : Nat) : (countCh b n c ev amt).cfg = b.cfg := count_cfg _ _ _ _ _
@[simp] theorem count_chans (b : Block) (l : CntLoc) (ev amt : Nat) (o : Option Nat) : (count b l ev amt o).chans = b.chans :=
  count_keeps (·.chans) (fun _ _ _ => rfl) (fun _ _ _ _ => rfl) b l ev amt o
@[simp] theorem countCh_chans (b : Block) (n c ev amt : Nat) : (countCh b n c ev amt).chans = b.chans := count_chans _ _ _ _ _
@[simp] theorem count_strands (b : Block) (l : CntLoc) (ev amt : Nat) (o : Option Nat) : (count b l ev amt o).strands = b.strands :=
  count_keeps (·.strands) (fun _ _ _ => rfl) (fun _ _ _ _ => rfl) b l ev amt o
@[simp] theorem countCh_strands (b : Block) (n c ev amt : Nat) : (countCh b n c ev amt).strands = b.strands := count_strands _ _ _ _ _
@[simp] theorem count_stations (b : Block) (l : CntLoc) (ev amt : Nat) (o : Option Nat) : (count b l ev amt o).stations = b.stations :=
  count_keeps (·.stations) (fun _ _ _ => rfl) (fun _ _ _ _ => rfl) b l ev amt o
@[simp] theorem countCh_stations (b : Block) (n c ev amt : Nat) : (countCh b n c ev amt).stations = b.stations := count_stations _ _ _ _ _
@[simp] theorem count_tallies (b : Block) (l : CntLoc) (ev amt : Nat) (o : Option Nat) : (count b l ev amt o).tallies = b.tallies :=
  count_keeps (·.tallies) (fun _ _ _ => rfl) (fun _ _ _ _ => rfl) b l ev amt o
@[simp] theorem countCh_tallies (b : Block) (n c ev amt : Nat) : (countCh b n c ev amt).tallies = b.tallies := count_tallies _ _ _ _ _
@[simp] theorem count_adds (b : Block) (l : CntLoc) (ev amt : Nat) (o : Option Nat) : (count b l ev amt o).adds = b.adds :=
  count_keeps (·.adds) (fun _ _ _ => rfl) (fun _ _ _ _ => rfl) b l ev amt o
@[simp] theorem countCh_adds (b : Block) (n c ev amt : Nat) : (countCh b n c ev amt).adds = b.adds := count_adds _ _ _ _ _
@[simp] theorem count_walks (b : Block) (l : CntLoc) (ev amt : Nat) (o : Option Nat) : (count b l ev amt o).walks = b.walks :=
  count_keeps (·.walks) (fun _ _ _ => rfl) (fun _ _ _ _ => rfl) b l ev amt o
@[simp] theorem countCh_walks (b : Block) (n c ev amt : Nat) : (countCh b n c ev amt).walks = b.walks := count_walks _ _ _ _ _
@[simp] theorem count_parts (b : Block) (l : CntLoc) (ev amt : Nat) (o : Option Nat) : (count b l ev amt o).parts = b.parts :=
  count_keeps (·.parts) (fun _ _ _ => rfl) (fun _ _ _ _ => rfl) b l ev amt o
@[simp] theorem countCh_parts (b : Block) (n c ev amt : Nat) : (countCh b n c ev amt).parts = b.parts := count_parts _ _ _ _ _
@[simp] theorem count_standby (b : Block) (l : CntLoc) (ev amt : Nat) (o : Option Nat) : (count b l ev amt o).standby = b.standby :=
  count_keeps (·.standby) (fun _ _ _ => rfl) (fun _ _ _ _ => rfl) b l ev amt o
@[simp] theorem countCh_standby (b : Block) (n c ev amt : Nat) : (countCh b n c ev amt).standby = b.standby := count_standby _ _ _ _ _
@[simp] theorem count_commitQ (b : Block) (l : CntLoc) (ev amt : Nat) (o : Option Nat) : (count b l ev amt o).commitQ = b.commitQ :=
  count_keeps (·.commitQ) (fun _ _ _ => rfl) (fun _ _ _ _ => rfl) b l ev amt o
@[simp] theorem countCh_commitQ (b : Block) (n c ev amt : Nat) : (countCh b n c ev amt).commitQ = b.commitQ := count_commitQ _ _ _ _ _
@[simp] theorem count_invQ (b : Block) (l : CntLoc) (ev amt : Nat) (o : Option Nat) : (count b l ev amt o).invQ = b.invQ :=
  count_keeps (·.invQ) (fun _ _ _ => rfl) (fun _ _ _ _ => rfl) b l ev amt o
@[simp] theorem countCh_invQ (b : Block) (n c ev amt : Nat) : (countCh b n c ev amt).invQ = b.invQ := count_invQ _ _ _ _ _
@[simp] theorem count_invals (b : Block) (l : CntLoc) (ev amt : Nat) (o : Option Nat) : (count b l ev amt o).invals = b.invals :=
  count_keeps (·.invals) (fun _ _ _ => rfl) (fun _ _ _ _ => rfl) b l ev amt o
@[simp] theorem countCh_invals (b : Block) (n c ev amt : Nat) : (countCh b n c ev amt).invals = b.invals := count_invals _ _ _ _ _
@[simp] theorem count_hubWr (b : Block) (l : CntLoc) (ev amt : Nat) (o : Option Nat) : (count b l ev amt o).hubWr = b.hubWr :=
  count_keeps (·.hubWr) (fun _ _ _ => rfl) (fun _ _ _ _ => rfl) b l ev amt o
@[simp] theorem countCh_hubWr (b : Block) (n c ev amt : Nat) : (countCh b n c ev amt).hubWr = b.hubWr := count_hubWr _ _ _ _ _
@[simp] theorem count_hubQ (b : Block) (l : CntLoc) (ev amt : Nat) (o : Option Nat) : (count b l ev amt o).hubQ = b.hubQ :=
  count_keeps (·.hubQ) (fun _ _ _ => rfl) (fun _ _ _ _ => rfl) b l ev amt o
@[simp] theorem countCh_hubQ (b : Block) (n c ev amt : Nat) : (countCh b n c ev amt).hubQ = b.hubQ := count_hubQ _ _ _ _ _
@[simp] theorem count_irqs (b : Block) (l : CntLoc) (ev amt : Nat) (o : Option Nat) : (count b l ev amt o).irqs = b.irqs :=
  count_keeps (·.irqs) (fun _ _ _ => rfl) (fun _ _ _ _ => rfl) b l ev amt o
@[simp] theorem countCh_irqs (b : Block) (n c ev amt : Nat) : (countCh b n c ev amt).irqs = b.irqs := count_irqs _ _ _ _ _
@[simp] theorem count_ports (b : Block) (l : CntLoc) (ev amt : Nat) (o : Option Nat) : (count b l ev amt o).ports = b.ports :=
  count_keeps (·.ports) (fun _ _ _ => rfl) (fun _ _ _ _ => rfl) b l ev amt o
@[simp] theorem countCh_ports (b : Block) (n c ev amt : Nat) : (countCh b n c ev amt).ports = b.ports := count_ports _ _ _ _ _
@[simp] theorem count_gops (b : Block) (l : CntLoc) (ev amt : Nat) (o : Option Nat) : (count b l ev amt o).gops = b.gops :=
  count_keeps (·.gops) (fun _ _ _ => rfl) (fun _ _ _ _ => rfl) b l ev amt o
@[simp] theorem countCh_gops (b : Block) (n c ev amt : Nat) : (countCh b n c ev amt).gops = b.gops := count_gops _ _ _ _ _
@[simp] theorem count_linkReset (b : Block) (l : CntLoc) (ev amt : Nat) (o : Option Nat) : (count b l ev amt o).linkReset = b.linkReset :=
  count_keeps (·.linkReset) (fun _ _ _ => rfl) (fun _ _ _ _ => rfl) b l ev amt o
@[simp] theorem countCh_linkReset (b : Block) (n c ev amt : Nat) : (countCh b n c ev amt).linkReset = b.linkReset := count_linkReset _ _ _ _ _
@[simp] theorem count_colour (b : Block) (l : CntLoc) (ev amt : Nat) (o : Option Nat) : (count b l ev amt o).colour = b.colour :=
  count_keeps (·.colour) (fun _ _ _ => rfl) (fun _ _ _ _ => rfl) b l ev amt o
@[simp] theorem countCh_colour (b : Block) (n c ev amt : Nat) : (countCh b n c ev amt).colour = b.colour := count_colour _ _ _ _ _
@[simp] theorem count_vault (b : Block) (l : CntLoc) (ev amt : Nat) (o : Option Nat) : (count b l ev amt o).vault = b.vault :=
  count_keeps (·.vault) (fun _ _ _ => rfl) (fun _ _ _ _ => rfl) b l ev amt o
@[simp] theorem countCh_vault (b : Block) (n c ev amt : Nat) : (countCh b n c ev amt).vault = b.vault := count_vault _ _ _ _ _
@[simp] theorem count_ref (b : Block) (l : CntLoc) (ev amt : Nat) (o : Option Nat) : (count b l ev amt o).ref = b.ref :=
  count_keeps (·.ref) (fun _ _ _ => rfl) (fun _ _ _ _ => rfl) b l ev amt o
@[simp] theorem countCh_ref (b : Block) (n c ev amt : Nat) : (countCh b n c ev amt).ref = b.ref := count_ref _ _ _ _ _
@[simp] theorem count_pwr (b : Block) (l : CntLoc) (ev amt : Nat) (o : Option Nat) : (count b l ev amt o).pwr = b.pwr :=
  count_keeps (·.pwr) (fun _ _ _ => rfl) (fun _ _ _ _ => rfl) b l ev amt o
@[simp] theorem countCh_pwr (b : Block) (n c ev amt : Nat) : (countCh b n c ev amt).pwr = b.pwr := count_pwr _ _ _ _ _
@[simp] theorem count_mgmt (b : Block) (l : CntLoc) (ev amt : Nat) (o : Option Nat) : (count b l ev amt o).mgmt = b.mgmt :=
  count_keeps (·.mgmt) (fun _ _ _ => rfl) (fun _ _ _ _ => rfl) b l ev amt o
@[simp] theorem countCh_mgmt (b : Block) (n c ev amt : Nat) : (countCh b n c ev amt).mgmt = b.mgmt := count_mgmt _ _ _ _ _
@[simp] theorem count_frzTime (b : Block) (l : CntLoc) (ev amt : Nat) (o : Option Nat) : (count b l ev amt o).frzTime = b.frzTime :=
  count_keeps (·.frzTime) (fun _ _ _ => rfl) (fun _ _ _ _ => rfl) b l ev amt o
@[simp] theorem countCh_frzTime (b : Block) (n c ev amt : Nat) : (countCh b n c ev amt).frzTime = b.frzTime := count_frzTime _ _ _ _ _
@[simp] theorem count_aoTime (b : Block) (l : CntLoc) (ev amt : Nat) (o : Option Nat) : (count b l ev amt o).aoTime = b.aoTime :=
  count_keeps (·.aoTime) (fun _ _ _ => rfl) (fun _ _ _ _ => rfl) b l ev amt o
@[simp] theorem countCh_aoTime (b : Block) (n c ev amt : Nat) : (countCh b n c ev amt).aoTime = b.aoTime := count_aoTime _ _ _ _ _
@[simp] theorem count_ponTime (b : Block) (l : CntLoc) (ev amt : Nat) (o : Option Nat) : (count b l ev amt o).ponTime = b.ponTime :=
  count_keeps (·.ponTime) (fun _ _ _ => rfl) (fun _ _ _ _ => rfl) b l ev amt o
@[simp] theorem countCh_ponTime (b : Block) (n c ev amt : Nat) : (countCh b n c ev amt).ponTime = b.ponTime := count_ponTime _ _ _ _ _
@[simp] theorem count_badRegs (b : Block) (l : CntLoc) (ev amt : Nat) (o : Option Nat) : (count b l ev amt o).badRegs = b.badRegs :=
  count_keeps (·.badRegs) (fun _ _ _ => rfl) (fun _ _ _ _ => rfl) b l ev amt o
@[simp] theorem countCh_badRegs (b : Block) (n c ev amt : Nat) : (countCh b n c ev amt).badRegs = b.badRegs := count_badRegs _ _ _ _ _
@[simp] theorem count_hazLatch (b : Block) (l : CntLoc) (ev amt : Nat) (o : Option Nat) : (count b l ev amt o).hazLatch = b.hazLatch :=
  count_keeps (·.hazLatch) (fun _ _ _ => rfl) (fun _ _ _ _ => rfl) b l ev amt o
@[simp] theorem countCh_hazLatch (b : Block) (n c ev amt : Nat) : (countCh b n c ev amt).hazLatch = b.hazLatch := count_hazLatch _ _ _ _ _
@[simp] theorem count_nextId (b : Block) (l : CntLoc) (ev amt : Nat) (o : Option Nat) : (count b l ev amt o).nextId = b.nextId :=
  count_keeps (·.nextId) (fun _ _ _ => rfl) (fun _ _ _ _ => rfl) b l ev amt o
@[simp] theorem countCh_nextId (b : Block) (n c ev amt : Nat) : (countCh b n c ev amt).nextId = b.nextId := count_nextId _ _ _ _ _
@[simp] theorem count_fresh (b : Block) (l : CntLoc) (ev amt : Nat) (o : Option Nat) : (count b l ev amt o).fresh = b.fresh :=
  count_keeps (·.fresh) (fun _ _ _ => rfl) (fun _ _ _ _ => rfl) b l ev amt o
@[simp] theorem countCh_fresh (b : Block) (n c ev amt : Nat) : (countCh b n c ev amt).fresh = b.fresh := count_fresh _ _ _ _ _
@[simp] theorem getChan_count (b : Block) (l : CntLoc) (ev amt : Nat) (o : Option Nat) (n c : Nat) :
    getChan (count b l ev amt o) n c = getChan b n c := by simp [getChan]
@[simp] theorem getChan_countCh (b : Block) (m d ev amt : Nat) (n c : Nat) :
    getChan (countCh b m d ev amt) n c = getChan b n c := by simp [countCh]
@[simp] theorem getStrand_count (b : Block) (l : CntLoc) (ev amt : Nat) (o : Option Nat) (n k : Nat) :
    getStrand (count b l ev amt o) n k = getStrand b n k := by simp [getStrand]
@[simp] theorem getStrand_countCh (b : Block) (m d ev amt : Nat) (n k : Nat) :
    getStrand (countCh b m d ev amt) n k = getStrand b n k := by simp [countCh]
@[simp] theorem getStn_count (b : Block) (l : CntLoc) (ev amt : Nat) (o : Option Nat) (n : Nat) :
    getStn (count b l ev amt o) n = getStn b n := by simp [getStn]
@[simp] theorem getStn_countCh (b : Block) (m d ev amt : Nat) (n : Nat) :
    getStn (countCh b m d ev amt) n = getStn b n := by simp [countCh]
@[simp] theorem getTal_count (b : Block) (l : CntLoc) (ev amt : Nat) (o : Option Nat) (t : Nat) :
    getTal (count b l ev amt o) t = getTal b t := by simp [getTal]
@[simp] theorem getTal_countCh (b : Block) (m d ev amt : Nat) (t : Nat) :
    getTal (countCh b m d ev amt) t = getTal b t := by simp [countCh]
@[simp] theorem getPart_count (b : Block) (l : CntLoc) (ev amt : Nat) (o : Option Nat) (p : Nat) :
    getPart (count b l ev amt o) p = getPart b p := by simp [getPart]
@[simp] theorem getPart_countCh (b : Block) (m d ev amt : Nat) (p : Nat) :
    getPart (countCh b m d ev amt) p = getPart b p := by simp [countCh]
@[simp] theorem getPort_count (b : Block) (l : CntLoc) (ev amt : Nat) (o : Option Nat) (p : Nat) :
    getPort (count b l ev amt o) p = getPort b p := by simp [getPort]
@[simp] theorem getPort_countCh (b : Block) (m d ev amt : Nat) (p : Nat) :
    getPort (countCh b m d ev amt) p = getPort b p := by simp [countCh]
@[simp] theorem getGop_count (b : Block) (l : CntLoc) (ev amt : Nat) (o : Option Nat) (i : Nat) :
    getGop (count b l ev amt o) i = getGop b i := by simp [getGop]
@[simp] theorem getGop_countCh (b : Block) (m d ev amt : Nat) (i : Nat) :
    getGop (countCh b m d ev amt) i = getGop b i := by simp [countCh]

end Sys2Proof.Machine
end

