-- ==== Sys2Proof/Laws/Events.lean ====
section
/-! SUPPORT. What latching a cause, recording a page error and raising an event or a record leave as it was (R28, R40, R64,
R347, R353): everything but stored registers, pending messages and the referee. -/
namespace Sys2Proof.Machine

section
variable {β : Type} (g : Block → β)

theorem irqPend_keeps (hi : ∀ b l, g { b with irqs := l } = g b) (b : Block) (v : Nat) : g (irqPend b v) = g b := by
  unfold irqPend; split
  · rfl
  · exact hi _ _

theorem setCause_keeps (hr : ∀ b a v, g (rset b a v) = g b) (hi : ∀ b l, g { b with irqs := l } = g b) (b : Block)
    (vec m : Nat) : g (setCause b vec m) = g b := by
  unfold setCause
  split
  · unfold irqAfter
    split
    · rw [irqPend_keeps g hi]; exact hr _ _ _
    · exact hr _ _ _
  · rfl

theorem pageErr_keeps (hr : ∀ b a v, g (rset b a v) = g b) (b : Block) (base i addr info : Nat) :
    g (pageErr b base i addr info) = g b := by
  unfold pageErr
  dsimp only
  split <;> simp only [hr]

theorem signalEv_keeps (hf : ∀ b r, g { b with ref := r } = g b) (b : Block) (src kind unit addr detail : Nat) :
    g (signalEv b src kind unit addr detail) = g b := hf _ _

theorem memErr_keeps (hr : ∀ b a v, g (rset b a v) = g b) (hf : ∀ b r, g { b with ref := r } = g b) (b : Block)
    (src kind unit base addr info cause : Nat) : g (memErr b src kind unit base addr info cause) = g b := by
  unfold memErr
  rw [signalEv_keeps g hf, pageErr_keeps g hr]

theorem holdRec_keeps (hr : ∀ b a v, g (rset b a v) = g b) (hi : ∀ b l, g { b with irqs := l } = g b)
    (hf : ∀ b r, g { b with ref := r } = g b) (b : Block) (r : Rec) : g (holdRec b r) = g b := by
  have hs : ∀ b i x, g (setSrc b i x) = g b := fun b i x => hf b _
  unfold holdRec
  dsimp only
  split
  · exact hs _ _ _
  · repeat' split
    all_goals simp only [setCause_keeps g hr hi, rsetBits, rcount, hr, hs]

theorem dataRec_keeps (hr : ∀ b a v, g (rset b a v) = g b) (hi : ∀ b l, g { b with irqs := l } = g b)
    (hf : ∀ b r, g { b with ref := r } = g b) (b : Block) (src kind unit addr detail : Nat) :
    g (dataRec b src kind unit addr detail) = g b := by
  unfold dataRec
  dsimp only
  split
  · exact hf _ _
  · exact holdRec_keeps g hr hi hf _ _
end

@[simp] theorem getChan_setCause (b : Block) (vec m : Nat) (x y : Nat) : getChan (setCause b vec m) x y = getChan b x y :=
  setCause_keeps (getChan · x y) (fun _ _ _ => rfl) (fun _ _ => rfl) b vec m
@[simp] theorem getStrand_setCause (b : Block) (vec m : Nat) (x y : Nat) : getStrand (setCause b vec m) x y = getStrand b x y :=
  setCause_keeps (getStrand · x y) (fun _ _ _ => rfl) (fun _ _ => rfl) b vec m
@[simp] theorem getStn_setCause (b : Block) (vec m : Nat) (x : Nat) : getStn (setCause b vec m) x = getStn b x :=
  setCause_keeps (getStn · x) (fun _ _ _ => rfl) (fun _ _ => rfl) b vec m
@[simp] theorem getTal_setCause (b : Block) (vec m : Nat) (x : Nat) : getTal (setCause b vec m) x = getTal b x :=
  setCause_keeps (getTal · x) (fun _ _ _ => rfl) (fun _ _ => rfl) b vec m
@[simp] theorem getPart_setCause (b : Block) (vec m : Nat) (x : Nat) : getPart (setCause b vec m) x = getPart b x :=
  setCause_keeps (getPart · x) (fun _ _ _ => rfl) (fun _ _ => rfl) b vec m
@[simp] theorem getPort_setCause (b : Block) (vec m : Nat) (x : Nat) : getPort (setCause b vec m) x = getPort b x :=
  setCause_keeps (getPort · x) (fun _ _ _ => rfl) (fun _ _ => rfl) b vec m
@[simp] theorem getGop_setCause (b : Block) (vec m : Nat) (x : Nat) : getGop (setCause b vec m) x = getGop b x :=
  setCause_keeps (getGop · x) (fun _ _ _ => rfl) (fun _ _ => rfl) b vec m
@[simp] theorem setCause_adds (b : Block) (vec m : Nat) : (setCause b vec m).adds = b.adds := setCause_keeps (·.adds) (fun _ _ _ => rfl) (fun _ _ => rfl) b vec m
@[simp] theorem setCause_walks (b : Block) (vec m : Nat) : (setCause b vec m).walks = b.walks := setCause_keeps (·.walks) (fun _ _ _ => rfl) (fun _ _ => rfl) b vec m
@[simp] theorem setCause_mgmt (b : Block) (vec m : Nat) : (setCause b vec m).mgmt = b.mgmt := setCause_keeps (·.mgmt) (fun _ _ _ => rfl) (fun _ _ => rfl) b vec m
@[simp] theorem setCause_pwr (b : Block) (vec m : Nat) : (setCause b vec m).pwr = b.pwr := setCause_keeps (·.pwr) (fun _ _ _ => rfl) (fun _ _ => rfl) b vec m
@[simp] theorem setCause_vault (b : Block) (vec m : Nat) : (setCause b vec m).vault = b.vault := setCause_keeps (·.vault) (fun _ _ _ => rfl) (fun _ _ => rfl) b vec m
@[simp] theorem setCause_cfg (b : Block) (vec m : Nat) : (setCause b vec m).cfg = b.cfg := setCause_keeps (·.cfg) (fun _ _ _ => rfl) (fun _ _ => rfl) b vec m
@[simp] theorem setCause_nextId (b : Block) (vec m : Nat) : (setCause b vec m).nextId = b.nextId := setCause_keeps (·.nextId) (fun _ _ _ => rfl) (fun _ _ => rfl) b vec m
@[simp] theorem getChan_pageErr (b : Block) (base i addr info : Nat) (x y : Nat) : getChan (pageErr b base i addr info) x y = getChan b x y :=
  pageErr_keeps (getChan · x y) (fun _ _ _ => rfl) b base i addr info
@[simp] theorem getStrand_pageErr (b : Block) (base i addr info : Nat) (x y : Nat) : getStrand (pageErr b base i addr info) x y = getStrand b x y :=
  pageErr_keeps (getStrand · x y) (fun _ _ _ => rfl) b base i addr info
@[simp] theorem getStn_pageErr (b : Block) (base i addr info : Nat) (x : Nat) : getStn (pageErr b base i addr info) x = getStn b x :=
  pageErr_keeps (getStn · x) (fun _ _ _ => rfl) b base i addr info
@[simp] theorem getTal_pageErr (b : Block) (base i addr info : Nat) (x : Nat) : getTal (pageErr b base i addr info) x = getTal b x :=
  pageErr_keeps (getTal · x) (fun _ _ _ => rfl) b base i addr info
@[simp] theorem getPart_pageErr (b : Block) (base i addr info : Nat) (x : Nat) : getPart (pageErr b base i addr info) x = getPart b x :=
  pageErr_keeps (getPart · x) (fun _ _ _ => rfl) b base i addr info
@[simp] theorem getPort_pageErr (b : Block) (base i addr info : Nat) (x : Nat) : getPort (pageErr b base i addr info) x = getPort b x :=
  pageErr_keeps (getPort · x) (fun _ _ _ => rfl) b base i addr info
@[simp] theorem getGop_pageErr (b : Block) (base i addr info : Nat) (x : Nat) : getGop (pageErr b base i addr info) x = getGop b x :=
  pageErr_keeps (getGop · x) (fun _ _ _ => rfl) b base i addr info
@[simp] theorem pageErr_adds (b : Block) (base i addr info : Nat) : (pageErr b base i addr info).adds = b.adds := pageErr_keeps (·.adds) (fun _ _ _ => rfl) b base i addr info
@[simp] theorem pageErr_walks (b : Block) (base i addr info : Nat) : (pageErr b base i addr info).walks = b.walks := pageErr_keeps (·.walks) (fun _ _ _ => rfl) b base i addr info
@[simp] theorem pageErr_mgmt (b : Block) (base i addr info : Nat) : (pageErr b base i addr info).mgmt = b.mgmt := pageErr_keeps (·.mgmt) (fun _ _ _ => rfl) b base i addr info
@[simp] theorem pageErr_pwr (b : Block) (base i addr info : Nat) : (pageErr b base i addr info).pwr = b.pwr := pageErr_keeps (·.pwr) (fun _ _ _ => rfl) b base i addr info
@[simp] theorem pageErr_vault (b : Block) (base i addr info : Nat) : (pageErr b base i addr info).vault = b.vault := pageErr_keeps (·.vault) (fun _ _ _ => rfl) b base i addr info
@[simp] theorem pageErr_cfg (b : Block) (base i addr info : Nat) : (pageErr b base i addr info).cfg = b.cfg := pageErr_keeps (·.cfg) (fun _ _ _ => rfl) b base i addr info
@[simp] theorem pageErr_nextId (b : Block) (base i addr info : Nat) : (pageErr b base i addr info).nextId = b.nextId := pageErr_keeps (·.nextId) (fun _ _ _ => rfl) b base i addr info
@[simp] theorem getChan_signalEv (b : Block) (src kind unit addr detail : Nat) (x y : Nat) : getChan (signalEv b src kind unit addr detail) x y = getChan b x y :=
  signalEv_keeps (getChan · x y) (fun _ _ => rfl) b src kind unit addr detail
@[simp] theorem getStrand_signalEv (b : Block) (src kind unit addr detail : Nat) (x y : Nat) : getStrand (signalEv b src kind unit addr detail) x y = getStrand b x y :=
  signalEv_keeps (getStrand · x y) (fun _ _ => rfl) b src kind unit addr detail
@[simp] theorem getStn_signalEv (b : Block) (src kind unit addr detail : Nat) (x : Nat) : getStn (signalEv b src kind unit addr detail) x = getStn b x :=
  signalEv_keeps (getStn · x) (fun _ _ => rfl) b src kind unit addr detail
@[simp] theorem getTal_signalEv (b : Block) (src kind unit addr detail : Nat) (x : Nat) : getTal (signalEv b src kind unit addr detail) x = getTal b x :=
  signalEv_keeps (getTal · x) (fun _ _ => rfl) b src kind unit addr detail
@[simp] theorem getPart_signalEv (b : Block) (src kind unit addr detail : Nat) (x : Nat) : getPart (signalEv b src kind unit addr detail) x = getPart b x :=
  signalEv_keeps (getPart · x) (fun _ _ => rfl) b src kind unit addr detail
@[simp] theorem getPort_signalEv (b : Block) (src kind unit addr detail : Nat) (x : Nat) : getPort (signalEv b src kind unit addr detail) x = getPort b x :=
  signalEv_keeps (getPort · x) (fun _ _ => rfl) b src kind unit addr detail
@[simp] theorem getGop_signalEv (b : Block) (src kind unit addr detail : Nat) (x : Nat) : getGop (signalEv b src kind unit addr detail) x = getGop b x :=
  signalEv_keeps (getGop · x) (fun _ _ => rfl) b src kind unit addr detail
@[simp] theorem signalEv_adds (b : Block) (src kind unit addr detail : Nat) : (signalEv b src kind unit addr detail).adds = b.adds := signalEv_keeps (·.adds) (fun _ _ => rfl) b src kind unit addr detail
@[simp] theorem signalEv_walks (b : Block) (src kind unit addr detail : Nat) : (signalEv b src kind unit addr detail).walks = b.walks := signalEv_keeps (·.walks) (fun _ _ => rfl) b src kind unit addr detail
@[simp] theorem signalEv_mgmt (b : Block) (src kind unit addr detail : Nat) : (signalEv b src kind unit addr detail).mgmt = b.mgmt := signalEv_keeps (·.mgmt) (fun _ _ => rfl) b src kind unit addr detail
@[simp] theorem signalEv_pwr (b : Block) (src kind unit addr detail : Nat) : (signalEv b src kind unit addr detail).pwr = b.pwr := signalEv_keeps (·.pwr) (fun _ _ => rfl) b src kind unit addr detail
@[simp] theorem signalEv_vault (b : Block) (src kind unit addr detail : Nat) : (signalEv b src kind unit addr detail).vault = b.vault := signalEv_keeps (·.vault) (fun _ _ => rfl) b src kind unit addr detail
@[simp] theorem signalEv_cfg (b : Block) (src kind unit addr detail : Nat) : (signalEv b src kind unit addr detail).cfg = b.cfg := signalEv_keeps (·.cfg) (fun _ _ => rfl) b src kind unit addr detail
@[simp] theorem signalEv_nextId (b : Block) (src kind unit addr detail : Nat) : (signalEv b src kind unit addr detail).nextId = b.nextId := signalEv_keeps (·.nextId) (fun _ _ => rfl) b src kind unit addr detail
@[simp] theorem getChan_memErr (b : Block) (src kind unit base addr info cause : Nat) (x y : Nat) : getChan (memErr b src kind unit base addr info cause) x y = getChan b x y :=
  memErr_keeps (getChan · x y) (fun _ _ _ => rfl) (fun _ _ => rfl) b src kind unit base addr info cause
@[simp] theorem getStrand_memErr (b : Block) (src kind unit base addr info cause : Nat) (x y : Nat) : getStrand (memErr b src kind unit base addr info cause) x y = getStrand b x y :=
  memErr_keeps (getStrand · x y) (fun _ _ _ => rfl) (fun _ _ => rfl) b src kind unit base addr info cause
@[simp] theorem getStn_memErr (b : Block) (src kind unit base addr info cause : Nat) (x : Nat) : getStn (memErr b src kind unit base addr info cause) x = getStn b x :=
  memErr_keeps (getStn · x) (fun _ _ _ => rfl) (fun _ _ => rfl) b src kind unit base addr info cause
@[simp] theorem getTal_memErr (b : Block) (src kind unit base addr info cause : Nat) (x : Nat) : getTal (memErr b src kind unit base addr info cause) x = getTal b x :=
  memErr_keeps (getTal · x) (fun _ _ _ => rfl) (fun _ _ => rfl) b src kind unit base addr info cause
@[simp] theorem getPart_memErr (b : Block) (src kind unit base addr info cause : Nat) (x : Nat) : getPart (memErr b src kind unit base addr info cause) x = getPart b x :=
  memErr_keeps (getPart · x) (fun _ _ _ => rfl) (fun _ _ => rfl) b src kind unit base addr info cause
@[simp] theorem getPort_memErr (b : Block) (src kind unit base addr info cause : Nat) (x : Nat) : getPort (memErr b src kind unit base addr info cause) x = getPort b x :=
  memErr_keeps (getPort · x) (fun _ _ _ => rfl) (fun _ _ => rfl) b src kind unit base addr info cause
@[simp] theorem getGop_memErr (b : Block) (src kind unit base addr info cause : Nat) (x : Nat) : getGop (memErr b src kind unit base addr info cause) x = getGop b x :=
  memErr_keeps (getGop · x) (fun _ _ _ => rfl) (fun _ _ => rfl) b src kind unit base addr info cause
@[simp] theorem memErr_adds (b : Block) (src kind unit base addr info cause : Nat) : (memErr b src kind unit base addr info cause).adds = b.adds := memErr_keeps (·.adds) (fun _ _ _ => rfl) (fun _ _ => rfl) b src kind unit base addr info cause
@[simp] theorem memErr_walks (b : Block) (src kind unit base addr info cause : Nat) : (memErr b src kind unit base addr info cause).walks = b.walks := memErr_keeps (·.walks) (fun _ _ _ => rfl) (fun _ _ => rfl) b src kind unit base addr info cause
@[simp] theorem memErr_mgmt (b : Block) (src kind unit base addr info cause : Nat) : (memErr b src kind unit base addr info cause).mgmt = b.mgmt := memErr_keeps (·.mgmt) (fun _ _ _ => rfl) (fun _ _ => rfl) b src kind unit base addr info cause
@[simp] theorem memErr_pwr (b : Block) (src kind unit base addr info cause : Nat) : (memErr b src kind unit base addr info cause).pwr = b.pwr := memErr_keeps (·.pwr) (fun _ _ _ => rfl) (fun _ _ => rfl) b src kind unit base addr info cause
@[simp] theorem memErr_vault (b : Block) (src kind unit base addr info cause : Nat) : (memErr b src kind unit base addr info cause).vault = b.vault := memErr_keeps (·.vault) (fun _ _ _ => rfl) (fun _ _ => rfl) b src kind unit base addr info cause
@[simp] theorem memErr_cfg (b : Block) (src kind unit base addr info cause : Nat) : (memErr b src kind unit base addr info cause).cfg = b.cfg := memErr_keeps (·.cfg) (fun _ _ _ => rfl) (fun _ _ => rfl) b src kind unit base addr info cause
@[simp] theorem memErr_nextId (b : Block) (src kind unit base addr info cause : Nat) : (memErr b src kind unit base addr info cause).nextId = b.nextId := memErr_keeps (·.nextId) (fun _ _ _ => rfl) (fun _ _ => rfl) b src kind unit base addr info cause
@[simp] theorem getChan_dataRec (b : Block) (src kind unit addr detail : Nat) (x y : Nat) : getChan (dataRec b src kind unit addr detail) x y = getChan b x y :=
  dataRec_keeps (getChan · x y) (fun _ _ _ => rfl) (fun _ _ => rfl) (fun _ _ => rfl) b src kind unit addr detail
@[simp] theorem getStrand_dataRec (b : Block) (src kind unit addr detail : Nat) (x y : Nat) : getStrand (dataRec b src kind unit addr detail) x y = getStrand b x y :=
  dataRec_keeps (getStrand · x y) (fun _ _ _ => rfl) (fun _ _ => rfl) (fun _ _ => rfl) b src kind unit addr detail
@[simp] theorem getStn_dataRec (b : Block) (src kind unit addr detail : Nat) (x : Nat) : getStn (dataRec b src kind unit addr detail) x = getStn b x :=
  dataRec_keeps (getStn · x) (fun _ _ _ => rfl) (fun _ _ => rfl) (fun _ _ => rfl) b src kind unit addr detail
@[simp] theorem getTal_dataRec (b : Block) (src kind unit addr detail : Nat) (x : Nat) : getTal (dataRec b src kind unit addr detail) x = getTal b x :=
  dataRec_keeps (getTal · x) (fun _ _ _ => rfl) (fun _ _ => rfl) (fun _ _ => rfl) b src kind unit addr detail
@[simp] theorem getPart_dataRec (b : Block) (src kind unit addr detail : Nat) (x : Nat) : getPart (dataRec b src kind unit addr detail) x = getPart b x :=
  dataRec_keeps (getPart · x) (fun _ _ _ => rfl) (fun _ _ => rfl) (fun _ _ => rfl) b src kind unit addr detail
@[simp] theorem getPort_dataRec (b : Block) (src kind unit addr detail : Nat) (x : Nat) : getPort (dataRec b src kind unit addr detail) x = getPort b x :=
  dataRec_keeps (getPort · x) (fun _ _ _ => rfl) (fun _ _ => rfl) (fun _ _ => rfl) b src kind unit addr detail
@[simp] theorem getGop_dataRec (b : Block) (src kind unit addr detail : Nat) (x : Nat) : getGop (dataRec b src kind unit addr detail) x = getGop b x :=
  dataRec_keeps (getGop · x) (fun _ _ _ => rfl) (fun _ _ => rfl) (fun _ _ => rfl) b src kind unit addr detail
@[simp] theorem dataRec_adds (b : Block) (src kind unit addr detail : Nat) : (dataRec b src kind unit addr detail).adds = b.adds := dataRec_keeps (·.adds) (fun _ _ _ => rfl) (fun _ _ => rfl) (fun _ _ => rfl) b src kind unit addr detail
@[simp] theorem dataRec_walks (b : Block) (src kind unit addr detail : Nat) : (dataRec b src kind unit addr detail).walks = b.walks := dataRec_keeps (·.walks) (fun _ _ _ => rfl) (fun _ _ => rfl) (fun _ _ => rfl) b src kind unit addr detail
@[simp] theorem dataRec_mgmt (b : Block) (src kind unit addr detail : Nat) : (dataRec b src kind unit addr detail).mgmt = b.mgmt := dataRec_keeps (·.mgmt) (fun _ _ _ => rfl) (fun _ _ => rfl) (fun _ _ => rfl) b src kind unit addr detail
@[simp] theorem dataRec_pwr (b : Block) (src kind unit addr detail : Nat) : (dataRec b src kind unit addr detail).pwr = b.pwr := dataRec_keeps (·.pwr) (fun _ _ _ => rfl) (fun _ _ => rfl) (fun _ _ => rfl) b src kind unit addr detail
@[simp] theorem dataRec_vault (b : Block) (src kind unit addr detail : Nat) : (dataRec b src kind unit addr detail).vault = b.vault := dataRec_keeps (·.vault) (fun _ _ _ => rfl) (fun _ _ => rfl) (fun _ _ => rfl) b src kind unit addr detail
@[simp] theorem dataRec_cfg (b : Block) (src kind unit addr detail : Nat) : (dataRec b src kind unit addr detail).cfg = b.cfg := dataRec_keeps (·.cfg) (fun _ _ _ => rfl) (fun _ _ => rfl) (fun _ _ => rfl) b src kind unit addr detail
@[simp] theorem dataRec_nextId (b : Block) (src kind unit addr detail : Nat) : (dataRec b src kind unit addr detail).nextId = b.nextId := dataRec_keeps (·.nextId) (fun _ _ _ => rfl) (fun _ _ => rfl) (fun _ _ => rfl) b src kind unit addr detail

end Sys2Proof.Machine
end

