-- ==== Sys2Proof/Laws/Keeps.lean ====
section
/-! SUPPORT. The fields that each operation may write, and that no operation leaves dead ball (R360): a property that changes of those
fields keep is kept by the operation. Shared operations first. -/
set_option Elab.async false
set_option linter.all false

namespace Sys2Proof.Machine

/-- What a change of the block leaves as it was: every field whose bit m does not have, and dead ball (R360). -/
structure Agree (m : Nat) (b b' : Block) : Prop where
  regs : m.testBit 0 = false → b'.regs = b.regs
  cfg : m.testBit 1 = false → b'.cfg = b.cfg
  chans : m.testBit 2 = false → b'.chans = b.chans
  strands : m.testBit 3 = false → b'.strands = b.strands
  stations : m.testBit 4 = false → b'.stations = b.stations
  tallies : m.testBit 5 = false → b'.tallies = b.tallies
  adds : m.testBit 6 = false → b'.adds = b.adds
  walks : m.testBit 7 = false → b'.walks = b.walks
  parts : m.testBit 8 = false → b'.parts = b.parts
  standby : m.testBit 9 = false → b'.standby = b.standby
  commitQ : m.testBit 10 = false → b'.commitQ = b.commitQ
  invQ : m.testBit 11 = false → b'.invQ = b.invQ
  invals : m.testBit 12 = false → b'.invals = b.invals
  hubWr : m.testBit 13 = false → b'.hubWr = b.hubWr
  hubQ : m.testBit 14 = false → b'.hubQ = b.hubQ
  irqs : m.testBit 15 = false → b'.irqs = b.irqs
  ports : m.testBit 16 = false → b'.ports = b.ports
  gops : m.testBit 17 = false → b'.gops = b.gops
  linkReset : m.testBit 18 = false → b'.linkReset = b.linkReset
  colour : m.testBit 19 = false → b'.colour = b.colour
  vault : m.testBit 20 = false → b'.vault = b.vault
  ref : m.testBit 21 = false → b'.ref = b.ref
  pwr : m.testBit 22 = false → b'.pwr = b.pwr
  mgmt : m.testBit 23 = false → b'.mgmt = b.mgmt
  counters : m.testBit 24 = false → b'.counters = b.counters
  frzTime : m.testBit 25 = false → b'.frzTime = b.frzTime
  aoTime : m.testBit 26 = false → b'.aoTime = b.aoTime
  ponTime : m.testBit 27 = false → b'.ponTime = b.ponTime
  badRegs : m.testBit 28 = false → b'.badRegs = b.badRegs
  hazLatch : m.testBit 29 = false → b'.hazLatch = b.hazLatch
  nextId : m.testBit 30 = false → b'.nextId = b.nextId
  fresh : m.testBit 31 = false → b'.fresh = b.fresh
  dead : b.ref.dead = true → b'.ref.dead = true

/-- A property that every change of the fields of m keeps. -/
def Keeps (m : Nat) (P : Block → Prop) : Prop := ∀ b b' : Block, Agree m b b' → P b → P b'

theorem bits_sub {a c m : Nat} (h1 : a ||| c = c) (h2 : c ||| m = m) : a ||| m = m := by
  rw [← h2, ← Nat.or_assoc, h1]

theorem bit_absurd {c m i : Nat} (h2 : c ||| m = m) (h1 : c.testBit i = true) {p : Prop} (h3 : m.testBit i = false) : p := by
  rw [← h2, Nat.testBit_or, h1] at h3
  simp at h3

theorem keep_ite {P : Block → Prop} {c : Prop} [Decidable c] {x y : Block} (h1 : P x) (h2 : P y) :
    P (if c then x else y) := by
  by_cases hc : c
  · rwa [if_pos hc]
  · rwa [if_neg hc]

theorem keep_cut {p q : Prop} (h : p) (f : p → q) : q := f h

section
variable {m : Nat} {P : Block → Prop} (h : Keeps m P) {b : Block} (hb : P b)
include h hb

theorem upd_regs (hm : 1 ||| m = m) (x) : P { b with regs := x } :=
  h b _ ⟨bit_absurd hm rfl, fun _ => rfl, fun _ => rfl, fun _ => rfl, fun _ => rfl, fun _ => rfl, fun _ => rfl, fun _ => rfl, fun _ => rfl, fun _ => rfl, fun _ => rfl, fun _ => rfl, fun _ => rfl, fun _ => rfl, fun _ => rfl, fun _ => rfl, fun _ => rfl, fun _ => rfl, fun _ => rfl, fun _ => rfl, fun _ => rfl, fun _ => rfl, fun _ => rfl, fun _ => rfl, fun _ => rfl, fun _ => rfl, fun _ => rfl, fun _ => rfl, fun _ => rfl, fun _ => rfl, fun _ => rfl, fun _ => rfl, fun e => e⟩ hb
theorem upd_cfg (hm : 2 ||| m = m) (x) : P { b with cfg := x } :=
  h b _ ⟨fun _ => rfl, bit_absurd hm rfl, fun _ => rfl, fun _ => rfl, fun _ => rfl, fun _ => rfl, fun _ => rfl, fun _ => rfl, fun _ => rfl, fun _ => rfl, fun _ => rfl, fun _ => rfl, fun _ => rfl, fun _ => rfl, fun _ => rfl, fun _ => rfl, fun _ => rfl, fun _ => rfl, fun _ => rfl, fun _ => rfl, fun _ => rfl, fun _ => rfl, fun _ => rfl, fun _ => rfl, fun _ => rfl, fun _ => rfl, fun _ => rfl, fun _ => rfl, fun _ => rfl, fun _ => rfl, fun _ => rfl, fun _ => rfl, fun e => e⟩ hb
theorem upd_chans (hm : 4 ||| m = m) (x) : P { b with chans := x } :=
  h b _ ⟨fun _ => rfl, fun _ => rfl, bit_absurd hm rfl, fun _ => rfl, fun _ => rfl, fun _ => rfl, fun _ => rfl, fun _ => rfl, fun _ => rfl, fun _ => rfl, fun _ => rfl, fun _ => rfl, fun _ => rfl, fun _ => rfl, fun _ => rfl, fun _ => rfl, fun _ => rfl, fun _ => rfl, fun _ => rfl, fun _ => rfl, fun _ => rfl, fun _ => rfl, fun _ => rfl, fun _ => rfl, fun _ => rfl, fun _ => rfl, fun _ => rfl, fun _ => rfl, fun _ => rfl, fun _ => rfl, fun _ => rfl, fun _ => rfl, fun e => e⟩ hb
theorem upd_strands (hm : 8 ||| m = m) (x) : P { b with strands := x } :=
  h b _ ⟨fun _ => rfl, fun _ => rfl, fun _ => rfl, bit_absurd hm rfl, fun _ => rfl, fun _ => rfl, fun _ => rfl, fun _ => rfl, fun _ => rfl, fun _ => rfl, fun _ => rfl, fun _ => rfl, fun _ => rfl, fun _ => rfl, fun _ => rfl, fun _ => rfl, fun _ => rfl, fun _ => rfl, fun _ => rfl, fun _ => rfl, fun _ => rfl, fun _ => rfl, fun _ => rfl, fun _ => rfl, fun _ => rfl, fun _ => rfl, fun _ => rfl, fun _ => rfl, fun _ => rfl, fun _ => rfl, fun _ => rfl, fun _ => rfl, fun e => e⟩ hb
theorem upd_stations (hm : 16 ||| m = m) (x) : P { b with stations := x } :=
  h b _ ⟨fun _ => rfl, fun _ => rfl, fun _ => rfl, fun _ => rfl, bit_absurd hm rfl, fun _ => rfl, fun _ => rfl, fun _ => rfl, fun _ => rfl, fun _ => rfl, fun _ => rfl, fun _ => rfl, fun _ => rfl, fun _ => rfl, fun _ => rfl, fun _ => rfl, fun _ => rfl, fun _ => rfl, fun _ => rfl, fun _ => rfl, fun _ => rfl, fun _ => rfl, fun _ => rfl, fun _ => rfl, fun _ => rfl, fun _ => rfl, fun _ => rfl, fun _ => rfl, fun _ => rfl, fun _ => rfl, fun _ => rfl, fun _ => rfl, fun e => e⟩ hb
theorem upd_tallies (hm : 32 ||| m = m) (x) : P { b with tallies := x } :=
  h b _ ⟨fun _ => rfl, fun _ => rfl, fun _ => rfl, fun _ => rfl, fun _ => rfl, bit_absurd hm rfl, fun _ => rfl, fun _ => rfl, fun _ => rfl, fun _ => rfl, fun _ => rfl, fun _ => rfl, fun _ => rfl, fun _ => rfl, fun _ => rfl, fun _ => rfl, fun _ => rfl, fun _ => rfl, fun _ => rfl, fun _ => rfl, fun _ => rfl, fun _ => rfl, fun _ => rfl, fun _ => rfl, fun _ => rfl, fun _ => rfl, fun _ => rfl, fun _ => rfl, fun _ => rfl, fun _ => rfl, fun _ => rfl, fun _ => rfl, fun e => e⟩ hb
theorem upd_adds (hm : 64 ||| m = m) (x) : P { b with adds := x } :=
  h b _ ⟨fun _ => rfl, fun _ => rfl, fun _ => rfl, fun _ => rfl, fun _ => rfl, fun _ => rfl, bit_absurd hm rfl, fun _ => rfl, fun _ => rfl, fun _ => rfl, fun _ => rfl, fun _ => rfl, fun _ => rfl, fun _ => rfl, fun _ => rfl, fun _ => rfl, fun _ => rfl, fun _ => rfl, fun _ => rfl, fun _ => rfl, fun _ => rfl, fun _ => rfl, fun _ => rfl, fun _ => rfl, fun _ => rfl, fun _ => rfl, fun _ => rfl, fun _ => rfl, fun _ => rfl, fun _ => rfl, fun _ => rfl, fun _ => rfl, fun e => e⟩ hb
theorem upd_walks (hm : 128 ||| m = m) (x) : P { b with walks := x } :=
  h b _ ⟨fun _ => rfl, fun _ => rfl, fun _ => rfl, fun _ => rfl, fun _ => rfl, fun _ => rfl, fun _ => rfl, bit_absurd hm rfl, fun _ => rfl, fun _ => rfl, fun _ => rfl, fun _ => rfl, fun _ => rfl, fun _ => rfl, fun _ => rfl, fun _ => rfl, fun _ => rfl, fun _ => rfl, fun _ => rfl, fun _ => rfl, fun _ => rfl, fun _ => rfl, fun _ => rfl, fun _ => rfl, fun _ => rfl, fun _ => rfl, fun _ => rfl, fun _ => rfl, fun _ => rfl, fun _ => rfl, fun _ => rfl, fun _ => rfl, fun e => e⟩ hb
theorem upd_parts (hm : 256 ||| m = m) (x) : P { b with parts := x } :=
  h b _ ⟨fun _ => rfl, fun _ => rfl, fun _ => rfl, fun _ => rfl, fun _ => rfl, fun _ => rfl, fun _ => rfl, fun _ => rfl, bit_absurd hm rfl, fun _ => rfl, fun _ => rfl, fun _ => rfl, fun _ => rfl, fun _ => rfl, fun _ => rfl, fun _ => rfl, fun _ => rfl, fun _ => rfl, fun _ => rfl, fun _ => rfl, fun _ => rfl, fun _ => rfl, fun _ => rfl, fun _ => rfl, fun _ => rfl, fun _ => rfl, fun _ => rfl, fun _ => rfl, fun _ => rfl, fun _ => rfl, fun _ => rfl, fun _ => rfl, fun e => e⟩ hb
theorem upd_standby (hm : 512 ||| m = m) (x) : P { b with standby := x } :=
  h b _ ⟨fun _ => rfl, fun _ => rfl, fun _ => rfl, fun _ => rfl, fun _ => rfl, fun _ => rfl, fun _ => rfl, fun _ => rfl, fun _ => rfl, bit_absurd hm rfl, fun _ => rfl, fun _ => rfl, fun _ => rfl, fun _ => rfl, fun _ => rfl, fun _ => rfl, fun _ => rfl, fun _ => rfl, fun _ => rfl, fun _ => rfl, fun _ => rfl, fun _ => rfl, fun _ => rfl, fun _ => rfl, fun _ => rfl, fun _ => rfl, fun _ => rfl, fun _ => rfl, fun _ => rfl, fun _ => rfl, fun _ => rfl, fun _ => rfl, fun e => e⟩ hb
theorem upd_commitQ (hm : 1024 ||| m = m) (x) : P { b with commitQ := x } :=
  h b _ ⟨fun _ => rfl, fun _ => rfl, fun _ => rfl, fun _ => rfl, fun _ => rfl, fun _ => rfl, fun _ => rfl, fun _ => rfl, fun _ => rfl, fun _ => rfl, bit_absurd hm rfl, fun _ => rfl, fun _ => rfl, fun _ => rfl, fun _ => rfl, fun _ => rfl, fun _ => rfl, fun _ => rfl, fun _ => rfl, fun _ => rfl, fun _ => rfl, fun _ => rfl, fun _ => rfl, fun _ => rfl, fun _ => rfl, fun _ => rfl, fun _ => rfl, fun _ => rfl, fun _ => rfl, fun _ => rfl, fun _ => rfl, fun _ => rfl, fun e => e⟩ hb
theorem upd_invQ (hm : 2048 ||| m = m) (x) : P { b with invQ := x } :=
  h b _ ⟨fun _ => rfl, fun _ => rfl, fun _ => rfl, fun _ => rfl, fun _ => rfl, fun _ => rfl, fun _ => rfl, fun _ => rfl, fun _ => rfl, fun _ => rfl, fun _ => rfl, bit_absurd hm rfl, fun _ => rfl, fun _ => rfl, fun _ => rfl, fun _ => rfl, fun _ => rfl, fun _ => rfl, fun _ => rfl, fun _ => rfl, fun _ => rfl, fun _ => rfl, fun _ => rfl, fun _ => rfl, fun _ => rfl, fun _ => rfl, fun _ => rfl, fun _ => rfl, fun _ => rfl, fun _ => rfl, fun _ => rfl, fun _ => rfl, fun e => e⟩ hb
theorem upd_invals (hm : 4096 ||| m = m) (x) : P { b with invals := x } :=
  h b _ ⟨fun _ => rfl, fun _ => rfl, fun _ => rfl, fun _ => rfl, fun _ => rfl, fun _ => rfl, fun _ => rfl, fun _ => rfl, fun _ => rfl, fun _ => rfl, fun _ => rfl, fun _ => rfl, bit_absurd hm rfl, fun _ => rfl, fun _ => rfl, fun _ => rfl, fun _ => rfl, fun _ => rfl, fun _ => rfl, fun _ => rfl, fun _ => rfl, fun _ => rfl, fun _ => rfl, fun _ => rfl, fun _ => rfl, fun _ => rfl, fun _ => rfl, fun _ => rfl, fun _ => rfl, fun _ => rfl, fun _ => rfl, fun _ => rfl, fun e => e⟩ hb
theorem upd_hubWr (hm : 8192 ||| m = m) (x) : P { b with hubWr := x } :=
  h b _ ⟨fun _ => rfl, fun _ => rfl, fun _ => rfl, fun _ => rfl, fun _ => rfl, fun _ => rfl, fun _ => rfl, fun _ => rfl, fun _ => rfl, fun _ => rfl, fun _ => rfl, fun _ => rfl, fun _ => rfl, bit_absurd hm rfl, fun _ => rfl, fun _ => rfl, fun _ => rfl, fun _ => rfl, fun _ => rfl, fun _ => rfl, fun _ => rfl, fun _ => rfl, fun _ => rfl, fun _ => rfl, fun _ => rfl, fun _ => rfl, fun _ => rfl, fun _ => rfl, fun _ => rfl, fun _ => rfl, fun _ => rfl, fun _ => rfl, fun e => e⟩ hb
theorem upd_hubQ (hm : 16384 ||| m = m) (x) : P { b with hubQ := x } :=
  h b _ ⟨fun _ => rfl, fun _ => rfl, fun _ => rfl, fun _ => rfl, fun _ => rfl, fun _ => rfl, fun _ => rfl, fun _ => rfl, fun _ => rfl, fun _ => rfl, fun _ => rfl, fun _ => rfl, fun _ => rfl, fun _ => rfl, bit_absurd hm rfl, fun _ => rfl, fun _ => rfl, fun _ => rfl, fun _ => rfl, fun _ => rfl, fun _ => rfl, fun _ => rfl, fun _ => rfl, fun _ => rfl, fun _ => rfl, fun _ => rfl, fun _ => rfl, fun _ => rfl, fun _ => rfl, fun _ => rfl, fun _ => rfl, fun _ => rfl, fun e => e⟩ hb
theorem upd_irqs (hm : 32768 ||| m = m) (x) : P { b with irqs := x } :=
  h b _ ⟨fun _ => rfl, fun _ => rfl, fun _ => rfl, fun _ => rfl, fun _ => rfl, fun _ => rfl, fun _ => rfl, fun _ => rfl, fun _ => rfl, fun _ => rfl, fun _ => rfl, fun _ => rfl, fun _ => rfl, fun _ => rfl, fun _ => rfl, bit_absurd hm rfl, fun _ => rfl, fun _ => rfl, fun _ => rfl, fun _ => rfl, fun _ => rfl, fun _ => rfl, fun _ => rfl, fun _ => rfl, fun _ => rfl, fun _ => rfl, fun _ => rfl, fun _ => rfl, fun _ => rfl, fun _ => rfl, fun _ => rfl, fun _ => rfl, fun e => e⟩ hb
theorem upd_ports (hm : 65536 ||| m = m) (x) : P { b with ports := x } :=
  h b _ ⟨fun _ => rfl, fun _ => rfl, fun _ => rfl, fun _ => rfl, fun _ => rfl, fun _ => rfl, fun _ => rfl, fun _ => rfl, fun _ => rfl, fun _ => rfl, fun _ => rfl, fun _ => rfl, fun _ => rfl, fun _ => rfl, fun _ => rfl, fun _ => rfl, bit_absurd hm rfl, fun _ => rfl, fun _ => rfl, fun _ => rfl, fun _ => rfl, fun _ => rfl, fun _ => rfl, fun _ => rfl, fun _ => rfl, fun _ => rfl, fun _ => rfl, fun _ => rfl, fun _ => rfl, fun _ => rfl, fun _ => rfl, fun _ => rfl, fun e => e⟩ hb
theorem upd_gops (hm : 131072 ||| m = m) (x) : P { b with gops := x } :=
  h b _ ⟨fun _ => rfl, fun _ => rfl, fun _ => rfl, fun _ => rfl, fun _ => rfl, fun _ => rfl, fun _ => rfl, fun _ => rfl, fun _ => rfl, fun _ => rfl, fun _ => rfl, fun _ => rfl, fun _ => rfl, fun _ => rfl, fun _ => rfl, fun _ => rfl, fun _ => rfl, bit_absurd hm rfl, fun _ => rfl, fun _ => rfl, fun _ => rfl, fun _ => rfl, fun _ => rfl, fun _ => rfl, fun _ => rfl, fun _ => rfl, fun _ => rfl, fun _ => rfl, fun _ => rfl, fun _ => rfl, fun _ => rfl, fun _ => rfl, fun e => e⟩ hb
theorem upd_linkReset (hm : 262144 ||| m = m) (x) : P { b with linkReset := x } :=
  h b _ ⟨fun _ => rfl, fun _ => rfl, fun _ => rfl, fun _ => rfl, fun _ => rfl, fun _ => rfl, fun _ => rfl, fun _ => rfl, fun _ => rfl, fun _ => rfl, fun _ => rfl, fun _ => rfl, fun _ => rfl, fun _ => rfl, fun _ => rfl, fun _ => rfl, fun _ => rfl, fun _ => rfl, bit_absurd hm rfl, fun _ => rfl, fun _ => rfl, fun _ => rfl, fun _ => rfl, fun _ => rfl, fun _ => rfl, fun _ => rfl, fun _ => rfl, fun _ => rfl, fun _ => rfl, fun _ => rfl, fun _ => rfl, fun _ => rfl, fun e => e⟩ hb
theorem upd_colour (hm : 524288 ||| m = m) (x) : P { b with colour := x } :=
  h b _ ⟨fun _ => rfl, fun _ => rfl, fun _ => rfl, fun _ => rfl, fun _ => rfl, fun _ => rfl, fun _ => rfl, fun _ => rfl, fun _ => rfl, fun _ => rfl, fun _ => rfl, fun _ => rfl, fun _ => rfl, fun _ => rfl, fun _ => rfl, fun _ => rfl, fun _ => rfl, fun _ => rfl, fun _ => rfl, bit_absurd hm rfl, fun _ => rfl, fun _ => rfl, fun _ => rfl, fun _ => rfl, fun _ => rfl, fun _ => rfl, fun _ => rfl, fun _ => rfl, fun _ => rfl, fun _ => rfl, fun _ => rfl, fun _ => rfl, fun e => e⟩ hb
theorem upd_vault (hm : 1048576 ||| m = m) (x) : P { b with vault := x } :=
  h b _ ⟨fun _ => rfl, fun _ => rfl, fun _ => rfl, fun _ => rfl, fun _ => rfl, fun _ => rfl, fun _ => rfl, fun _ => rfl, fun _ => rfl, fun _ => rfl, fun _ => rfl, fun _ => rfl, fun _ => rfl, fun _ => rfl, fun _ => rfl, fun _ => rfl, fun _ => rfl, fun _ => rfl, fun _ => rfl, fun _ => rfl, bit_absurd hm rfl, fun _ => rfl, fun _ => rfl, fun _ => rfl, fun _ => rfl, fun _ => rfl, fun _ => rfl, fun _ => rfl, fun _ => rfl, fun _ => rfl, fun _ => rfl, fun _ => rfl, fun e => e⟩ hb
theorem upd_pwr (hm : 4194304 ||| m = m) (x) : P { b with pwr := x } :=
  h b _ ⟨fun _ => rfl, fun _ => rfl, fun _ => rfl, fun _ => rfl, fun _ => rfl, fun _ => rfl, fun _ => rfl, fun _ => rfl, fun _ => rfl, fun _ => rfl, fun _ => rfl, fun _ => rfl, fun _ => rfl, fun _ => rfl, fun _ => rfl, fun _ => rfl, fun _ => rfl, fun _ => rfl, fun _ => rfl, fun _ => rfl, fun _ => rfl, fun _ => rfl, bit_absurd hm rfl, fun _ => rfl, fun _ => rfl, fun _ => rfl, fun _ => rfl, fun _ => rfl, fun _ => rfl, fun _ => rfl, fun _ => rfl, fun _ => rfl, fun e => e⟩ hb
theorem upd_mgmt (hm : 8388608 ||| m = m) (x) : P { b with mgmt := x } :=
  h b _ ⟨fun _ => rfl, fun _ => rfl, fun _ => rfl, fun _ => rfl, fun _ => rfl, fun _ => rfl, fun _ => rfl, fun _ => rfl, fun _ => rfl, fun _ => rfl, fun _ => rfl, fun _ => rfl, fun _ => rfl, fun _ => rfl, fun _ => rfl, fun _ => rfl, fun _ => rfl, fun _ => rfl, fun _ => rfl, fun _ => rfl, fun _ => rfl, fun _ => rfl, fun _ => rfl, bit_absurd hm rfl, fun _ => rfl, fun _ => rfl, fun _ => rfl, fun _ => rfl, fun _ => rfl, fun _ => rfl, fun _ => rfl, fun _ => rfl, fun e => e⟩ hb
theorem upd_counters (hm : 16777216 ||| m = m) (x) : P { b with counters := x } :=
  h b _ ⟨fun _ => rfl, fun _ => rfl, fun _ => rfl, fun _ => rfl, fun _ => rfl, fun _ => rfl, fun _ => rfl, fun _ => rfl, fun _ => rfl, fun _ => rfl, fun _ => rfl, fun _ => rfl, fun _ => rfl, fun _ => rfl, fun _ => rfl, fun _ => rfl, fun _ => rfl, fun _ => rfl, fun _ => rfl, fun _ => rfl, fun _ => rfl, fun _ => rfl, fun _ => rfl, fun _ => rfl, bit_absurd hm rfl, fun _ => rfl, fun _ => rfl, fun _ => rfl, fun _ => rfl, fun _ => rfl, fun _ => rfl, fun _ => rfl, fun e => e⟩ hb
theorem upd_frzTime (hm : 33554432 ||| m = m) (x) : P { b with frzTime := x } :=
  h b _ ⟨fun _ => rfl, fun _ => rfl, fun _ => rfl, fun _ => rfl, fun _ => rfl, fun _ => rfl, fun _ => rfl, fun _ => rfl, fun _ => rfl, fun _ => rfl, fun _ => rfl, fun _ => rfl, fun _ => rfl, fun _ => rfl, fun _ => rfl, fun _ => rfl, fun _ => rfl, fun _ => rfl, fun _ => rfl, fun _ => rfl, fun _ => rfl, fun _ => rfl, fun _ => rfl, fun _ => rfl, fun _ => rfl, bit_absurd hm rfl, fun _ => rfl, fun _ => rfl, fun _ => rfl, fun _ => rfl, fun _ => rfl, fun _ => rfl, fun e => e⟩ hb
theorem upd_aoTime (hm : 67108864 ||| m = m) (x) : P { b with aoTime := x } :=
  h b _ ⟨fun _ => rfl, fun _ => rfl, fun _ => rfl, fun _ => rfl, fun _ => rfl, fun _ => rfl, fun _ => rfl, fun _ => rfl, fun _ => rfl, fun _ => rfl, fun _ => rfl, fun _ => rfl, fun _ => rfl, fun _ => rfl, fun _ => rfl, fun _ => rfl, fun _ => rfl, fun _ => rfl, fun _ => rfl, fun _ => rfl, fun _ => rfl, fun _ => rfl, fun _ => rfl, fun _ => rfl, fun _ => rfl, fun _ => rfl, bit_absurd hm rfl, fun _ => rfl, fun _ => rfl, fun _ => rfl, fun _ => rfl, fun _ => rfl, fun e => e⟩ hb
theorem upd_ponTime (hm : 134217728 ||| m = m) (x) : P { b with ponTime := x } :=
  h b _ ⟨fun _ => rfl, fun _ => rfl, fun _ => rfl, fun _ => rfl, fun _ => rfl, fun _ => rfl, fun _ => rfl, fun _ => rfl, fun _ => rfl, fun _ => rfl, fun _ => rfl, fun _ => rfl, fun _ => rfl, fun _ => rfl, fun _ => rfl, fun _ => rfl, fun _ => rfl, fun _ => rfl, fun _ => rfl, fun _ => rfl, fun _ => rfl, fun _ => rfl, fun _ => rfl, fun _ => rfl, fun _ => rfl, fun _ => rfl, fun _ => rfl, bit_absurd hm rfl, fun _ => rfl, fun _ => rfl, fun _ => rfl, fun _ => rfl, fun e => e⟩ hb
theorem upd_badRegs (hm : 268435456 ||| m = m) (x) : P { b with badRegs := x } :=
  h b _ ⟨fun _ => rfl, fun _ => rfl, fun _ => rfl, fun _ => rfl, fun _ => rfl, fun _ => rfl, fun _ => rfl, fun _ => rfl, fun _ => rfl, fun _ => rfl, fun _ => rfl, fun _ => rfl, fun _ => rfl, fun _ => rfl, fun _ => rfl, fun _ => rfl, fun _ => rfl, fun _ => rfl, fun _ => rfl, fun _ => rfl, fun _ => rfl, fun _ => rfl, fun _ => rfl, fun _ => rfl, fun _ => rfl, fun _ => rfl, fun _ => rfl, fun _ => rfl, bit_absurd hm rfl, fun _ => rfl, fun _ => rfl, fun _ => rfl, fun e => e⟩ hb
theorem upd_hazLatch (hm : 536870912 ||| m = m) (x) : P { b with hazLatch := x } :=
  h b _ ⟨fun _ => rfl, fun _ => rfl, fun _ => rfl, fun _ => rfl, fun _ => rfl, fun _ => rfl, fun _ => rfl, fun _ => rfl, fun _ => rfl, fun _ => rfl, fun _ => rfl, fun _ => rfl, fun _ => rfl, fun _ => rfl, fun _ => rfl, fun _ => rfl, fun _ => rfl, fun _ => rfl, fun _ => rfl, fun _ => rfl, fun _ => rfl, fun _ => rfl, fun _ => rfl, fun _ => rfl, fun _ => rfl, fun _ => rfl, fun _ => rfl, fun _ => rfl, fun _ => rfl, bit_absurd hm rfl, fun _ => rfl, fun _ => rfl, fun e => e⟩ hb
theorem upd_nextId (hm : 1073741824 ||| m = m) (x) : P { b with nextId := x } :=
  h b _ ⟨fun _ => rfl, fun _ => rfl, fun _ => rfl, fun _ => rfl, fun _ => rfl, fun _ => rfl, fun _ => rfl, fun _ => rfl, fun _ => rfl, fun _ => rfl, fun _ => rfl, fun _ => rfl, fun _ => rfl, fun _ => rfl, fun _ => rfl, fun _ => rfl, fun _ => rfl, fun _ => rfl, fun _ => rfl, fun _ => rfl, fun _ => rfl, fun _ => rfl, fun _ => rfl, fun _ => rfl, fun _ => rfl, fun _ => rfl, fun _ => rfl, fun _ => rfl, fun _ => rfl, fun _ => rfl, bit_absurd hm rfl, fun _ => rfl, fun e => e⟩ hb
theorem upd_fresh (hm : 2147483648 ||| m = m) (x) : P { b with fresh := x } :=
  h b _ ⟨fun _ => rfl, fun _ => rfl, fun _ => rfl, fun _ => rfl, fun _ => rfl, fun _ => rfl, fun _ => rfl, fun _ => rfl, fun _ => rfl, fun _ => rfl, fun _ => rfl, fun _ => rfl, fun _ => rfl, fun _ => rfl, fun _ => rfl, fun _ => rfl, fun _ => rfl, fun _ => rfl, fun _ => rfl, fun _ => rfl, fun _ => rfl, fun _ => rfl, fun _ => rfl, fun _ => rfl, fun _ => rfl, fun _ => rfl, fun _ => rfl, fun _ => rfl, fun _ => rfl, fun _ => rfl, fun _ => rfl, bit_absurd hm rfl, fun e => e⟩ hb
theorem upd_ref (hm : 2097152 ||| m = m) (x : Referee) (hx : b.ref.dead = true → x.dead = true) : P { b with ref := x } :=
  h b _ ⟨fun _ => rfl, fun _ => rfl, fun _ => rfl, fun _ => rfl, fun _ => rfl, fun _ => rfl, fun _ => rfl, fun _ => rfl, fun _ => rfl, fun _ => rfl, fun _ => rfl, fun _ => rfl, fun _ => rfl, fun _ => rfl, fun _ => rfl, fun _ => rfl, fun _ => rfl, fun _ => rfl, fun _ => rfl, fun _ => rfl, fun _ => rfl, bit_absurd hm rfl, fun _ => rfl, fun _ => rfl, fun _ => rfl, fun _ => rfl, fun _ => rfl, fun _ => rfl, fun _ => rfl, fun _ => rfl, fun _ => rfl, fun _ => rfl, hx⟩ hb
theorem upd_walks_parts (hm : 384 ||| m = m) (x y) : P { b with walks := x, parts := y } :=
  h b _ ⟨fun _ => rfl, fun _ => rfl, fun _ => rfl, fun _ => rfl, fun _ => rfl, fun _ => rfl, fun _ => rfl, bit_absurd hm rfl, bit_absurd hm rfl, fun _ => rfl, fun _ => rfl, fun _ => rfl, fun _ => rfl, fun _ => rfl, fun _ => rfl, fun _ => rfl, fun _ => rfl, fun _ => rfl, fun _ => rfl, fun _ => rfl, fun _ => rfl, fun _ => rfl, fun _ => rfl, fun _ => rfl, fun _ => rfl, fun _ => rfl, fun _ => rfl, fun _ => rfl, fun _ => rfl, fun _ => rfl, fun _ => rfl, fun _ => rfl, fun e => e⟩ hb
theorem upd_hubWr_hubQ (hm : 24576 ||| m = m) (x y) : P { b with hubWr := x, hubQ := y } :=
  h b _ ⟨fun _ => rfl, fun _ => rfl, fun _ => rfl, fun _ => rfl, fun _ => rfl, fun _ => rfl, fun _ => rfl, fun _ => rfl, fun _ => rfl, fun _ => rfl, fun _ => rfl, fun _ => rfl, fun _ => rfl, bit_absurd hm rfl, bit_absurd hm rfl, fun _ => rfl, fun _ => rfl, fun _ => rfl, fun _ => rfl, fun _ => rfl, fun _ => rfl, fun _ => rfl, fun _ => rfl, fun _ => rfl, fun _ => rfl, fun _ => rfl, fun _ => rfl, fun _ => rfl, fun _ => rfl, fun _ => rfl, fun _ => rfl, fun _ => rfl, fun e => e⟩ hb
theorem upd_standby_commitQ (hm : 1536 ||| m = m) (x y) : P { b with standby := x, commitQ := y } :=
  h b _ ⟨fun _ => rfl, fun _ => rfl, fun _ => rfl, fun _ => rfl, fun _ => rfl, fun _ => rfl, fun _ => rfl, fun _ => rfl, fun _ => rfl, bit_absurd hm rfl, bit_absurd hm rfl, fun _ => rfl, fun _ => rfl, fun _ => rfl, fun _ => rfl, fun _ => rfl, fun _ => rfl, fun _ => rfl, fun _ => rfl, fun _ => rfl, fun _ => rfl, fun _ => rfl, fun _ => rfl, fun _ => rfl, fun _ => rfl, fun _ => rfl, fun _ => rfl, fun _ => rfl, fun _ => rfl, fun _ => rfl, fun _ => rfl, fun _ => rfl, fun e => e⟩ hb
theorem upd_invQ_invals (hm : 6144 ||| m = m) (x y) : P { b with invQ := x, invals := y } :=
  h b _ ⟨fun _ => rfl, fun _ => rfl, fun _ => rfl, fun _ => rfl, fun _ => rfl, fun _ => rfl, fun _ => rfl, fun _ => rfl, fun _ => rfl, fun _ => rfl, fun _ => rfl, bit_absurd hm rfl, bit_absurd hm rfl, fun _ => rfl, fun _ => rfl, fun _ => rfl, fun _ => rfl, fun _ => rfl, fun _ => rfl, fun _ => rfl, fun _ => rfl, fun _ => rfl, fun _ => rfl, fun _ => rfl, fun _ => rfl, fun _ => rfl, fun _ => rfl, fun _ => rfl, fun _ => rfl, fun _ => rfl, fun _ => rfl, fun _ => rfl, fun e => e⟩ hb
theorem upd_aoTime_ponTime (hm : 201326592 ||| m = m) (x y) : P { b with aoTime := x, ponTime := y } :=
  h b _ ⟨fun _ => rfl, fun _ => rfl, fun _ => rfl, fun _ => rfl, fun _ => rfl, fun _ => rfl, fun _ => rfl, fun _ => rfl, fun _ => rfl, fun _ => rfl, fun _ => rfl, fun _ => rfl, fun _ => rfl, fun _ => rfl, fun _ => rfl, fun _ => rfl, fun _ => rfl, fun _ => rfl, fun _ => rfl, fun _ => rfl, fun _ => rfl, fun _ => rfl, fun _ => rfl, fun _ => rfl, fun _ => rfl, fun _ => rfl, bit_absurd hm rfl, bit_absurd hm rfl, fun _ => rfl, fun _ => rfl, fun _ => rfl, fun _ => rfl, fun e => e⟩ hb
theorem upd_strands_hazLatch (hm : 536870920 ||| m = m) (x y) : P { b with strands := x, hazLatch := y } :=
  h b _ ⟨fun _ => rfl, fun _ => rfl, fun _ => rfl, bit_absurd hm rfl, fun _ => rfl, fun _ => rfl, fun _ => rfl, fun _ => rfl, fun _ => rfl, fun _ => rfl, fun _ => rfl, fun _ => rfl, fun _ => rfl, fun _ => rfl, fun _ => rfl, fun _ => rfl, fun _ => rfl, fun _ => rfl, fun _ => rfl, fun _ => rfl, fun _ => rfl, fun _ => rfl, fun _ => rfl, fun _ => rfl, fun _ => rfl, fun _ => rfl, fun _ => rfl, fun _ => rfl, fun _ => rfl, bit_absurd hm rfl, fun _ => rfl, fun _ => rfl, fun e => e⟩ hb
theorem upd_chans_strands (hm : 12 ||| m = m) (x y) : P { b with chans := x, strands := y } :=
  h b _ ⟨fun _ => rfl, fun _ => rfl, bit_absurd hm rfl, bit_absurd hm rfl, fun _ => rfl, fun _ => rfl, fun _ => rfl, fun _ => rfl, fun _ => rfl, fun _ => rfl, fun _ => rfl, fun _ => rfl, fun _ => rfl, fun _ => rfl, fun _ => rfl, fun _ => rfl, fun _ => rfl, fun _ => rfl, fun _ => rfl, fun _ => rfl, fun _ => rfl, fun _ => rfl, fun _ => rfl, fun _ => rfl, fun _ => rfl, fun _ => rfl, fun _ => rfl, fun _ => rfl, fun _ => rfl, fun _ => rfl, fun _ => rfl, fun _ => rfl, fun e => e⟩ hb
theorem upd_regs_badRegs (hm : 268435457 ||| m = m) (x y) : P { b with regs := x, badRegs := y } :=
  h b _ ⟨bit_absurd hm rfl, fun _ => rfl, fun _ => rfl, fun _ => rfl, fun _ => rfl, fun _ => rfl, fun _ => rfl, fun _ => rfl, fun _ => rfl, fun _ => rfl, fun _ => rfl, fun _ => rfl, fun _ => rfl, fun _ => rfl, fun _ => rfl, fun _ => rfl, fun _ => rfl, fun _ => rfl, fun _ => rfl, fun _ => rfl, fun _ => rfl, fun _ => rfl, fun _ => rfl, fun _ => rfl, fun _ => rfl, fun _ => rfl, fun _ => rfl, fun _ => rfl, bit_absurd hm rfl, fun _ => rfl, fun _ => rfl, fun _ => rfl, fun e => e⟩ hb
theorem upd_gops_linkReset_colour (hm : 917504 ||| m = m) (x y z) : P { b with gops := x, linkReset := y, colour := z } :=
  h b _ ⟨fun _ => rfl, fun _ => rfl, fun _ => rfl, fun _ => rfl, fun _ => rfl, fun _ => rfl, fun _ => rfl, fun _ => rfl, fun _ => rfl, fun _ => rfl, fun _ => rfl, fun _ => rfl, fun _ => rfl, fun _ => rfl, fun _ => rfl, fun _ => rfl, fun _ => rfl, bit_absurd hm rfl, bit_absurd hm rfl, bit_absurd hm rfl, fun _ => rfl, fun _ => rfl, fun _ => rfl, fun _ => rfl, fun _ => rfl, fun _ => rfl, fun _ => rfl, fun _ => rfl, fun _ => rfl, fun _ => rfl, fun _ => rfl, fun _ => rfl, fun e => e⟩ hb
theorem upd_chans_strands_tallies_hazLatch (hm : 536870956 ||| m = m) (x y z w) : P { b with chans := x, strands := y, tallies := z, hazLatch := w } :=
  h b _ ⟨fun _ => rfl, fun _ => rfl, bit_absurd hm rfl, bit_absurd hm rfl, fun _ => rfl, bit_absurd hm rfl, fun _ => rfl, fun _ => rfl, fun _ => rfl, fun _ => rfl, fun _ => rfl, fun _ => rfl, fun _ => rfl, fun _ => rfl, fun _ => rfl, fun _ => rfl, fun _ => rfl, fun _ => rfl, fun _ => rfl, fun _ => rfl, fun _ => rfl, fun _ => rfl, fun _ => rfl, fun _ => rfl, fun _ => rfl, fun _ => rfl, fun _ => rfl, fun _ => rfl, fun _ => rfl, bit_absurd hm rfl, fun _ => rfl, fun _ => rfl, fun e => e⟩ hb
theorem upd_stations_ports (hm : 65552 ||| m = m) (x y) : P { b with stations := x, ports := y } :=
  h b _ ⟨fun _ => rfl, fun _ => rfl, fun _ => rfl, fun _ => rfl, bit_absurd hm rfl, fun _ => rfl, fun _ => rfl, fun _ => rfl, fun _ => rfl, fun _ => rfl, fun _ => rfl, fun _ => rfl, fun _ => rfl, fun _ => rfl, fun _ => rfl, fun _ => rfl, bit_absurd hm rfl, fun _ => rfl, fun _ => rfl, fun _ => rfl, fun _ => rfl, fun _ => rfl, fun _ => rfl, fun _ => rfl, fun _ => rfl, fun _ => rfl, fun _ => rfl, fun _ => rfl, fun _ => rfl, fun _ => rfl, fun _ => rfl, fun _ => rfl, fun e => e⟩ hb
end

theorem keep_forEach {P : Block → Prop} {α : Type} (l : List α) {b : Block} (f : Block → α → Block) (hb : P b)
    (hf : ∀ b x, P b → P (f b x)) : P (forEach l b f) := by
  unfold forEach
  induction l generalizing b with
  | nil => exact hb
  | cons x t ih => exact ih (hf b x hb)

/-- What holds of both blocks of a register write: the one that it leaves and the one that its refusal leaves. -/
structure Both (P : Block → Prop) (r : Except Nat Block × Block) : Prop where
  ok  : ∀ b', r.1 = .ok b' → P b'
  err : P r.2

theorem both_ok {P : Block → Prop} {b b' : Block} (h1 : P b') (h2 : P b) : Both P (.ok b', b) :=
  ⟨fun _ e => by cases e; exact h1, h2⟩

theorem both_error {P : Block → Prop} {b : Block} {i : Nat} (h2 : P b) : Both P (.error i, b) :=
  ⟨fun _ e => by (cases e), h2⟩

theorem both_pair {P : Block → Prop} {b : Block} {r : Except Nat Block} (h1 : ∀ b', r = .ok b' → P b') (h2 : P b) :
    Both P (r, b) := ⟨h1, h2⟩

section
variable {m : Nat} {P : Block → Prop} (h : Keeps m P)
include h

theorem keep_rset (hm : 1 ||| m = m) {b : Block} (hb : P b) (a : Nat) (v : Nat) : P (rset b a v) := by
  unfold rset
  repeat' (first
    | with_reducible assumption | intro _ | exact bits_sub (by decide) hm | with_reducible apply keep_ite | split
    | with_reducible apply upd_regs h | dsimp only | assumption | rfl)

theorem keep_rsetBits (hm : 1 ||| m = m) {b : Block} (hb : P b) (a : Nat) (m0 : Nat) : P (rsetBits b a m0) := by
  unfold rsetBits
  repeat' (first
    | with_reducible assumption | intro _ | exact bits_sub (by decide) hm | with_reducible apply keep_rset h
    | with_reducible apply keep_ite | split | dsimp only | assumption | rfl)

theorem keep_setCnt (hm : 16777216 ||| m = m) {b : Block} (hb : P b) (l : Sys2Proof.CntLoc) (i : Nat) (x0 : Counter) :
    P (setCnt b l i x0) := by
  unfold setCnt
  repeat' (first
    | with_reducible assumption | intro _ | exact bits_sub (by decide) hm | with_reducible apply keep_ite | split
    | with_reducible apply upd_counters h | dsimp only | assumption | rfl)

theorem keep_cntAdd (hm : 16777217 ||| m = m) {b : Block} (hb : P b) (l : Sys2Proof.CntLoc) (i : Nat) (amt : Nat) : P
    (cntAdd b l i amt) := by
  unfold cntAdd
  repeat' (first
    | with_reducible assumption | intro _ | exact bits_sub (by decide) hm
    | (extract_lets +onlyGivenNames x; refine keep_cut (p := P x) ?_ (fun kx => ?_); rotate_left; clear_value x; rotate_right; unfold x; clear x)
    | (extract_lets +onlyGivenNames x; unfold x; clear x)
    | (extract_lets +onlyGivenNames x; clear x)
    | with_reducible apply keep_setCnt h | with_reducible apply keep_rsetBits h | with_reducible apply keep_ite
    | split | dsimp only | assumption | rfl)

theorem keep_count (hm : 16777217 ||| m = m) {b : Block} (hb : P b) (l : Sys2Proof.CntLoc) (ev : Nat) (amt : Nat)
    (owner : Option Nat) : P (count b l ev amt owner) := by
  unfold count
  repeat' (first
    | with_reducible assumption | intro _ | exact bits_sub (by decide) hm
    | (with_reducible refine keep_forEach _ _ ?_ ?_) | with_reducible apply keep_cntAdd h
    | with_reducible apply keep_ite | split | dsimp only | assumption | rfl)

theorem keep_setChan (hm : 4 ||| m = m) {b : Block} (hb : P b) (n : Nat) (c : Nat) (x0 : Chan) : P (setChan b n c x0)
    := by
  unfold setChan
  repeat' (first
    | with_reducible assumption | intro _ | exact bits_sub (by decide) hm | with_reducible apply keep_ite | split
    | with_reducible apply upd_chans h | dsimp only | assumption | rfl)

theorem keep_modChan (hm : 4 ||| m = m) {b : Block} (hb : P b) (n : Nat) (c : Nat) (f : Chan → Chan) : P (modChan b n
    c f) := by
  unfold modChan
  repeat' (first
    | with_reducible assumption | intro _ | exact bits_sub (by decide) hm | with_reducible apply keep_setChan h
    | with_reducible apply keep_ite | split | dsimp only | assumption | rfl)

theorem keep_acceptEntry (hm : 16777221 ||| m = m) {b : Block} (hb : P b) (n : Nat) (c : Nat) (e0 : Entry) : P
    (acceptEntry b n c e0) := by
  unfold acceptEntry
  repeat' (first
    | with_reducible assumption | intro _ | exact bits_sub (by decide) hm
    | (extract_lets +onlyGivenNames x; refine keep_cut (p := P x) ?_ (fun kx => ?_); rotate_left; clear_value x; rotate_right; unfold x; clear x)
    | (extract_lets +onlyGivenNames x; unfold x; clear x)
    | (extract_lets +onlyGivenNames x; clear x)
    | with_reducible apply keep_modChan h | with_reducible apply keep_count h | with_reducible apply keep_ite | split
    | dsimp only | assumption | rfl)

theorem keep_pageErr (hm : 1 ||| m = m) {b : Block} (hb : P b) (base : Nat) (i : Nat) (addr : Nat) (info : Nat) : P
    (pageErr b base i addr info) := by
  unfold pageErr
  repeat' (first
    | with_reducible assumption | intro _ | exact bits_sub (by decide) hm
    | (extract_lets +onlyGivenNames x; refine keep_cut (p := P x) ?_ (fun kx => ?_); rotate_left; clear_value x; rotate_right; unfold x; clear x)
    | (extract_lets +onlyGivenNames x; unfold x; clear x)
    | (extract_lets +onlyGivenNames x; clear x)
    | with_reducible apply keep_rset h | with_reducible apply keep_ite | split | dsimp only | assumption | rfl)

theorem keep_modRef (hm : 2097152 ||| m = m) {b : Block} (hb : P b) (f : Referee → Referee)
    (hf : ∀ r, r.dead = true → (f r).dead = true) : P (modRef b f) := upd_ref h hb hm _ (hf _)

theorem keep_signalEv (hm : 2097152 ||| m = m) {b : Block} (hb : P b) (src : Nat) (kind : Nat) (unit : Nat) (addr :
    Nat) (detail : Nat) : P (signalEv b src kind unit addr detail) := by
  unfold signalEv
  repeat' (first
    | with_reducible assumption | intro _ | exact bits_sub (by decide) hm | with_reducible apply keep_modRef h
    | with_reducible apply keep_ite | split | dsimp only | assumption | rfl)

theorem keep_memErr (hm : 2097153 ||| m = m) {b : Block} (hb : P b) (src : Nat) (kind : Nat) (unit : Nat) (base : Nat)
    (addr : Nat) (info : Nat) (cause : Nat) : P (memErr b src kind unit base addr info cause) := by
  unfold memErr
  repeat' (first
    | with_reducible assumption | intro _ | exact bits_sub (by decide) hm | with_reducible apply keep_signalEv h
    | with_reducible apply keep_pageErr h | with_reducible apply keep_ite | split | dsimp only | assumption | rfl)

theorem keep_accessRec (hm : 2097153 ||| m = m) {b : Block} (hb : P b) (n : Nat) (k : Nat) (write : Bool) (addr : Nat)
    (cause : Nat) (quiet : Bool) : P (accessRec b n k write addr cause quiet) := by
  unfold accessRec
  repeat' (first
    | with_reducible assumption | intro _ | exact bits_sub (by decide) hm
    | (extract_lets +onlyGivenNames x; refine keep_cut (p := P x) ?_ (fun kx => ?_); rotate_left; clear_value x; rotate_right; unfold x; clear x)
    | (extract_lets +onlyGivenNames x; unfold x; clear x)
    | (extract_lets +onlyGivenNames x; clear x)
    | with_reducible apply keep_pageErr h | with_reducible apply keep_memErr h | with_reducible apply keep_ite | split
    | dsimp only | assumption | rfl)

theorem keep_setStrand (hm : 8 ||| m = m) {b : Block} (hb : P b) (n : Nat) (k : Nat) (x0 : Strand) : P (setStrand b n
    k x0) := by
  unfold setStrand
  repeat' (first
    | with_reducible assumption | intro _ | exact bits_sub (by decide) hm | with_reducible apply keep_ite | split
    | with_reducible apply upd_strands h | dsimp only | assumption | rfl)

theorem keep_modStrand (hm : 8 ||| m = m) {b : Block} (hb : P b) (n : Nat) (k : Nat) (f : Strand → Strand) : P
    (modStrand b n k f) := by
  unfold modStrand
  repeat' (first
    | with_reducible assumption | intro _ | exact bits_sub (by decide) hm | with_reducible apply keep_setStrand h
    | with_reducible apply keep_ite | split | dsimp only | assumption | rfl)

theorem keep_setStn (hm : 16 ||| m = m) {b : Block} (hb : P b) (n : Nat) (x0 : Station) : P (setStn b n x0) := by
  unfold setStn
  repeat' (first
    | with_reducible assumption | intro _ | exact bits_sub (by decide) hm | with_reducible apply keep_ite | split
    | with_reducible apply upd_stations h | dsimp only | assumption | rfl)

theorem keep_modStn (hm : 16 ||| m = m) {b : Block} (hb : P b) (n : Nat) (f : Station → Station) : P (modStn b n f) :=
    by
  unfold modStn
  repeat' (first
    | with_reducible assumption | intro _ | exact bits_sub (by decide) hm | with_reducible apply keep_setStn h
    | with_reducible apply keep_ite | split | dsimp only | assumption | rfl)

theorem keep_dropStream (hm : 16 ||| m = m) {b : Block} (hb : P b) (n : Nat) : P (dropStream b n) := by
  unfold dropStream
  repeat' (first
    | with_reducible assumption | intro _ | exact bits_sub (by decide) hm | with_reducible apply keep_modStn h
    | with_reducible apply keep_ite | split | dsimp only | assumption | rfl)

theorem keep_detachReq (hm : 384 ||| m = m) {b : Block} (hb : P b) (gone : Requester → Bool) : P (detachReq b gone) :=
    by
  unfold detachReq
  repeat' (first
    | with_reducible assumption | intro _ | exact bits_sub (by decide) hm
    | (extract_lets +onlyGivenNames x; refine keep_cut (p := P x) ?_ (fun kx => ?_); rotate_left; clear_value x; rotate_right; unfold x; clear x)
    | (extract_lets +onlyGivenNames x; unfold x; clear x)
    | (extract_lets +onlyGivenNames x; clear x)
    | with_reducible apply keep_ite | split | with_reducible apply upd_walks_parts h | dsimp only | assumption | rfl)

theorem keep_dropOp (hm : 408 ||| m = m) {b : Block} (hb : P b) (n : Nat) (k : Nat) (id : Nat) : P (dropOp b n k id)
    := by
  unfold dropOp
  repeat' (first
    | with_reducible assumption | intro _ | exact bits_sub (by decide) hm
    | (extract_lets +onlyGivenNames x; refine keep_cut (p := P x) ?_ (fun kx => ?_); rotate_left; clear_value x; rotate_right; unfold x; clear x)
    | (extract_lets +onlyGivenNames x; unfold x; clear x)
    | (extract_lets +onlyGivenNames x; clear x)
    | with_reducible apply keep_modStrand h | with_reducible apply keep_detachReq h
    | with_reducible apply keep_modStn h | with_reducible apply keep_ite | split | dsimp only | assumption | rfl)

theorem keep_dropGuarded (hm : 408 ||| m = m) {b : Block} (hb : P b) (n : Nat) (k : Nat) : P (dropGuarded b n k) := by
  unfold dropGuarded
  repeat' (first
    | with_reducible assumption | intro _ | exact bits_sub (by decide) hm
    | (extract_lets +onlyGivenNames x; refine keep_cut (p := P x) ?_ (fun kx => ?_); rotate_left; clear_value x; rotate_right; unfold x; clear x)
    | (extract_lets +onlyGivenNames x; unfold x; clear x)
    | (extract_lets +onlyGivenNames x; clear x)
    | (with_reducible refine keep_forEach _ _ ?_ ?_) | with_reducible apply keep_setStrand h
    | with_reducible apply keep_dropOp h | with_reducible apply keep_ite | split | dsimp only | assumption | rfl)

theorem keep_modMgmt (hm : 8388608 ||| m = m) {b : Block} (hb : P b) (f : Mgmt → Mgmt) : P (modMgmt b f) := by
  unfold modMgmt
  repeat' (first
    | with_reducible assumption | intro _ | exact bits_sub (by decide) hm | with_reducible apply keep_ite | split
    | with_reducible apply upd_mgmt h | dsimp only | assumption | rfl)

theorem keep_irqPend (hm : 32768 ||| m = m) {b : Block} (hb : P b) (vec : Nat) : P (irqPend b vec) := by
  unfold irqPend
  repeat' (first
    | with_reducible assumption | intro _ | exact bits_sub (by decide) hm | with_reducible apply keep_ite | split
    | with_reducible apply upd_irqs h | dsimp only | assumption | rfl)

theorem keep_irqAfter (hm : 32768 ||| m = m) {b : Block} (hb : P b) (old : Block) (vec : Nat) : P (irqAfter old b vec)
    := by
  unfold irqAfter
  split
  · exact keep_irqPend h (bits_sub (by decide) hm) hb vec
  · exact hb

theorem keep_setCause (hm : 32769 ||| m = m) {b : Block} (hb : P b) (vec : Nat) (m0 : Nat) : P (setCause b vec m0) :=
    by
  unfold setCause
  repeat' (first
    | with_reducible assumption | intro _ | exact bits_sub (by decide) hm | with_reducible apply keep_irqAfter h
    | with_reducible apply keep_rsetBits h | with_reducible apply keep_ite | split | dsimp only | assumption | rfl)

theorem keep_enterM2h (hm : 8421377 ||| m = m) {b : Block} (hb : P b) (m0 : Msg) : P (enterM2h b m0) := by
  unfold enterM2h
  repeat' (first
    | with_reducible assumption | intro _ | exact bits_sub (by decide) hm
    | (extract_lets +onlyGivenNames x; refine keep_cut (p := P x) ?_ (fun kx => ?_); rotate_left; clear_value x; rotate_right; unfold x; clear x)
    | (extract_lets +onlyGivenNames x; unfold x; clear x)
    | (extract_lets +onlyGivenNames x; clear x)
    | with_reducible apply keep_modMgmt h | with_reducible apply keep_setCause h | with_reducible apply keep_ite
    | split | dsimp only | assumption | rfl)

theorem keep_ackM2h (hm : 8421377 ||| m = m) {b : Block} (hb : P b) : P (ackM2h b) := by
  unfold ackM2h
  repeat' (first
    | with_reducible assumption | intro _ | exact bits_sub (by decide) hm
    | (extract_lets +onlyGivenNames x; refine keep_cut (p := P x) ?_ (fun kx => ?_); rotate_left; clear_value x; rotate_right; unfold x; clear x)
    | (extract_lets +onlyGivenNames x; unfold x; clear x)
    | (extract_lets +onlyGivenNames x; clear x)
    | with_reducible apply keep_modMgmt h | with_reducible apply keep_enterM2h h | with_reducible apply keep_ite
    | split | dsimp only | assumption | rfl)

theorem keep_acqDone (hm : 8 ||| m = m) {b : Block} (hb : P b) (n : Nat) (k : Nat) : P (acqDone b n k) := by
  unfold acqDone
  repeat' (first
    | with_reducible assumption | intro _ | exact bits_sub (by decide) hm
    | (extract_lets +onlyGivenNames x; refine keep_cut (p := P x) ?_ (fun kx => ?_); rotate_left; clear_value x; rotate_right; unfold x; clear x)
    | (extract_lets +onlyGivenNames x; unfold x; clear x)
    | (extract_lets +onlyGivenNames x; clear x)
    | with_reducible apply keep_modStrand h | with_reducible apply keep_ite | split | dsimp only | assumption | rfl)

theorem keep_reqBarrier (hm : 16 ||| m = m) {b : Block} (hb : P b) (n : Nat) (t : Nat) (sc : Scope) : P (reqBarrier b
    n t sc) := by
  unfold reqBarrier
  repeat' (first
    | with_reducible assumption | intro _ | exact bits_sub (by decide) hm | with_reducible apply keep_modStn h
    | with_reducible apply keep_ite | split | dsimp only | assumption | rfl)

theorem keep_acquire (hm : 16777233 ||| m = m) {b : Block} (hb : P b) (t : Nat) (m0 : Option Nat) (declared : Scope) :
    P (acquire b t m0 declared).2 := by
  unfold acquire
  repeat' (first
    | with_reducible assumption | intro _ | exact bits_sub (by decide) hm
    | (extract_lets +onlyGivenNames x; refine keep_cut (p := P x) ?_ (fun kx => ?_); rotate_left; clear_value x; rotate_right; unfold x; clear x)
    | (extract_lets +onlyGivenNames x; unfold x; clear x)
    | (extract_lets +onlyGivenNames x; clear x)
    | (with_reducible refine keep_forEach _ _ ?_ ?_) | with_reducible apply keep_count h
    | with_reducible apply keep_reqBarrier h | with_reducible apply keep_ite | split | dsimp only | assumption | rfl)

theorem keep_acquire_eq (hm : 16777233 ||| m = m) {b : Block} (hb : P b) {t : Nat} {m0 : Option Nat} {declared :
    Scope} {y : Acq} {b' : Block} (e : acquire b t m0 declared = (y, b')) : P b' := by
  have := keep_acquire h hm hb t m0 declared
  rwa [e] at this

theorem keep_countCh (hm : 16777217 ||| m = m) {b : Block} (hb : P b) (n : Nat) (c : Nat) (ev : Nat) (amt : Nat) : P
    (countCh b n c ev amt) := by
  unfold countCh
  repeat' (first
    | with_reducible assumption | intro _ | exact bits_sub (by decide) hm | with_reducible apply keep_count h
    | with_reducible apply keep_ite | split | dsimp only | assumption | rfl)

theorem keep_hubPost (hm : 24576 ||| m = m) {b : Block} (hb : P b) (w : HubWrite) : P (hubPost b w) := by
  unfold hubPost
  repeat' (first
    | with_reducible assumption | intro _ | exact bits_sub (by decide) hm | with_reducible apply keep_ite | split
    | with_reducible apply upd_hubWr h | with_reducible apply upd_hubQ h | dsimp only | assumption | rfl)

theorem keep_stopChan (hm : 32773 ||| m = m) {b : Block} (hb : P b) (n : Nat) (c : Nat) (code : Nat) (idx : Option
    Sys2Proof.Word) : P (stopChan b n c code idx) := by
  unfold stopChan
  repeat' (first
    | with_reducible assumption | intro _ | exact bits_sub (by decide) hm
    | (extract_lets +onlyGivenNames x; refine keep_cut (p := P x) ?_ (fun kx => ?_); rotate_left; clear_value x; rotate_right; unfold x; clear x)
    | (extract_lets +onlyGivenNames x; unfold x; clear x)
    | (extract_lets +onlyGivenNames x; clear x)
    | with_reducible apply keep_setChan h | with_reducible apply keep_setCause h | with_reducible apply keep_ite
    | split | dsimp only | assumption | rfl)

theorem keep_beginCompl (hm : 16834565 ||| m = m) {b : Block} (hb : P b) (n : Nat) (c : Nat) (x0 : Compl) : P
    (beginCompl b n c x0) := by
  unfold beginCompl
  repeat' (first
    | with_reducible assumption | intro _ | exact bits_sub (by decide) hm
    | (extract_lets +onlyGivenNames x; refine keep_cut (p := P x) ?_ (fun kx => ?_); rotate_left; clear_value x; rotate_right; unfold x; clear x)
    | (extract_lets +onlyGivenNames x; unfold x; clear x)
    | (extract_lets +onlyGivenNames x; clear x)
    | with_reducible apply keep_modChan h | with_reducible apply keep_stopChan h | with_reducible apply keep_count h
    | with_reducible apply keep_hubPost h | with_reducible apply keep_ite | split | dsimp only | assumption | rfl)

theorem keep_chSettle (hm : 4 ||| m = m) {b : Block} (hb : P b) (n : Nat) (c : Nat) : P (chSettle b n c) := by
  unfold chSettle
  repeat' (first
    | with_reducible assumption | intro _ | exact bits_sub (by decide) hm
    | (extract_lets +onlyGivenNames x; refine keep_cut (p := P x) ?_ (fun kx => ?_); rotate_left; clear_value x; rotate_right; unfold x; clear x)
    | (extract_lets +onlyGivenNames x; unfold x; clear x)
    | (extract_lets +onlyGivenNames x; clear x)
    | with_reducible apply keep_setChan h | with_reducible apply keep_ite | split | dsimp only | assumption | rfl)

theorem keep_failAccept (hm : 16834565 ||| m = m) {b : Block} (hb : P b) (n : Nat) (c : Nat) (e0 : Entry) (code : Nat)
    : P (failAccept b n c e0 code) := by
  unfold failAccept
  repeat' (first
    | with_reducible assumption | intro _ | exact bits_sub (by decide) hm
    | (extract_lets +onlyGivenNames x; refine keep_cut (p := P x) ?_ (fun kx => ?_); rotate_left; clear_value x; rotate_right; unfold x; clear x)
    | (extract_lets +onlyGivenNames x; unfold x; clear x)
    | (extract_lets +onlyGivenNames x; clear x)
    | with_reducible apply keep_modChan h | with_reducible apply keep_beginCompl h | with_reducible apply keep_ite
    | split | dsimp only | assumption | rfl)

theorem keep_rcount (hm : 1 ||| m = m) {b : Block} (hb : P b) (a : Nat) (d : Nat) : P (rcount b a d) := by
  unfold rcount
  repeat' (first
    | with_reducible assumption | intro _ | exact bits_sub (by decide) hm | with_reducible apply keep_rset h
    | with_reducible apply keep_ite | split | dsimp only | assumption | rfl)

theorem keep_setSrc (hm : 2097152 ||| m = m) {b : Block} (hb : P b) (s : Nat) (x0 : Src) : P (setSrc b s x0) := by
  unfold setSrc
  repeat' (first
    | with_reducible assumption | intro _ | exact bits_sub (by decide) hm
    | (extract_lets +onlyGivenNames x; refine keep_cut (p := P x) ?_ (fun kx => ?_); rotate_left; clear_value x; rotate_right; unfold x; clear x)
    | (extract_lets +onlyGivenNames x; unfold x; clear x)
    | (extract_lets +onlyGivenNames x; clear x)
    | with_reducible apply keep_ite | split | with_reducible apply upd_ref h | dsimp only | assumption | rfl)

theorem keep_holdRec (hm : 2129921 ||| m = m) {b : Block} (hb : P b) (r : Rec) : P (holdRec b r) := by
  unfold holdRec
  repeat' (first
    | with_reducible assumption | intro _ | exact bits_sub (by decide) hm
    | (extract_lets +onlyGivenNames x; refine keep_cut (p := P x) ?_ (fun kx => ?_); rotate_left; clear_value x; rotate_right; unfold x; clear x)
    | (extract_lets +onlyGivenNames x; unfold x; clear x)
    | (extract_lets +onlyGivenNames x; clear x)
    | with_reducible apply keep_setSrc h | with_reducible apply keep_rcount h | with_reducible apply keep_rsetBits h
    | with_reducible apply keep_setCause h | with_reducible apply keep_ite | split | dsimp only | assumption | rfl)

theorem keep_dataRec (hm : 2129921 ||| m = m) {b : Block} (hb : P b) (src : Nat) (kind : Nat) (unit : Nat) (addr :
    Nat) (detail : Nat) : P (dataRec b src kind unit addr detail) := by
  unfold dataRec
  repeat' (first
    | with_reducible assumption | intro _ | exact bits_sub (by decide) hm
    | (extract_lets +onlyGivenNames x; refine keep_cut (p := P x) ?_ (fun kx => ?_); rotate_left; clear_value x; rotate_right; unfold x; clear x)
    | (extract_lets +onlyGivenNames x; unfold x; clear x)
    | (extract_lets +onlyGivenNames x; clear x)
    | with_reducible apply keep_modRef h | with_reducible apply keep_holdRec h | with_reducible apply keep_ite | split
    | dsimp only | assumption | rfl)

theorem keep_talMisuse (hm : 2129921 ||| m = m) {b : Block} (hb : P b) (src : Nat) (unit : Nat) (addr : Nat) (t : Nat)
    (u : Nat) (ext : Bool) (chan : Option Nat) : P (talMisuse b src unit addr t u ext chan) := by
  unfold talMisuse
  repeat' (first
    | with_reducible assumption | intro _ | exact bits_sub (by decide) hm
    | (extract_lets +onlyGivenNames x; refine keep_cut (p := P x) ?_ (fun kx => ?_); rotate_left; clear_value x; rotate_right; unfold x; clear x)
    | (extract_lets +onlyGivenNames x; unfold x; clear x)
    | (extract_lets +onlyGivenNames x; clear x)
    | with_reducible apply keep_rcount h | with_reducible apply keep_dataRec h | with_reducible apply keep_ite | split
    | dsimp only | assumption | rfl)

theorem keep_entryMisuse (hm : 2129921 ||| m = m) {b : Block} (hb : P b) (n : Nat) (c : Nat) (idx : Sys2Proof.Word) (t
    : Nat) : P (entryMisuse b n c idx t) := by
  unfold entryMisuse
  repeat' (first
    | with_reducible assumption | intro _ | exact bits_sub (by decide) hm | with_reducible apply keep_talMisuse h
    | with_reducible apply keep_ite | split | dsimp only | assumption | rfl)

theorem keep_pumpOne (hm : 18931717 ||| m = m) {b : Block} (hb : P b) (p : Params) (n : Nat) (c : Nat) : P (pumpOne p
    b n c) := by
  unfold pumpOne
  repeat' (first
    | with_reducible assumption | intro _ | exact bits_sub (by decide) hm
    | (extract_lets +onlyGivenNames x; refine keep_cut (p := P x) ?_ (fun kx => ?_); rotate_left; clear_value x; rotate_right; unfold x; clear x)
    | (extract_lets +onlyGivenNames x; unfold x; clear x)
    | (extract_lets +onlyGivenNames x; clear x)
    | with_reducible apply keep_setChan h | with_reducible apply keep_beginCompl h
    | with_reducible apply keep_acceptEntry h | with_reducible apply keep_failAccept h
    | with_reducible apply keep_entryMisuse h | with_reducible apply keep_ite | split | dsimp only | assumption | rfl)

theorem keep_pumpN (hm : 18931717 ||| m = m) {b : Block} (hb : P b) (p : Params) (n c k : Nat) : P (pumpN p n c k b)
    := by
  induction k generalizing b with
  | zero => exact hb | succ k ih => rw [pumpN]; exact ih (keep_pumpOne h (bits_sub (by decide) hm) hb p n c)

theorem keep_startReads (hm : 16777221 ||| m = m) {b : Block} (hb : P b) (n : Nat) (c : Nat) : P (startReads b n c) :=
    by
  unfold startReads
  repeat' (first
    | with_reducible assumption | intro _ | exact bits_sub (by decide) hm
    | (extract_lets +onlyGivenNames x; refine keep_cut (p := P x) ?_ (fun kx => ?_); rotate_left; clear_value x; rotate_right; unfold x; clear x)
    | (extract_lets +onlyGivenNames x; unfold x; clear x)
    | (extract_lets +onlyGivenNames x; clear x)
    | with_reducible apply keep_count h | with_reducible apply keep_setChan h | with_reducible apply keep_ite | split
    | dsimp only | assumption | rfl)

theorem keep_pump (hm : 18931717 ||| m = m) {b : Block} (hb : P b) (p : Params) (n : Nat) (c : Nat) : P (pump p b n c)
    := by
  unfold pump
  repeat' (first
    | with_reducible assumption | intro _ | exact bits_sub (by decide) hm | with_reducible apply keep_chSettle h
    | with_reducible apply keep_startReads h | with_reducible apply keep_pumpN h | with_reducible apply keep_ite
    | split | dsimp only | assumption | rfl)

theorem keep_chanOffside (hm : 18931717 ||| m = m) {b : Block} (hb : P b) (p : Params) (n : Nat) (c : Nat) : P
    (chanOffside p b n c) := by
  unfold chanOffside
  repeat' (first
    | with_reducible assumption | intro _ | exact bits_sub (by decide) hm
    | (extract_lets +onlyGivenNames x; refine keep_cut (p := P x) ?_ (fun kx => ?_); rotate_left; clear_value x; rotate_right; unfold x; clear x)
    | (extract_lets +onlyGivenNames x; unfold x; clear x)
    | (extract_lets +onlyGivenNames x; clear x)
    | with_reducible apply keep_pump h | with_reducible apply keep_setChan h | with_reducible apply keep_chSettle h
    | with_reducible apply keep_beginCompl h | with_reducible apply keep_ite | split | dsimp only | assumption | rfl)

theorem keep_modOp (hm : 8 ||| m = m) {b : Block} (hb : P b) (n : Nat) (k : Nat) (id : Nat) (f : Op → Op) : P (modOp b
    n k id f) := by
  unfold modOp
  repeat' (first
    | with_reducible assumption | intro _ | exact bits_sub (by decide) hm | with_reducible apply keep_modStrand h
    | with_reducible apply keep_ite | split | dsimp only | assumption | rfl)

theorem keep_beginIssue (hm : 16777225 ||| m = m) {b : Block} (hb : P b) (n : Nat) (k : Nat) (id : Nat) : P
    (beginIssue b n k id) := by
  unfold beginIssue
  repeat' (first
    | with_reducible assumption | intro _ | exact bits_sub (by decide) hm | with_reducible apply keep_countCh h
    | with_reducible apply keep_modOp h | with_reducible apply keep_ite | split | dsimp only | assumption | rfl)

theorem keep_opRemove (hm : 24 ||| m = m) {b : Block} (hb : P b) (n : Nat) (k : Nat) (id : Nat) : P (opRemove b n k
    id) := by
  unfold opRemove
  repeat' (first
    | with_reducible assumption | intro _ | exact bits_sub (by decide) hm
    | (extract_lets +onlyGivenNames x; refine keep_cut (p := P x) ?_ (fun kx => ?_); rotate_left; clear_value x; rotate_right; unfold x; clear x)
    | (extract_lets +onlyGivenNames x; unfold x; clear x)
    | (extract_lets +onlyGivenNames x; clear x)
    | with_reducible apply keep_modStrand h | with_reducible apply keep_modStn h | with_reducible apply keep_ite
    | split | dsimp only | assumption | rfl)

theorem keep_histMerge (hm : 24 ||| m = m) {b : Block} (hb : P b) (n : Nat) (k : Nat) (o : Op) : P (histMerge b n k o)
    := by
  unfold histMerge
  repeat' (first
    | with_reducible assumption | intro _ | exact bits_sub (by decide) hm
    | (extract_lets +onlyGivenNames x; refine keep_cut (p := P x) ?_ (fun kx => ?_); rotate_left; clear_value x; rotate_right; unfold x; clear x)
    | (extract_lets +onlyGivenNames x; unfold x; clear x)
    | (extract_lets +onlyGivenNames x; clear x)
    | with_reducible apply keep_modOp h | with_reducible apply keep_modStn h | with_reducible apply keep_ite | split
    | dsimp only | assumption | rfl)

theorem keep_relHaz (hm : 16 ||| m = m) {b : Block} (hb : P b) (n : Nat) : P (relHaz b n) := by
  unfold relHaz
  repeat' (first
    | with_reducible assumption | intro _ | exact bits_sub (by decide) hm
    | (extract_lets +onlyGivenNames x; refine keep_cut (p := P x) ?_ (fun kx => ?_); rotate_left; clear_value x; rotate_right; unfold x; clear x)
    | (extract_lets +onlyGivenNames x; unfold x; clear x)
    | (extract_lets +onlyGivenNames x; clear x)
    | with_reducible apply keep_setStn h | with_reducible apply keep_ite | split | dsimp only | assumption | rfl)

theorem keep_blockAsk (hm : 16777233 ||| m = m) {b : Block} (hb : P b) (n : Nat) (k : Nat) (va : Nat) (key : Nat) : P
    (blockAsk b n k va key) := by
  unfold blockAsk
  repeat' (first
    | with_reducible assumption | intro _ | exact bits_sub (by decide) hm
    | (extract_lets +onlyGivenNames x; refine keep_cut (p := P x) ?_ (fun kx => ?_); rotate_left; clear_value x; rotate_right; unfold x; clear x)
    | (extract_lets +onlyGivenNames x; unfold x; clear x)
    | (extract_lets +onlyGivenNames x; clear x)
    | with_reducible apply keep_countCh h | with_reducible apply keep_setStn h | with_reducible apply keep_ite | split
    | dsimp only | assumption | rfl)

theorem keep_descAsk (hm : 16777233 ||| m = m) {b : Block} (hb : P b) (n : Nat) (k : Nat) (va : Nat) : P (descAsk b n
    k va) := by
  unfold descAsk
  repeat' (first
    | with_reducible assumption | intro _ | exact bits_sub (by decide) hm | with_reducible apply keep_blockAsk h
    | with_reducible apply keep_ite | split | dsimp only | assumption | rfl)

theorem keep_tloadFail (hm : 16 ||| m = m) {b : Block} (hb : P b) (n : Nat) (k : Nat) (o : Op) : P (tloadFail b n k o)
    := by
  unfold tloadFail
  repeat' (first
    | with_reducible assumption | intro _ | exact bits_sub (by decide) hm | with_reducible apply keep_modStn h
    | with_reducible apply keep_ite | split | dsimp only | assumption | rfl)

theorem keep_request (hm : 24 ||| m = m) {b : Block} (hb : P b) (n : Nat) (k : Nat) (id : Nat) (foots : List Foot) (ph
    : Phase) : P (request b n k id foots ph) := by
  unfold request
  repeat' (first
    | with_reducible assumption | intro _ | exact bits_sub (by decide) hm
    | (extract_lets +onlyGivenNames x; refine keep_cut (p := P x) ?_ (fun kx => ?_); rotate_left; clear_value x; rotate_right; unfold x; clear x)
    | (extract_lets +onlyGivenNames x; unfold x; clear x)
    | (extract_lets +onlyGivenNames x; clear x)
    | with_reducible apply keep_modStn h | with_reducible apply keep_modOp h | with_reducible apply keep_ite | split
    | dsimp only | assumption | rfl)

theorem keep_newId (hm : 1073741824 ||| m = m) {b : Block} (hb : P b) : P (newId b).2 := by
  unfold newId
  repeat' (first
    | with_reducible assumption | intro _ | exact bits_sub (by decide) hm | with_reducible apply keep_ite | split
    | with_reducible apply upd_nextId h | dsimp only | assumption | rfl)

theorem keep_newId_eq (hm : 1073741824 ||| m = m) {b : Block} (hb : P b)  {y : Nat} {b' : Block} (e : newId b = (y,
    b')) : P b' := by
  have := keep_newId h hm hb
  rwa [e] at this

theorem keep_addOp (hm : 1073741832 ||| m = m) {b : Block} (hb : P b) (u : MUnit) (kind : OpKind) (phase : Phase)
    (desc : Nat) (listVa : Option Nat) (bl : Blocked) : P (addOp b u kind phase desc listVa bl) := by
  unfold addOp
  repeat' (first
    | with_reducible assumption | intro _ | exact bits_sub (by decide) hm
    | (extract_lets +onlyGivenNames x; refine keep_cut (p := P x) ?_ (fun kx => ?_); rotate_left; clear_value x; rotate_right; unfold x; clear x)
    | (extract_lets +onlyGivenNames x; unfold x; clear x)
    | (extract_lets +onlyGivenNames x; clear x)
    | with_reducible apply keep_newId h | (with_reducible refine keep_newId_eq h ?_ ?_ (by assumption))
    | with_reducible apply keep_modStrand h | with_reducible apply keep_ite | split | dsimp only | assumption | rfl)

theorem keep_setTal (hm : 32 ||| m = m) {b : Block} (hb : P b) (t : Nat) (x0 : Tally) : P (setTal b t x0) := by
  unfold setTal
  repeat' (first
    | with_reducible assumption | intro _ | exact bits_sub (by decide) hm | with_reducible apply keep_ite | split
    | with_reducible apply upd_tallies h | dsimp only | assumption | rfl)

theorem keep_modTal (hm : 32 ||| m = m) {b : Block} (hb : P b) (t : Nat) (f : Tally → Tally) : P (modTal b t f) := by
  unfold modTal
  repeat' (first
    | with_reducible assumption | intro _ | exact bits_sub (by decide) hm | with_reducible apply keep_setTal h
    | with_reducible apply keep_ite | split | dsimp only | assumption | rfl)

theorem keep_addRel (hm : 1073741872 ||| m = m) {b : Block} (hb : P b) (t : Nat) (a : Add) : P (addRel b t a) := by
  unfold addRel
  repeat' (first
    | with_reducible assumption | intro _ | exact bits_sub (by decide) hm
    | (extract_lets +onlyGivenNames x; refine keep_cut (p := P x) ?_ (fun kx => ?_); rotate_left; clear_value x; rotate_right; unfold x; clear x)
    | (extract_lets +onlyGivenNames x; unfold x; clear x)
    | (extract_lets +onlyGivenNames x; clear x)
    | with_reducible apply keep_newId h | (with_reducible refine keep_newId_eq h ?_ ?_ (by assumption))
    | with_reducible apply keep_modTal h | with_reducible apply keep_reqBarrier h | with_reducible apply keep_ite
    | split | dsimp only | assumption | rfl)

theorem keep_reqThaw (hm : 16777233 ||| m = m) {b : Block} (hb : P b) (n : Nat) : P (reqThaw b n) := by
  unfold reqThaw
  repeat' (first
    | with_reducible assumption | intro _ | exact bits_sub (by decide) hm
    | (extract_lets +onlyGivenNames x; refine keep_cut (p := P x) ?_ (fun kx => ?_); rotate_left; clear_value x; rotate_right; unfold x; clear x)
    | (extract_lets +onlyGivenNames x; unfold x; clear x)
    | (extract_lets +onlyGivenNames x; clear x)
    | with_reducible apply keep_count h | with_reducible apply keep_setStn h | with_reducible apply keep_ite | split
    | dsimp only | assumption | rfl)

theorem keep_setGop (hm : 131072 ||| m = m) {b : Block} (hb : P b) (s : Nat) (x0 : Gop) : P (setGop b s x0) := by
  unfold setGop
  repeat' (first
    | with_reducible assumption | intro _ | exact bits_sub (by decide) hm | with_reducible apply keep_ite | split
    | with_reducible apply upd_gops h | dsimp only | assumption | rfl)

theorem keep_modGop (hm : 131072 ||| m = m) {b : Block} (hb : P b) (s : Nat) (f : Gop → Gop) : P (modGop b s f) := by
  unfold modGop
  repeat' (first
    | with_reducible assumption | intro _ | exact bits_sub (by decide) hm | with_reducible apply keep_setGop h
    | with_reducible apply keep_ite | split | dsimp only | assumption | rfl)

theorem keep_startAcq (hm : 131080 ||| m = m) {b : Block} (hb : P b) (w : Waiter) (a : Acq) : P (startAcq b w a) := by
  unfold startAcq
  repeat' (first
    | with_reducible assumption | intro _ | exact bits_sub (by decide) hm | with_reducible apply keep_modStrand h
    | with_reducible apply keep_modGop h | with_reducible apply keep_ite | split | dsimp only | assumption | rfl)

theorem keep_releaseWaiter (hm : 16908313 ||| m = m) {b : Block} (hb : P b) (t : Nat) (w : Waiter) : P (releaseWaiter
    b t w) := by
  unfold releaseWaiter
  repeat' (first
    | with_reducible assumption | intro _ | exact bits_sub (by decide) hm
    | (extract_lets +onlyGivenNames x; refine keep_cut (p := P x) ?_ (fun kx => ?_); rotate_left; clear_value x; rotate_right; unfold x; clear x)
    | (extract_lets +onlyGivenNames x; unfold x; clear x)
    | (extract_lets +onlyGivenNames x; clear x)
    | with_reducible apply keep_acquire h | (with_reducible refine keep_acquire_eq h ?_ ?_ (by assumption))
    | with_reducible apply keep_startAcq h | with_reducible apply keep_count h | with_reducible apply keep_reqThaw h
    | with_reducible apply keep_ite | split | dsimp only | assumption | rfl)

theorem keep_testWaiters (hm : 16908345 ||| m = m) {b : Block} (hb : P b) (t : Nat) : P (testWaiters b t) := by
  unfold testWaiters
  repeat' (first
    | with_reducible assumption | intro _ | exact bits_sub (by decide) hm
    | (extract_lets +onlyGivenNames x; refine keep_cut (p := P x) ?_ (fun kx => ?_); rotate_left; clear_value x; rotate_right; unfold x; clear x)
    | (extract_lets +onlyGivenNames x; unfold x; clear x)
    | (extract_lets +onlyGivenNames x; clear x)
    | (with_reducible refine keep_forEach _ _ ?_ ?_) | with_reducible apply keep_setTal h
    | with_reducible apply keep_releaseWaiter h | with_reducible apply keep_ite | split | dsimp only | assumption
    | rfl)

theorem keep_addWaiter (hm : 16908345 ||| m = m) {b : Block} (hb : P b) (t : Nat) (w : Waiter) : P (addWaiter b t w)
    := by
  unfold addWaiter
  repeat' (first
    | with_reducible assumption | intro _ | exact bits_sub (by decide) hm | with_reducible apply keep_testWaiters h
    | with_reducible apply keep_modTal h | with_reducible apply keep_ite | split | dsimp only | assumption | rfl)

theorem keep_setPart (hm : 256 ||| m = m) {b : Block} (hb : P b) (p : Nat) (x0 : Part) : P (setPart b p x0) := by
  unfold setPart
  repeat' (first
    | with_reducible assumption | intro _ | exact bits_sub (by decide) hm | with_reducible apply keep_ite | split
    | with_reducible apply upd_parts h | dsimp only | assumption | rfl)

theorem keep_batchClose (hm : 16777473 ||| m = m) {b : Block} (hb : P b) (q : Nat) : P (batchClose b q) := by
  unfold batchClose
  repeat' (first
    | with_reducible assumption | intro _ | exact bits_sub (by decide) hm
    | (extract_lets +onlyGivenNames x; refine keep_cut (p := P x) ?_ (fun kx => ?_); rotate_left; clear_value x; rotate_right; unfold x; clear x)
    | (extract_lets +onlyGivenNames x; unfold x; clear x)
    | (extract_lets +onlyGivenNames x; clear x)
    | with_reducible apply keep_setPart h | with_reducible apply keep_count h | with_reducible apply keep_ite | split
    | dsimp only | assumption | rfl)

theorem keep_batchFull (hm : 16777473 ||| m = m) {b : Block} (hb : P b) (q : Nat) : P (batchFull b q) := by
  unfold batchFull
  repeat' (first
    | with_reducible assumption | intro _ | exact bits_sub (by decide) hm | with_reducible apply keep_batchClose h
    | with_reducible apply keep_ite | split | dsimp only | assumption | rfl)

theorem keep_admitOne (hm : 16777473 ||| m = m) {b : Block} (hb : P b) (q : Nat) : P (admitOne q b) := by
  unfold admitOne
  repeat' (first
    | with_reducible assumption | intro _ | exact bits_sub (by decide) hm
    | (extract_lets +onlyGivenNames x; refine keep_cut (p := P x) ?_ (fun kx => ?_); rotate_left; clear_value x; rotate_right; unfold x; clear x)
    | (extract_lets +onlyGivenNames x; unfold x; clear x)
    | (extract_lets +onlyGivenNames x; clear x)
    | with_reducible apply keep_batchFull h | with_reducible apply keep_setPart h | with_reducible apply keep_ite
    | split | dsimp only | assumption | rfl)

theorem keep_admitN (hm : 16777473 ||| m = m) {b : Block} (hb : P b) (q k : Nat) : P (admitN q k b) := by
  induction k generalizing b with
  | zero => exact hb | succ k ih =>
    have e : admitN q (k + 1) b = admitN q k (admitOne q b) := by conv => lhs; unfold admitN
    rw [e]
    exact ih (keep_admitOne h (bits_sub (by decide) hm) hb q)

theorem keep_afterGuards (hm : 8 ||| m = m) {b : Block} (hb : P b) (n : Nat) (k : Nat) (o : Op) : P (afterGuards b n k
    o) := by
  unfold afterGuards
  repeat' (first
    | with_reducible assumption | intro _ | exact bits_sub (by decide) hm
    | (extract_lets +onlyGivenNames x; refine keep_cut (p := P x) ?_ (fun kx => ?_); rotate_left; clear_value x; rotate_right; unfold x; clear x)
    | (extract_lets +onlyGivenNames x; unfold x; clear x)
    | (extract_lets +onlyGivenNames x; clear x)
    | with_reducible apply keep_modOp h | with_reducible apply keep_modStrand h | with_reducible apply keep_ite
    | split | dsimp only | assumption | rfl)

theorem keep_armGuard (hm : 16908345 ||| m = m) {b : Block} (hb : P b) (n : Nat) (k : Nat) (kind : WKind) (g : Option
    (Nat × Nat)) : P (armGuard b n k kind g) := by
  unfold armGuard
  repeat' (first
    | with_reducible assumption | intro _ | exact bits_sub (by decide) hm
    | (extract_lets +onlyGivenNames x; refine keep_cut (p := P x) ?_ (fun kx => ?_); rotate_left; clear_value x; rotate_right; unfold x; clear x)
    | (extract_lets +onlyGivenNames x; unfold x; clear x)
    | (extract_lets +onlyGivenNames x; clear x)
    | with_reducible apply keep_modStrand h | with_reducible apply keep_addWaiter h | with_reducible apply keep_ite
    | split | dsimp only | assumption | rfl)

theorem keep_setAge (hm : 24 ||| m = m) {b : Block} (hb : P b) (n : Nat) (k : Nat) (write : Bool) (v : Nat) : P
    (setAge b n k write v) := by
  unfold setAge
  repeat' (first
    | with_reducible assumption | intro _ | exact bits_sub (by decide) hm | with_reducible apply keep_modStn h
    | with_reducible apply keep_modStrand h | with_reducible apply keep_ite | split | dsimp only | assumption | rfl)

theorem keep_ageAll (hm : 24 ||| m = m) {b : Block} (hb : P b) (n : Nat) (write : Bool) (l : List Cand) (won : Option
    Nat) : P (ageAll b n write l won) := by
  unfold ageAll
  repeat' (first
    | with_reducible assumption | intro _ | exact bits_sub (by decide) hm
    | (with_reducible refine keep_forEach _ _ ?_ ?_) | with_reducible apply keep_setAge h
    | with_reducible apply keep_ite | split | dsimp only | assumption | rfl)

theorem keep_ageTags (hm : 8 ||| m = m) {b : Block} (hb : P b) (n : Nat) (l : List (Nat × Strand × Op × Burst)) : P
    (ageTags b n l) := by
  unfold ageTags
  repeat' (first
    | with_reducible assumption | intro _ | exact bits_sub (by decide) hm
    | (with_reducible refine keep_forEach _ _ ?_ ?_) | with_reducible apply keep_modStrand h
    | with_reducible apply keep_ite | split | dsimp only | assumption | rfl)

theorem keep_postMsg (hm : 8421377 ||| m = m) {b : Block} (hb : P b) (m0 : Msg) : P (postMsg b m0) := by
  unfold postMsg
  repeat' (first
    | with_reducible assumption | intro _ | exact bits_sub (by decide) hm | with_reducible apply keep_modMgmt h
    | with_reducible apply keep_enterM2h h | with_reducible apply keep_ite | split | dsimp only | assumption | rfl)

theorem keep_alertOf (hm : 8421377 ||| m = m) {b : Block} (hb : P b) (seq : Nat) : P (alertOf b seq) := by
  unfold alertOf
  repeat' (first
    | with_reducible assumption | intro _ | exact bits_sub (by decide) hm | with_reducible apply keep_modMgmt h
    | with_reducible apply keep_postMsg h | with_reducible apply keep_ite | split | dsimp only | assumption | rfl)

theorem keep_discardRsp (hm : 2097153 ||| m = m) {b : Block} (hb : P b) (n : Nat) : P (discardRsp b n) := by
  unfold discardRsp
  repeat' (first
    | with_reducible assumption | intro _ | exact bits_sub (by decide) hm
    | (extract_lets +onlyGivenNames x; refine keep_cut (p := P x) ?_ (fun kx => ?_); rotate_left; clear_value x; rotate_right; unfold x; clear x)
    | (extract_lets +onlyGivenNames x; unfold x; clear x)
    | (extract_lets +onlyGivenNames x; clear x)
    | with_reducible apply keep_rcount h | with_reducible apply keep_signalEv h | with_reducible apply keep_ite
    | split | dsimp only | assumption | rfl)

theorem keep_dropPkt (hm : 1 ||| m = m) {b : Block} (hb : P b) : P (dropPkt b) := by
  unfold dropPkt
  repeat' (first
    | with_reducible assumption | intro _ | exact bits_sub (by decide) hm | with_reducible apply keep_rcount h
    | with_reducible apply keep_ite | split | dsimp only | assumption | rfl)

theorem keep_listDone (hm : 8 ||| m = m) {b : Block} (hb : P b) (n : Nat) (k : Nat) (o : Op) (a : Nat) (data :
    Sys2Proof.Line) : P (listDone b n k o a data) := by
  unfold listDone
  repeat' (first
    | with_reducible assumption | intro _ | exact bits_sub (by decide) hm
    | (extract_lets +onlyGivenNames x; refine keep_cut (p := P x) ?_ (fun kx => ?_); rotate_left; clear_value x; rotate_right; unfold x; clear x)
    | (extract_lets +onlyGivenNames x; unfold x; clear x)
    | (extract_lets +onlyGivenNames x; clear x)
    | with_reducible apply keep_modStrand h | with_reducible apply keep_modOp h | with_reducible apply keep_ite
    | split | dsimp only | assumption | rfl)

theorem keep_setxDone (hm : 24 ||| m = m) {b : Block} (hb : P b) (n : Nat) (k : Nat) (o : Op) (v : Nat) : P (setxDone
    b n k o v) := by
  unfold setxDone
  repeat' (first
    | with_reducible assumption | intro _ | exact bits_sub (by decide) hm
    | (extract_lets +onlyGivenNames x; refine keep_cut (p := P x) ?_ (fun kx => ?_); rotate_left; clear_value x; rotate_right; unfold x; clear x)
    | (extract_lets +onlyGivenNames x; unfold x; clear x)
    | (extract_lets +onlyGivenNames x; clear x)
    | with_reducible apply keep_modStrand h | with_reducible apply keep_opRemove h | with_reducible apply keep_ite
    | split | dsimp only | assumption | rfl)

theorem keep_drained (hm : 256 ||| m = m) {b : Block} (hb : P b) (n : Nat) (key : Nat) : P (drained b n key) := by
  unfold drained
  repeat' (first
    | with_reducible assumption | intro _ | exact bits_sub (by decide) hm
    | (extract_lets +onlyGivenNames x; refine keep_cut (p := P x) ?_ (fun kx => ?_); rotate_left; clear_value x; rotate_right; unfold x; clear x)
    | (extract_lets +onlyGivenNames x; unfold x; clear x)
    | (extract_lets +onlyGivenNames x; clear x)
    | with_reducible apply keep_ite | split | with_reducible apply upd_parts h | dsimp only | assumption | rfl)

theorem keep_pushAdd (hm : 64 ||| m = m) {b : Block} (hb : P b) (a : Add) : P (pushAdd b a) := by
  unfold pushAdd
  repeat' (first
    | with_reducible assumption | intro _ | exact bits_sub (by decide) hm | with_reducible apply keep_ite | split
    | with_reducible apply upd_adds h | dsimp only | assumption | rfl)

theorem keep_setPort (hm : 65536 ||| m = m) {b : Block} (hb : P b) (p : Nat) (x0 : Port) : P (setPort b p x0) := by
  unfold setPort
  repeat' (first
    | with_reducible assumption | intro _ | exact bits_sub (by decide) hm | with_reducible apply keep_ite | split
    | with_reducible apply upd_ports h | dsimp only | assumption | rfl)

theorem keep_modPort (hm : 65536 ||| m = m) {b : Block} (hb : P b) (p : Nat) (f : Port → Port) : P (modPort b p f) :=
    by
  unfold modPort
  repeat' (first
    | with_reducible assumption | intro _ | exact bits_sub (by decide) hm | with_reducible apply keep_setPort h
    | with_reducible apply keep_ite | split | dsimp only | assumption | rfl)

theorem keep_termLocal (hm : 65536 ||| m = m) {b : Block} (hb : P b) (k : Sys2Proof.Packet) : P (termLocal b k) := by
  unfold termLocal
  repeat' (first
    | with_reducible assumption | intro _ | exact bits_sub (by decide) hm | with_reducible apply keep_modPort h
    | with_reducible apply keep_ite | split | dsimp only | assumption | rfl)

theorem keep_sendRsp (hm : 65537 ||| m = m) {b : Block} (hb : P b) (src : Nat) (vcIn : Nat) (k : Sys2Proof.Packet) : P
    (sendRsp b src vcIn k) := by
  unfold sendRsp
  repeat' (first
    | with_reducible assumption | intro _ | exact bits_sub (by decide) hm | with_reducible apply keep_termLocal h
    | with_reducible apply keep_modPort h | with_reducible apply keep_dropPkt h | with_reducible apply keep_ite
    | split | dsimp only | assumption | rfl)

theorem keep_arrivalAdd (hm : 2195521 ||| m = m) {b : Block} (hb : P b) (p : Params) (port : Nat) (k :
    Sys2Proof.Packet) (l : Nat) : P (arrivalAdd p b port k l) := by
  unfold arrivalAdd
  repeat' (first
    | with_reducible assumption | intro _ | exact bits_sub (by decide) hm
    | (extract_lets +onlyGivenNames x; refine keep_cut (p := P x) ?_ (fun kx => ?_); rotate_left; clear_value x; rotate_right; unfold x; clear x)
    | (extract_lets +onlyGivenNames x; unfold x; clear x)
    | (extract_lets +onlyGivenNames x; clear x)
    | with_reducible apply keep_sendRsp h | with_reducible apply keep_pushAdd h
    | with_reducible apply keep_talMisuse h | with_reducible apply keep_ite | split | dsimp only | assumption | rfl)

theorem keep_linkAccessErr (hm : 2097153 ||| m = m) {b : Block} (hb : P b) (port : Nat) (k : Sys2Proof.Packet) (write
    : Bool) (addr : Nat) (cause : Nat) : P (linkAccessErr b port k write addr cause) := by
  unfold linkAccessErr
  repeat' (first
    | with_reducible assumption | intro _ | exact bits_sub (by decide) hm | with_reducible apply keep_memErr h
    | with_reducible apply keep_ite | split | dsimp only | assumption | rfl)

theorem keep_linkWriteDone (hm : 2195521 ||| m = m) {b : Block} (hb : P b) (p : Params) (port : Nat) (k :
    Sys2Proof.Packet) (l : Nat) (ok : Bool) (addr : Nat) (cause : Nat) : P (linkWriteDone p b port k l ok addr cause)
    := by
  unfold linkWriteDone
  repeat' (first
    | with_reducible assumption | intro _ | exact bits_sub (by decide) hm | with_reducible apply keep_arrivalAdd h
    | with_reducible apply keep_sendRsp h | with_reducible apply keep_linkAccessErr h | with_reducible apply keep_ite
    | split | dsimp only | assumption | rfl)

theorem keep_latchRec (hm : 2097152 ||| m = m) {b : Block} (hb : P b) : P (latchRec b) := by
  unfold latchRec
  repeat' (first
    | with_reducible assumption | intro _ | exact bits_sub (by decide) hm | with_reducible apply keep_modRef h
    | with_reducible apply keep_ite | split | dsimp only | assumption | rfl)

theorem keep_readLatch (hm : 538968064 ||| m = m) {b : Block} (hb : P b) (pg : Page) (off : Nat) : P (readLatch b pg
    off) := by
  unfold readLatch
  repeat' (first
    | with_reducible assumption | intro _ | exact bits_sub (by decide) hm
    | (extract_lets +onlyGivenNames x; refine keep_cut (p := P x) ?_ (fun kx => ?_); rotate_left; clear_value x; rotate_right; unfold x; clear x)
    | (extract_lets +onlyGivenNames x; unfold x; clear x)
    | (extract_lets +onlyGivenNames x; clear x)
    | with_reducible apply keep_latchRec h | with_reducible apply keep_ite | split
    | with_reducible apply upd_hazLatch h | dsimp only | assumption | rfl)

theorem keep_cfgError (hm : 2097153 ||| m = m) {b : Block} (hb : P b) (base : Nat) (i : Nat) (addr : Nat) (info : Nat)
    : P (cfgError b base i addr info) := by
  unfold cfgError
  repeat' (first
    | with_reducible assumption | intro _ | exact bits_sub (by decide) hm
    | (extract_lets +onlyGivenNames x; refine keep_cut (p := P x) ?_ (fun kx => ?_); rotate_left; clear_value x; rotate_right; unfold x; clear x)
    | (extract_lets +onlyGivenNames x; unfold x; clear x)
    | (extract_lets +onlyGivenNames x; clear x)
    | with_reducible apply keep_pageErr h | with_reducible apply keep_signalEv h | with_reducible apply keep_ite
    | split | dsimp only | assumption | rfl)

theorem keep_respond (hm : 2 ||| m = m) {b : Block} (hb : P b) (r : Resp) (d : Nat) : P (respond b r d) := by
  unfold respond
  repeat' (first
    | with_reducible assumption | intro _ | exact bits_sub (by decide) hm
    | (extract_lets +onlyGivenNames x; refine keep_cut (p := P x) ?_ (fun kx => ?_); rotate_left; clear_value x; rotate_right; unfold x; clear x)
    | (extract_lets +onlyGivenNames x; unfold x; clear x)
    | (extract_lets +onlyGivenNames x; clear x)
    | with_reducible apply keep_ite | split | with_reducible apply upd_cfg h | dsimp only | assumption | rfl)

theorem keep_refuse (hm : 2097155 ||| m = m) {b : Block} (hb : P b) (x0 : Sys2Proof.Access) (base : Nat) (i : Nat)
    (kind : Nat) : P (refuse b x0 base i kind) := by
  unfold refuse
  repeat' (first
    | with_reducible assumption | intro _ | exact bits_sub (by decide) hm | with_reducible apply keep_respond h
    | with_reducible apply keep_cfgError h | with_reducible apply keep_ite | split | dsimp only | assumption | rfl)

theorem keep_setRsh (hm : 2 ||| m = m) {b : Block} (hb : P b) (t : Sys2Proof.Tab Sys2Proof.Word) : P (setRsh b t) :=
    by
  unfold setRsh
  repeat' (first
    | with_reducible assumption | intro _ | exact bits_sub (by decide) hm
    | (extract_lets +onlyGivenNames x; refine keep_cut (p := P x) ?_ (fun kx => ?_); rotate_left; clear_value x; rotate_right; unfold x; clear x)
    | (extract_lets +onlyGivenNames x; unfold x; clear x)
    | (extract_lets +onlyGivenNames x; clear x)
    | with_reducible apply keep_ite | split | with_reducible apply upd_cfg h | dsimp only | assumption | rfl)

theorem keep_performRead (hm : 538968067 ||| m = m) {b : Block} (hb : P b) (p : Params) (x0 : Sys2Proof.Access) (pg :
    Page) : P (performRead p b x0 pg) := by
  unfold performRead
  repeat' (first
    | with_reducible assumption | intro _ | exact bits_sub (by decide) hm
    | (extract_lets +onlyGivenNames x; refine keep_cut (p := P x) ?_ (fun kx => ?_); rotate_left; clear_value x; rotate_right; unfold x; clear x)
    | (extract_lets +onlyGivenNames x; unfold x; clear x)
    | (extract_lets +onlyGivenNames x; clear x)
    | with_reducible apply keep_respond h | with_reducible apply keep_refuse h | with_reducible apply keep_readLatch h
    | with_reducible apply keep_setRsh h | with_reducible apply keep_ite | split | dsimp only | assumption | rfl)

theorem keep_poolFree (hm : 65536 ||| m = m) {b : Block} (hb : P b) (src : Nat) (pools : List Nat) : P (poolFree b src
    pools) := by
  unfold poolFree
  repeat' (first
    | with_reducible assumption | intro _ | exact bits_sub (by decide) hm | with_reducible apply keep_modPort h
    | with_reducible apply keep_ite | split | dsimp only | assumption | rfl)

theorem keep_freeOut (hm : 65536 ||| m = m) {b : Block} (hb : P b) (l : List OutPkt) : P (freeOut b l) := by
  unfold freeOut
  repeat' (first
    | with_reducible assumption | intro _ | exact bits_sub (by decide) hm
    | (with_reducible refine keep_forEach _ _ ?_ ?_) | with_reducible apply keep_poolFree h
    | with_reducible apply keep_ite | split | dsimp only | assumption | rfl)

theorem keep_portOffReq (hm : 65536 ||| m = m) {b : Block} (hb : P b) (p : Nat) : P (portOffReq b p) := by
  unfold portOffReq
  repeat' (first
    | with_reducible assumption | intro _ | exact bits_sub (by decide) hm
    | (extract_lets +onlyGivenNames x; refine keep_cut (p := P x) ?_ (fun kx => ?_); rotate_left; clear_value x; rotate_right; unfold x; clear x)
    | (extract_lets +onlyGivenNames x; unfold x; clear x)
    | (extract_lets +onlyGivenNames x; clear x)
    | with_reducible apply keep_setPort h | with_reducible apply keep_freeOut h | with_reducible apply keep_ite
    | split | dsimp only | assumption | rfl)

theorem keep_portOn (hm : 65536 ||| m = m) {b : Block} (hb : P b) (pr : Params) (p : Nat) : P (portOn pr b p) := by
  unfold portOn
  repeat' (first
    | with_reducible assumption | intro _ | exact bits_sub (by decide) hm
    | (extract_lets +onlyGivenNames x; refine keep_cut (p := P x) ?_ (fun kx => ?_); rotate_left; clear_value x; rotate_right; unfold x; clear x)
    | (extract_lets +onlyGivenNames x; unfold x; clear x)
    | (extract_lets +onlyGivenNames x; clear x)
    | with_reducible apply keep_setPort h | with_reducible apply keep_ite | split | dsimp only | assumption | rfl)

theorem keep_startWalkers (hm : 128 ||| m = m) {b : Block} (hb : P b) : P (startWalkers b) := by
  unfold startWalkers
  repeat' (first
    | with_reducible assumption | intro _ | exact bits_sub (by decide) hm | with_reducible apply keep_ite | split
    | with_reducible apply upd_walks h | dsimp only | assumption | rfl)

theorem keep_modVault (hm : 1048576 ||| m = m) {b : Block} (hb : P b) (f : Vault → Vault) : P (modVault b f) := by
  unfold modVault
  repeat' (first
    | with_reducible assumption | intro _ | exact bits_sub (by decide) hm | with_reducible apply keep_ite | split
    | with_reducible apply upd_vault h | dsimp only | assumption | rfl)

theorem keep_vaultPowerUp (hm : 1048576 ||| m = m) {b : Block} (hb : P b) : P (vaultPowerUp b) := by
  unfold vaultPowerUp
  repeat' (first
    | with_reducible assumption | intro _ | exact bits_sub (by decide) hm | with_reducible apply keep_modVault h
    | with_reducible apply keep_ite | split | dsimp only | assumption | rfl)

theorem keep_vaultSettle (hm : 1048576 ||| m = m) {b : Block} (hb : P b) : P (vaultSettle b) := by
  unfold vaultSettle
  repeat' (first
    | with_reducible assumption | intro _ | exact bits_sub (by decide) hm
    | (extract_lets +onlyGivenNames x; refine keep_cut (p := P x) ?_ (fun kx => ?_); rotate_left; clear_value x; rotate_right; unfold x; clear x)
    | (extract_lets +onlyGivenNames x; unfold x; clear x)
    | (extract_lets +onlyGivenNames x; clear x)
    | with_reducible apply keep_modVault h | with_reducible apply keep_ite | split | dsimp only | assumption | rfl)

theorem keep_enableSide (hm : 20045957 ||| m = m) {b : Block} (hb : P b) (p : Params) (old : Block) (pg : Page) (on :
    Bool) : P (enableSide p old b pg on) := by
  unfold enableSide
  repeat' (first
    | with_reducible assumption | intro _ | exact bits_sub (by decide) hm
    | (with_reducible refine keep_forEach _ _ ?_ ?_) | with_reducible apply keep_pump h
    | with_reducible apply keep_startWalkers h | with_reducible apply keep_irqAfter h
    | with_reducible apply keep_portOn h | with_reducible apply keep_portOffReq h
    | with_reducible apply keep_vaultPowerUp h | with_reducible apply keep_vaultSettle h
    | with_reducible apply keep_ite | split | dsimp only | assumption | rfl)

theorem keep_linkRefuse (hm : 65537 ||| m = m) {b : Block} (hb : P b) (k : Sys2Proof.Packet) (resp : Nat) : P
    (linkRefuse b k resp) := by
  unfold linkRefuse
  repeat' (first
    | with_reducible assumption | intro _ | exact bits_sub (by decide) hm | with_reducible apply keep_sendRsp h
    | with_reducible apply keep_rcount h | with_reducible apply keep_ite | split | dsimp only | assumption | rfl)

theorem keep_linkUnavail (hm : 65553 ||| m = m) {b : Block} (hb : P b) (n : Nat) : P (linkUnavail b n) := by
  unfold linkUnavail
  repeat' (first
    | with_reducible assumption | intro _ | exact bits_sub (by decide) hm
    | (extract_lets +onlyGivenNames x; refine keep_cut (p := P x) ?_ (fun kx => ?_); rotate_left; clear_value x; rotate_right; unfold x; clear x)
    | (extract_lets +onlyGivenNames x; unfold x; clear x)
    | (extract_lets +onlyGivenNames x; clear x)
    | (with_reducible refine keep_forEach _ _ ?_ ?_) | with_reducible apply keep_modStn h
    | with_reducible apply keep_linkRefuse h | with_reducible apply keep_poolFree h | with_reducible apply keep_ite
    | split | dsimp only | assumption | rfl)

theorem keep_lostPkt (hm : 65537 ||| m = m) {b : Block} (hb : P b) (k : Sys2Proof.Packet) : P (lostPkt b k) := by
  unfold lostPkt
  repeat' (first
    | with_reducible assumption | intro _ | exact bits_sub (by decide) hm | with_reducible apply keep_sendRsp h
    | with_reducible apply keep_dropPkt h | with_reducible apply keep_ite | split | dsimp only | assumption | rfl)

theorem keep_portEv (hm : 2097152 ||| m = m) {b : Block} (hb : P b) (p : Nat) (kind : Nat) (cause : Nat) : P (portEv b
    p kind cause) := by
  unfold portEv
  repeat' (first
    | with_reducible assumption | intro _ | exact bits_sub (by decide) hm | with_reducible apply keep_signalEv h
    | with_reducible apply keep_ite | split | dsimp only | assumption | rfl)

theorem keep_portLeave (hm : 2195457 ||| m = m) {b : Block} (hb : P b) (p : Nat) (st : PortSt) (cause : Nat) (evCause
    : Nat) : P (portLeave b p st cause evCause) := by
  unfold portLeave
  repeat' (first
    | with_reducible assumption | intro _ | exact bits_sub (by decide) hm
    | (extract_lets +onlyGivenNames x; refine keep_cut (p := P x) ?_ (fun kx => ?_); rotate_left; clear_value x; rotate_right; unfold x; clear x)
    | (extract_lets +onlyGivenNames x; unfold x; clear x)
    | (extract_lets +onlyGivenNames x; clear x)
    | (with_reducible refine keep_forEach _ _ ?_ ?_) | with_reducible apply keep_setPort h
    | with_reducible apply keep_freeOut h | with_reducible apply keep_lostPkt h | with_reducible apply keep_portEv h
    | with_reducible apply keep_setCause h | with_reducible apply keep_ite | split | dsimp only | assumption | rfl)

theorem keep_portDown (hm : 2195457 ||| m = m) {b : Block} (hb : P b) (p : Nat) (evCause : Nat) : P (portDown b p
    evCause) := by
  unfold portDown
  repeat' (first
    | with_reducible assumption | intro _ | exact bits_sub (by decide) hm | with_reducible apply keep_portLeave h
    | with_reducible apply keep_ite | split | dsimp only | assumption | rfl)

theorem keep_freeStrand (hm : 408 ||| m = m) {b : Block} (hb : P b) (n : Nat) (k : Nat) : P (freeStrand b n k) := by
  unfold freeStrand
  repeat' (first
    | with_reducible assumption | intro _ | exact bits_sub (by decide) hm
    | (extract_lets +onlyGivenNames x; refine keep_cut (p := P x) ?_ (fun kx => ?_); rotate_left; clear_value x; rotate_right; unfold x; clear x)
    | (extract_lets +onlyGivenNames x; unfold x; clear x)
    | (extract_lets +onlyGivenNames x; clear x)
    | with_reducible apply keep_detachReq h | with_reducible apply keep_setStrand h
    | with_reducible apply keep_modStn h | with_reducible apply keep_ite | split | dsimp only | assumption | rfl)

theorem keep_stationStopCore (hm : 48 ||| m = m) {b : Block} (hb : P b) (n : Nat) (code : Nat) : P (stationStopCore b
    n code) := by
  unfold stationStopCore
  repeat' (first
    | with_reducible assumption | intro _ | exact bits_sub (by decide) hm
    | (extract_lets +onlyGivenNames x; refine keep_cut (p := P x) ?_ (fun kx => ?_); rotate_left; clear_value x; rotate_right; unfold x; clear x)
    | (extract_lets +onlyGivenNames x; unfold x; clear x)
    | (extract_lets +onlyGivenNames x; clear x)
    | with_reducible apply keep_setStn h | with_reducible apply keep_ite | split | with_reducible apply upd_tallies h
    | dsimp only | assumption | rfl)

theorem keep_stationStop (hm : 16835005 ||| m = m) {b : Block} (hb : P b) (n : Nat) (code : Nat) : P (stationStop b n
    code) := by
  unfold stationStop
  repeat' (first
    | with_reducible assumption | intro _ | exact bits_sub (by decide) hm
    | (extract_lets +onlyGivenNames x; refine keep_cut (p := P x) ?_ (fun kx => ?_); rotate_left; clear_value x; rotate_right; unfold x; clear x)
    | (extract_lets +onlyGivenNames x; unfold x; clear x)
    | (extract_lets +onlyGivenNames x; clear x)
    | (with_reducible refine keep_forEach _ _ ?_ ?_) | with_reducible apply keep_stationStopCore h
    | with_reducible apply keep_setChan h | with_reducible apply keep_setCause h | with_reducible apply keep_modChan h
    | with_reducible apply keep_setStrand h | with_reducible apply keep_modStrand h
    | with_reducible apply keep_freeStrand h | with_reducible apply keep_beginCompl h | with_reducible apply keep_ite
    | split | dsimp only | assumption | rfl)

theorem keep_vaultEv (hm : 2129921 ||| m = m) {b : Block} (hb : P b) (kind : Nat) (cause : Nat) : P (vaultEv b kind
    cause) := by
  unfold vaultEv
  repeat' (first
    | with_reducible assumption | intro _ | exact bits_sub (by decide) hm | with_reducible apply keep_setCause h
    | with_reducible apply keep_signalEv h | with_reducible apply keep_ite | split | dsimp only | assumption | rfl)

theorem keep_laneTo (hm : 16777217 ||| m = m) {b : Block} (hb : P b) (n : Nat) (amt : Nat) : P (laneTo b n amt) := by
  unfold laneTo
  repeat' (first
    | with_reducible assumption | intro _ | exact bits_sub (by decide) hm | with_reducible apply keep_count h
    | with_reducible apply keep_ite | split | dsimp only | assumption | rfl)

theorem keep_modPart (hm : 256 ||| m = m) {b : Block} (hb : P b) (p : Nat) (f : Part → Part) : P (modPart b p f) := by
  unfold modPart
  repeat' (first
    | with_reducible assumption | intro _ | exact bits_sub (by decide) hm | with_reducible apply keep_setPart h
    | with_reducible apply keep_ite | split | dsimp only | assumption | rfl)

theorem keep_beginCommit (hm : 1280 ||| m = m) {b : Block} (hb : P b) (q : Nat) (revoke : Bool) : P (beginCommit b q
    revoke) := by
  unfold beginCommit
  repeat' (first
    | with_reducible assumption | intro _ | exact bits_sub (by decide) hm
    | (extract_lets +onlyGivenNames x; refine keep_cut (p := P x) ?_ (fun kx => ?_); rotate_left; clear_value x; rotate_right; unfold x; clear x)
    | (extract_lets +onlyGivenNames x; unfold x; clear x)
    | (extract_lets +onlyGivenNames x; clear x)
    | with_reducible apply keep_modPart h | with_reducible apply keep_ite | split | with_reducible apply upd_commitQ h
    | dsimp only | assumption | rfl)

theorem keep_logErased (hm : 11567105 ||| m = m) {b : Block} (hb : P b) (ok : Bool) : P (logErased b ok) := by
  unfold logErased
  repeat' (first
    | with_reducible assumption | intro _ | exact bits_sub (by decide) hm
    | (extract_lets +onlyGivenNames x; refine keep_cut (p := P x) ?_ (fun kx => ?_); rotate_left; clear_value x; rotate_right; unfold x; clear x)
    | (extract_lets +onlyGivenNames x; unfold x; clear x)
    | (extract_lets +onlyGivenNames x; clear x)
    | with_reducible apply keep_modVault h | with_reducible apply keep_vaultSettle h
    | with_reducible apply keep_vaultEv h | with_reducible apply keep_modMgmt h | with_reducible apply keep_ite
    | split | dsimp only | assumption | rfl)

theorem keep_oldBack (hm : 2097425 ||| m = m) {b : Block} (hb : P b) (n : Nat) (f : Fetch) : P (oldBack b n f) := by
  unfold oldBack
  repeat' (first
    | with_reducible assumption | intro _ | exact bits_sub (by decide) hm | with_reducible apply keep_discardRsp h
    | with_reducible apply keep_drained h | with_reducible apply keep_modStn h | with_reducible apply keep_ite | split
    | dsimp only | assumption | rfl)

theorem keep_dropLines (hm : 24 ||| m = m) {b : Block} (hb : P b) (n : Nat) (k : Nat) (gone : Nat → Bool) : P
    (dropLines b n k gone) := by
  unfold dropLines
  repeat' (first
    | with_reducible assumption | intro _ | exact bits_sub (by decide) hm
    | (extract_lets +onlyGivenNames x; refine keep_cut (p := P x) ?_ (fun kx => ?_); rotate_left; clear_value x; rotate_right; unfold x; clear x)
    | (extract_lets +onlyGivenNames x; unfold x; clear x)
    | (extract_lets +onlyGivenNames x; clear x)
    | with_reducible apply keep_modStrand h | with_reducible apply keep_modStn h | with_reducible apply keep_ite
    | split | dsimp only | assumption | rfl)

theorem keep_nearCorrected (hm : 16777217 ||| m = m) {b : Block} (hb : P b) (n : Nat) (corrected : Nat) : P
    (nearCorrected b n corrected) := by
  unfold nearCorrected
  repeat' (first
    | with_reducible assumption | intro _ | exact bits_sub (by decide) hm | with_reducible apply keep_count h
    | with_reducible apply keep_rcount h | with_reducible apply keep_ite | split | dsimp only | assumption | rfl)

theorem keep_logMove (hm : 11567105 ||| m = m) {b : Block} (hb : P b) (op : Nat) (area : Bool) (offset : Nat) (len :
    Nat) (sram : Nat) (data : List Sys2Proof.Byte) (fault : Bool) : P (logMove b op area offset len sram data fault)
    := by
  unfold logMove
  repeat' (first
    | with_reducible assumption | intro _ | exact bits_sub (by decide) hm
    | (extract_lets +onlyGivenNames x; refine keep_cut (p := P x) ?_ (fun kx => ?_); rotate_left; clear_value x; rotate_right; unfold x; clear x)
    | (extract_lets +onlyGivenNames x; unfold x; clear x)
    | (extract_lets +onlyGivenNames x; clear x)
    | with_reducible apply keep_vaultEv h | with_reducible apply keep_modVault h | with_reducible apply keep_modMgmt h
    | with_reducible apply keep_ite | split | dsimp only | assumption | rfl)

theorem keep_badHeader (hm : 2097153 ||| m = m) {b : Block} (hb : P b) (port : Nat) : P (badHeader b port) := by
  unfold badHeader
  repeat' (first
    | with_reducible assumption | intro _ | exact bits_sub (by decide) hm | with_reducible apply keep_portEv h
    | with_reducible apply keep_dropPkt h | with_reducible apply keep_ite | split | dsimp only | assumption | rfl)

theorem keep_resendFlit (hm : 18939905 ||| m = m) {b : Block} (hb : P b) (p : Nat) (f : TxFlit) (bad : Nat) : P
    (resendFlit b p f bad) := by
  unfold resendFlit
  repeat' (first
    | with_reducible assumption | intro _ | exact bits_sub (by decide) hm
    | (extract_lets +onlyGivenNames x; refine keep_cut (p := P x) ?_ (fun kx => ?_); rotate_left; clear_value x; rotate_right; unfold x; clear x)
    | (extract_lets +onlyGivenNames x; unfold x; clear x)
    | (extract_lets +onlyGivenNames x; clear x)
    | with_reducible apply keep_modPort h | with_reducible apply keep_count h | with_reducible apply keep_badHeader h
    | with_reducible apply keep_ite | split | dsimp only | assumption | rfl)

theorem keep_discardOp (hm : 408 ||| m = m) {b : Block} (hb : P b) (n : Nat) (k : Nat) (id : Nat) : P (discardOp b n k
    id) := by
  unfold discardOp
  repeat' (first
    | with_reducible assumption | intro _ | exact bits_sub (by decide) hm | with_reducible apply keep_relHaz h
    | with_reducible apply keep_detachReq h | with_reducible apply keep_opRemove h | with_reducible apply keep_ite
    | split | dsimp only | assumption | rfl)

theorem keep_sendAcks (hm : 65537 ||| m = m) {b : Block} (hb : P b) (l : List Add) : P (sendAcks b l) := by
  unfold sendAcks
  repeat' (first
    | with_reducible assumption | intro _ | exact bits_sub (by decide) hm
    | (with_reducible refine keep_forEach _ _ ?_ ?_) | with_reducible apply keep_sendRsp h
    | with_reducible apply keep_ite | split | dsimp only | assumption | rfl)

theorem keep_detachOps (hm : 408 ||| m = m) {b : Block} (hb : P b) (n : Nat) (k : Nat) : P (detachOps b n k) := by
  unfold detachOps
  repeat' (first
    | with_reducible assumption | intro _ | exact bits_sub (by decide) hm
    | (extract_lets +onlyGivenNames x; refine keep_cut (p := P x) ?_ (fun kx => ?_); rotate_left; clear_value x; rotate_right; unfold x; clear x)
    | (extract_lets +onlyGivenNames x; unfold x; clear x)
    | (extract_lets +onlyGivenNames x; clear x)
    | (with_reducible refine keep_forEach _ _ ?_ ?_) | with_reducible apply keep_relHaz h
    | with_reducible apply keep_detachReq h | with_reducible apply keep_opRemove h | with_reducible apply keep_ite
    | split | dsimp only | assumption | rfl)

theorem keep_codeCorrected (hm : 16777217 ||| m = m) {b : Block} (hb : P b) (p : Params) (addr : Nat) : P
    (codeCorrected p b addr) := by
  unfold codeCorrected
  repeat' (first
    | with_reducible assumption | intro _ | exact bits_sub (by decide) hm | with_reducible apply keep_rcount h
    | with_reducible apply keep_nearCorrected h | with_reducible apply keep_ite | split | dsimp only | assumption
    | rfl)

end

end Sys2Proof.Machine
end

