-- ==== Sys2Proof/Laws/KeepsStation.lean ====
section
/-! SUPPORT. The fields that each operation may write, continued: stations, translation, links and the vault. -/
set_option Elab.async false
set_option linter.all false

namespace Sys2Proof.Machine

section
variable {m : Nat} {P : Block → Prop} (h : Keeps m P)
include h

theorem keep_dropWaiters (hm : 32 ||| m = m) {b : Block} (hb : P b) (n : Nat) (k : Nat) : P (dropWaiters b n k) := by
  unfold dropWaiters
  repeat' (first
    | with_reducible assumption | intro _ | exact bits_sub (by decide) hm
    | (extract_lets +onlyGivenNames x; refine keep_cut (p := P x) ?_ (fun kx => ?_); rotate_left; clear_value x; rotate_right; unfold x; clear x)
    | (extract_lets +onlyGivenNames x; unfold x; clear x)
    | (extract_lets +onlyGivenNames x; clear x)
    | with_reducible apply keep_ite | split | with_reducible apply upd_tallies h | dsimp only | assumption | rfl)

theorem keep_stopStrand (hm : 440 ||| m = m) {b : Block} (hb : P b) (n : Nat) (k : Nat) (code : Nat) : P (stopStrand b
    n k code) := by
  unfold stopStrand
  repeat' (first
    | with_reducible assumption | intro _ | exact bits_sub (by decide) hm
    | (extract_lets +onlyGivenNames x; refine keep_cut (p := P x) ?_ (fun kx => ?_); rotate_left; clear_value x; rotate_right; unfold x; clear x)
    | (extract_lets +onlyGivenNames x; unfold x; clear x)
    | (extract_lets +onlyGivenNames x; clear x)
    | with_reducible apply keep_setStrand h | with_reducible apply keep_dropGuarded h
    | with_reducible apply keep_dropWaiters h | with_reducible apply keep_modStn h
    | with_reducible apply keep_dropStream h | with_reducible apply keep_ite | split | dsimp only | assumption | rfl)

theorem keep_stopAt (hm : 440 ||| m = m) {b : Block} (hb : P b) (n : Nat) (k : Nat) (pc : Nat) (code : Nat) : P
    (stopAt b n k pc code) := by
  unfold stopAt
  repeat' (first
    | with_reducible assumption | intro _ | exact bits_sub (by decide) hm
    | (extract_lets +onlyGivenNames x; refine keep_cut (p := P x) ?_ (fun kx => ?_); rotate_left; clear_value x; rotate_right; unfold x; clear x)
    | (extract_lets +onlyGivenNames x; unfold x; clear x)
    | (extract_lets +onlyGivenNames x; clear x)
    | with_reducible apply keep_stopStrand h | with_reducible apply keep_modStrand h | with_reducible apply keep_ite
    | split | dsimp only | assumption | rfl)

theorem keep_accessFault (hm : 2097593 ||| m = m) {b : Block} (hb : P b) (n : Nat) (k : Nat) (o : Op) (write : Bool)
    (addr : Nat) (cause : Nat) (quiet : Bool) : P (accessFault b n k o write addr cause quiet) := by
  unfold accessFault
  repeat' (first
    | with_reducible assumption | intro _ | exact bits_sub (by decide) hm
    | (extract_lets +onlyGivenNames x; refine keep_cut (p := P x) ?_ (fun kx => ?_); rotate_left; clear_value x; rotate_right; unfold x; clear x)
    | (extract_lets +onlyGivenNames x; unfold x; clear x)
    | (extract_lets +onlyGivenNames x; clear x)
    | with_reducible apply keep_accessRec h | with_reducible apply keep_modStrand h
    | with_reducible apply keep_stopAt h | with_reducible apply keep_ite | split | dsimp only | assumption | rfl)

theorem keep_contentFault (hm : 18907577 ||| m = m) {b : Block} (hb : P b) (n : Nat) (k : Nat) (kind : Nat) (o : Op)
    (detail : Nat) (stop : Bool) : P (contentFault b n k kind o detail stop) := by
  unfold contentFault
  repeat' (first
    | with_reducible assumption | intro _ | exact bits_sub (by decide) hm
    | (extract_lets +onlyGivenNames x; refine keep_cut (p := P x) ?_ (fun kx => ?_); rotate_left; clear_value x; rotate_right; unfold x; clear x)
    | (extract_lets +onlyGivenNames x; unfold x; clear x)
    | (extract_lets +onlyGivenNames x; clear x)
    | with_reducible apply keep_dataRec h | with_reducible apply keep_rcount h | with_reducible apply keep_countCh h
    | with_reducible apply keep_modStrand h | with_reducible apply keep_stopAt h | with_reducible apply keep_ite
    | split | dsimp only | assumption | rfl)

theorem keep_codecRecords (hm : 18907577 ||| m = m) {b : Block} (hb : P b) (n : Nat) (k : Nat) (o : Op) (m0 : Mv) : P
    (codecRecords b n k o m0) := by
  unfold codecRecords
  repeat' (first
    | with_reducible assumption | intro _ | exact bits_sub (by decide) hm
    | (extract_lets +onlyGivenNames x; refine keep_cut (p := P x) ?_ (fun kx => ?_); rotate_left; clear_value x; rotate_right; unfold x; clear x)
    | (extract_lets +onlyGivenNames x; unfold x; clear x)
    | (extract_lets +onlyGivenNames x; clear x)
    | (with_reducible refine keep_forEach _ _ ?_ ?_) | with_reducible apply keep_contentFault h
    | with_reducible apply keep_ite | split | dsimp only | assumption | rfl)

theorem keep_shapeClose (hm : 18907577 ||| m = m) {b : Block} (hb : P b) (n : Nat) (k : Nat) (o : Op) (m0 : Mv) : P
    (shapeClose b n k o m0) := by
  unfold shapeClose
  repeat' (first
    | with_reducible assumption | intro _ | exact bits_sub (by decide) hm
    | (extract_lets +onlyGivenNames x; refine keep_cut (p := P x) ?_ (fun kx => ?_); rotate_left; clear_value x; rotate_right; unfold x; clear x)
    | (extract_lets +onlyGivenNames x; unfold x; clear x)
    | (extract_lets +onlyGivenNames x; clear x)
    | with_reducible apply keep_modStrand h | with_reducible apply keep_countCh h
    | with_reducible apply keep_contentFault h | with_reducible apply keep_ite | split | dsimp only | assumption | rfl)

theorem keep_shapeDone (hm : 18907577 ||| m = m) {b : Block} (hb : P b) (n : Nat) (k : Nat) (o : Op) : P (shapeDone b
    n k o) := by
  unfold shapeDone
  repeat' (first
    | with_reducible assumption | intro _ | exact bits_sub (by decide) hm
    | (extract_lets +onlyGivenNames x; refine keep_cut (p := P x) ?_ (fun kx => ?_); rotate_left; clear_value x; rotate_right; unfold x; clear x)
    | (extract_lets +onlyGivenNames x; unfold x; clear x)
    | (extract_lets +onlyGivenNames x; clear x)
    | with_reducible apply keep_modOp h | with_reducible apply keep_codecRecords h
    | with_reducible apply keep_shapeClose h | with_reducible apply keep_modStn h | with_reducible apply keep_ite
    | split | dsimp only | assumption | rfl)

theorem keep_opTick (hm : 18907577 ||| m = m) {b : Block} (hb : P b) (n : Nat) (k : Nat) (id : Nat) : P (opTick b n k
    id) := by
  unfold opTick
  repeat' (first
    | with_reducible assumption | intro _ | exact bits_sub (by decide) hm
    | (extract_lets +onlyGivenNames x; refine keep_cut (p := P x) ?_ (fun kx => ?_); rotate_left; clear_value x; rotate_right; unfold x; clear x)
    | (extract_lets +onlyGivenNames x; unfold x; clear x)
    | (extract_lets +onlyGivenNames x; clear x)
    | with_reducible apply keep_modOp h | with_reducible apply keep_beginIssue h | with_reducible apply keep_modStn h
    | with_reducible apply keep_histMerge h | with_reducible apply keep_shapeDone h
    | with_reducible apply keep_modStrand h | with_reducible apply keep_opRemove h | with_reducible apply keep_ite
    | split | dsimp only | assumption | rfl)

theorem keep_instrOffside (hm : 18907577 ||| m = m) {b : Block} (hb : P b) (n : Nat) (k : Nat) (o : Op) (first : Int)
    (write : Bool) (high : Bool) : P (instrOffside b n k o first write high) := by
  unfold instrOffside
  repeat' (first
    | with_reducible assumption | intro _ | exact bits_sub (by decide) hm
    | (extract_lets +onlyGivenNames x; refine keep_cut (p := P x) ?_ (fun kx => ?_); rotate_left; clear_value x; rotate_right; unfold x; clear x)
    | (extract_lets +onlyGivenNames x; unfold x; clear x)
    | (extract_lets +onlyGivenNames x; clear x)
    | with_reducible apply keep_contentFault h | with_reducible apply keep_dropOp h
    | with_reducible apply keep_tloadFail h | with_reducible apply keep_ite | split | dsimp only | assumption | rfl)

theorem keep_regionChecks (hm : 18907577 ||| m = m) {b : Block} (hb : P b) (n : Nat) (k : Nat) (o : Op) (foots : List
    Foot) (gs : Option Nat) (gd : Option Nat) (policy : Bool) : P (regionChecks b n k o foots gs gd policy).1 := by
  unfold regionChecks
  repeat' (first
    | with_reducible assumption | intro _ | exact bits_sub (by decide) hm
    | (extract_lets +onlyGivenNames x; refine keep_cut (p := P x) ?_ (fun kx => ?_); rotate_left; clear_value x; rotate_right; unfold x; clear x)
    | (extract_lets +onlyGivenNames x; unfold x; clear x)
    | (extract_lets +onlyGivenNames x; clear x)
    | with_reducible apply keep_contentFault h | with_reducible apply keep_ite | split | dsimp only | assumption | rfl)

theorem keep_regionChecks_eq (hm : 18907577 ||| m = m) {b : Block} (hb : P b) {n : Nat} {k : Nat} {o : Op} {foots :
    List Foot} {gs : Option Nat} {gd : Option Nat} {policy : Bool} {y : Bool} {b' : Block} (e : regionChecks b n k o
    foots gs gd policy = (b', y)) : P b' := by
  have := keep_regionChecks h hm hb n k o foots gs gd policy
  rwa [e] at this

theorem keep_turnOne (hm : 18907577 ||| m = m) {b : Block} (hb : P b) (n : Nat) (k : Nat) : P (turnOne b n k) := by
  unfold turnOne
  repeat' (first
    | with_reducible assumption | intro _ | exact bits_sub (by decide) hm
    | (extract_lets +onlyGivenNames x; refine keep_cut (p := P x) ?_ (fun kx => ?_); rotate_left; clear_value x; rotate_right; unfold x; clear x)
    | (extract_lets +onlyGivenNames x; unfold x; clear x)
    | (extract_lets +onlyGivenNames x; clear x)
    | with_reducible apply keep_instrOffside h | with_reducible apply keep_request h
    | with_reducible apply keep_modOp h | with_reducible apply keep_descAsk h
    | with_reducible apply keep_regionChecks h | (with_reducible refine keep_regionChecks_eq h ?_ ?_ (by assumption))
    | with_reducible apply keep_dropOp h | with_reducible apply keep_ite | split | dsimp only | assumption | rfl)

theorem keep_turnN (hm : 18907577 ||| m = m) {b : Block} (hb : P b) (n k i : Nat) : P (turnN n k i b) := by
  induction i generalizing b with
  | zero => exact hb | succ i ih => rw [turnN]; exact ih (keep_turnOne h (bits_sub (by decide) hm) hb n k)

theorem keep_turn (hm : 18907577 ||| m = m) {b : Block} (hb : P b) (n : Nat) (k : Nat) : P (turn b n k) := by
  unfold turn
  repeat' (first
    | with_reducible assumption | intro _ | exact bits_sub (by decide) hm | with_reducible apply keep_turnN h
    | with_reducible apply keep_ite | split | dsimp only | assumption | rfl)

theorem keep_tick (hm : 18907577 ||| m = m) {b : Block} (hb : P b) (n : Nat) (k : Nat) : P (tick b n k) := by
  unfold tick
  repeat' (first
    | with_reducible assumption | intro _ | exact bits_sub (by decide) hm
    | (extract_lets +onlyGivenNames x; refine keep_cut (p := P x) ?_ (fun kx => ?_); rotate_left; clear_value x; rotate_right; unfold x; clear x)
    | (extract_lets +onlyGivenNames x; unfold x; clear x)
    | (extract_lets +onlyGivenNames x; clear x)
    | (with_reducible refine keep_forEach _ _ ?_ ?_) | with_reducible apply keep_opTick h
    | with_reducible apply keep_turn h | with_reducible apply keep_relHaz h | with_reducible apply keep_ite | split
    | dsimp only | assumption | rfl)

theorem keep_lineOffside (hm : 18907577 ||| m = m) {b : Block} (hb : P b) (n : Nat) (k : Nat) (va : Nat) : P
    (lineOffside b n k va) := by
  unfold lineOffside
  repeat' (first
    | with_reducible assumption | intro _ | exact bits_sub (by decide) hm
    | (extract_lets +onlyGivenNames x; refine keep_cut (p := P x) ?_ (fun kx => ?_); rotate_left; clear_value x; rotate_right; unfold x; clear x)
    | (extract_lets +onlyGivenNames x; unfold x; clear x)
    | (extract_lets +onlyGivenNames x; clear x)
    | with_reducible apply keep_modStn h | with_reducible apply keep_stopStrand h | with_reducible apply keep_tick h
    | with_reducible apply keep_dropOp h | with_reducible apply keep_ite | split | dsimp only | assumption | rfl)

theorem keep_offside (hm : 18907577 ||| m = m) {b : Block} (hb : P b) (n : Nat) (k : Nat) (o : Op) (first : Int)
    (write : Bool) (high : Bool) : P (offside b n k o first write high) := by
  unfold offside
  repeat' (first
    | with_reducible assumption | intro _ | exact bits_sub (by decide) hm
    | (extract_lets +onlyGivenNames x; refine keep_cut (p := P x) ?_ (fun kx => ?_); rotate_left; clear_value x; rotate_right; unfold x; clear x)
    | (extract_lets +onlyGivenNames x; unfold x; clear x)
    | (extract_lets +onlyGivenNames x; clear x)
    | with_reducible apply keep_modOp h | with_reducible apply keep_contentFault h | with_reducible apply keep_ite
    | split | dsimp only | assumption | rfl)

theorem keep_opOffside (hm : 18907577 ||| m = m) {b : Block} (hb : P b) (n : Nat) (k : Nat) (id : Nat) (opd : Nat)
    (gran : Option Nat) : P (opOffside b n k id opd gran) := by
  unfold opOffside
  repeat' (first
    | with_reducible assumption | intro _ | exact bits_sub (by decide) hm
    | (extract_lets +onlyGivenNames x; refine keep_cut (p := P x) ?_ (fun kx => ?_); rotate_left; clear_value x; rotate_right; unfold x; clear x)
    | (extract_lets +onlyGivenNames x; unfold x; clear x)
    | (extract_lets +onlyGivenNames x; clear x)
    | with_reducible apply keep_tick h | with_reducible apply keep_instrOffside h | with_reducible apply keep_modOp h
    | with_reducible apply keep_offside h | with_reducible apply keep_ite | split | dsimp only | assumption | rfl)

theorem keep_giveOffside (hm : 18932157 ||| m = m) {b : Block} (hb : P b) (p : Params) (r : Requester) (gran : Option
    Nat) : P (giveOffside p b r gran) := by
  unfold giveOffside
  repeat' (first
    | with_reducible assumption | intro _ | exact bits_sub (by decide) hm | with_reducible apply keep_chanOffside h
    | with_reducible apply keep_lineOffside h | with_reducible apply keep_opOffside h | with_reducible apply keep_ite
    | split | dsimp only | assumption | rfl)

theorem keep_addNeed (hm : 18932157 ||| m = m) {b : Block} (hb : P b) (p : Params) (q : Nat) (x0 : Need) : P (addNeed
    p b q x0) := by
  unfold addNeed
  repeat' (first
    | with_reducible assumption | intro _ | exact bits_sub (by decide) hm
    | (extract_lets +onlyGivenNames x; refine keep_cut (p := P x) ?_ (fun kx => ?_); rotate_left; clear_value x; rotate_right; unfold x; clear x)
    | (extract_lets +onlyGivenNames x; unfold x; clear x)
    | (extract_lets +onlyGivenNames x; clear x)
    | with_reducible apply keep_countCh h | with_reducible apply keep_giveOffside h | with_reducible apply keep_ite
    | split | with_reducible apply upd_walks h | dsimp only | assumption | rfl)

theorem keep_afterConflict (hm : 16908729 ||| m = m) {b : Block} (hb : P b) (n : Nat) (k : Nat) (o : Op) : P
    (afterConflict b n k o) := by
  unfold afterConflict
  repeat' (first
    | with_reducible assumption | intro _ | exact bits_sub (by decide) hm
    | (extract_lets +onlyGivenNames x; refine keep_cut (p := P x) ?_ (fun kx => ?_); rotate_left; clear_value x; rotate_right; unfold x; clear x)
    | (extract_lets +onlyGivenNames x; unfold x; clear x)
    | (extract_lets +onlyGivenNames x; clear x)
    | with_reducible apply keep_modOp h | with_reducible apply keep_afterGuards h | with_reducible apply keep_stopAt h
    | with_reducible apply keep_dropOp h | with_reducible apply keep_armGuard h | with_reducible apply keep_ite
    | split | dsimp only | assumption | rfl)

theorem keep_afterLand (hm : 18907577 ||| m = m) {b : Block} (hb : P b) (n : Nat) (a : Agent) : P (afterLand b n a) :=
    by
  unfold afterLand
  repeat' (first
    | with_reducible assumption | intro _ | exact bits_sub (by decide) hm | with_reducible apply keep_tick h
    | with_reducible apply keep_relHaz h | with_reducible apply keep_ite | split | dsimp only | assumption | rfl)

theorem keep_instrFail (hm : 440 ||| m = m) {b : Block} (hb : P b) (n : Nat) (k : Nat) (o : Op) : P (instrFail b n k
    o) := by
  unfold instrFail
  repeat' (first
    | with_reducible assumption | intro _ | exact bits_sub (by decide) hm | with_reducible apply keep_stopAt h
    | with_reducible apply keep_dropOp h | with_reducible apply keep_tloadFail h | with_reducible apply keep_ite
    | split | dsimp only | assumption | rfl)

theorem keep_opReadBack (hm : 18907577 ||| m = m) {b : Block} (hb : P b) (n : Nat) (k : Nat) (id : Nat) (opd : Nat)
    (sp : Space) (va : Nat) (mask : Nat) (data : Nat) (bad : Nat → Bool) (fault : Option (Nat × Nat × Bool)) : P
    (opReadBack b n k id opd sp va mask data bad fault) := by
  unfold opReadBack
  repeat' (first
    | with_reducible assumption | intro _ | exact bits_sub (by decide) hm
    | (extract_lets +onlyGivenNames x; refine keep_cut (p := P x) ?_ (fun kx => ?_); rotate_left; clear_value x; rotate_right; unfold x; clear x)
    | (extract_lets +onlyGivenNames x; unfold x; clear x)
    | (extract_lets +onlyGivenNames x; clear x)
    | with_reducible apply keep_accessRec h | with_reducible apply keep_accessFault h
    | with_reducible apply keep_tick h | with_reducible apply keep_instrFail h | with_reducible apply keep_listDone h
    | with_reducible apply keep_modOp h | with_reducible apply keep_instrOffside h
    | with_reducible apply keep_setxDone h | with_reducible apply keep_ite | split | dsimp only | assumption | rfl)

theorem keep_winReadEnd (hm : 18907577 ||| m = m) {b : Block} (hb : P b) (n : Nat) (tag : Nat) (resp : Nat) (data :
    Nat) (poison : Nat) (cause : Nat) : P (winReadEnd b n tag resp data poison cause) := by
  unfold winReadEnd
  repeat' (first
    | with_reducible assumption | intro _ | exact bits_sub (by decide) hm
    | (extract_lets +onlyGivenNames x; refine keep_cut (p := P x) ?_ (fun kx => ?_); rotate_left; clear_value x; rotate_right; unfold x; clear x)
    | (extract_lets +onlyGivenNames x; unfold x; clear x)
    | (extract_lets +onlyGivenNames x; clear x)
    | with_reducible apply keep_dropPkt h | with_reducible apply keep_setStn h
    | with_reducible apply keep_discardRsp h | with_reducible apply keep_offside h
    | with_reducible apply keep_opReadBack h | with_reducible apply keep_ite | split | dsimp only | assumption | rfl)

theorem keep_opWriteFail (hm : 2097593 ||| m = m) {b : Block} (hb : P b) (n : Nat) (k : Nat) (id : Nat) (addr : Nat)
    (cause : Nat) (quiet : Bool) : P (opWriteFail b n k id addr cause quiet) := by
  unfold opWriteFail
  repeat' (first
    | with_reducible assumption | intro _ | exact bits_sub (by decide) hm | with_reducible apply keep_accessFault h
    | with_reducible apply keep_stopAt h | with_reducible apply keep_accessRec h | with_reducible apply keep_ite
    | split | dsimp only | assumption | rfl)

theorem keep_wrFailed (hm : 18973177 ||| m = m) {b : Block} (hb : P b) (p : Params) (n : Nat) (w : WrReq) (addr : Nat)
    (cause : Nat) : P (wrFailed p b n w addr cause) := by
  unfold wrFailed
  repeat' (first
    | with_reducible assumption | intro _ | exact bits_sub (by decide) hm
    | (extract_lets +onlyGivenNames x; refine keep_cut (p := P x) ?_ (fun kx => ?_); rotate_left; clear_value x; rotate_right; unfold x; clear x)
    | (extract_lets +onlyGivenNames x; unfold x; clear x)
    | (extract_lets +onlyGivenNames x; clear x)
    | with_reducible apply keep_drained h | with_reducible apply keep_linkWriteDone h
    | with_reducible apply keep_afterLand h | with_reducible apply keep_opWriteFail h | with_reducible apply keep_ite
    | split | dsimp only | assumption | rfl)

theorem keep_wrLanded (hm : 18973177 ||| m = m) {b : Block} (hb : P b) (p : Params) (n : Nat) (w : WrReq) : P
    (wrLanded p b n w) := by
  unfold wrLanded
  repeat' (first
    | with_reducible assumption | intro _ | exact bits_sub (by decide) hm
    | (extract_lets +onlyGivenNames x; refine keep_cut (p := P x) ?_ (fun kx => ?_); rotate_left; clear_value x; rotate_right; unfold x; clear x)
    | (extract_lets +onlyGivenNames x; unfold x; clear x)
    | (extract_lets +onlyGivenNames x; clear x)
    | with_reducible apply keep_drained h | with_reducible apply keep_linkWriteDone h
    | with_reducible apply keep_afterLand h | with_reducible apply keep_ite | split | dsimp only | assumption | rfl)

theorem keep_winWriteEnd (hm : 18973177 ||| m = m) {b : Block} (hb : P b) (p : Params) (n : Nat) (tag : Nat) (resp :
    Nat) (cause : Nat) : P (winWriteEnd p b n tag resp cause) := by
  unfold winWriteEnd
  repeat' (first
    | with_reducible assumption | intro _ | exact bits_sub (by decide) hm
    | (extract_lets +onlyGivenNames x; refine keep_cut (p := P x) ?_ (fun kx => ?_); rotate_left; clear_value x; rotate_right; unfold x; clear x)
    | (extract_lets +onlyGivenNames x; unfold x; clear x)
    | (extract_lets +onlyGivenNames x; clear x)
    | with_reducible apply keep_dropPkt h | with_reducible apply keep_setStn h | with_reducible apply keep_wrLanded h
    | with_reducible apply keep_offside h | with_reducible apply keep_wrFailed h | with_reducible apply keep_ite
    | split | dsimp only | assumption | rfl)

theorem keep_answerDown (hm : 18973177 ||| m = m) {b : Block} (hb : P b) (p : Params) (n : Nat) : P (answerDown p b n)
    := by
  unfold answerDown
  repeat' (first
    | with_reducible assumption | intro _ | exact bits_sub (by decide) hm
    | (extract_lets +onlyGivenNames x; refine keep_cut (p := P x) ?_ (fun kx => ?_); rotate_left; clear_value x; rotate_right; unfold x; clear x)
    | (extract_lets +onlyGivenNames x; unfold x; clear x)
    | (extract_lets +onlyGivenNames x; clear x)
    | (with_reducible refine keep_forEach _ _ ?_ ?_) | with_reducible apply keep_winReadEnd h
    | with_reducible apply keep_winWriteEnd h | with_reducible apply keep_ite | split | dsimp only | assumption | rfl)

theorem keep_vaultAnswer (hm : 18907577 ||| m = m) {b : Block} (hb : P b) (n : Nat) (tag : Nat) : P (vaultAnswer b n
    tag) := by
  unfold vaultAnswer
  repeat' (first
    | with_reducible assumption | intro _ | exact bits_sub (by decide) hm
    | (extract_lets +onlyGivenNames x; refine keep_cut (p := P x) ?_ (fun kx => ?_); rotate_left; clear_value x; rotate_right; unfold x; clear x)
    | (extract_lets +onlyGivenNames x; unfold x; clear x)
    | (extract_lets +onlyGivenNames x; clear x)
    | with_reducible apply keep_discardRsp h | with_reducible apply keep_setStn h | with_reducible apply keep_count h
    | with_reducible apply keep_laneTo h | with_reducible apply keep_opReadBack h | with_reducible apply keep_ite
    | split | dsimp only | assumption | rfl)

theorem keep_vaultServe (hm : 18907577 ||| m = m) {b : Block} (hb : P b) (n : Nat) : P (vaultServe b n) := by
  unfold vaultServe
  repeat' (first
    | with_reducible assumption | intro _ | exact bits_sub (by decide) hm
    | (with_reducible refine keep_forEach _ _ ?_ ?_) | with_reducible apply keep_vaultAnswer h
    | with_reducible apply keep_ite | split | dsimp only | assumption | rfl)

theorem keep_vaultServeAll (hm : 18907577 ||| m = m) {b : Block} (hb : P b) : P (vaultServeAll b) := by
  unfold vaultServeAll
  repeat' (first
    | with_reducible assumption | intro _ | exact bits_sub (by decide) hm
    | (with_reducible refine keep_forEach _ _ ?_ ?_) | with_reducible apply keep_vaultServe h
    | with_reducible apply keep_ite | split | dsimp only | assumption | rfl)

theorem keep_vaultWrFail (hm : 18907577 ||| m = m) {b : Block} (hb : P b) (n : Nat) (w : WrReq) : P (vaultWrFail b n
    w) := by
  unfold vaultWrFail
  repeat' (first
    | with_reducible assumption | intro _ | exact bits_sub (by decide) hm | with_reducible apply keep_afterLand h
    | with_reducible apply keep_opWriteFail h | with_reducible apply keep_ite | split | dsimp only | assumption | rfl)

theorem keep_vaultWritesFail (hm : 18907577 ||| m = m) {b : Block} (hb : P b) (keep : Nat → WrReq → Bool) : P
    (vaultWritesFail b keep) := by
  unfold vaultWritesFail
  repeat' (first
    | with_reducible assumption | intro _ | exact bits_sub (by decide) hm
    | (extract_lets +onlyGivenNames x; refine keep_cut (p := P x) ?_ (fun kx => ?_); rotate_left; clear_value x; rotate_right; unfold x; clear x)
    | (extract_lets +onlyGivenNames x; unfold x; clear x)
    | (extract_lets +onlyGivenNames x; clear x)
    | (with_reducible refine keep_forEach _ _ ?_ ?_) | with_reducible apply keep_vaultEv h
    | with_reducible apply keep_modStn h | with_reducible apply keep_vaultWrFail h | with_reducible apply keep_ite
    | split | dsimp only | assumption | rfl)

theorem keep_vaultFail (hm : 18907577 ||| m = m) {b : Block} (hb : P b) : P (vaultFail b) := by
  unfold vaultFail
  repeat' (first
    | with_reducible assumption | intro _ | exact bits_sub (by decide) hm
    | with_reducible apply keep_vaultWritesFail h | with_reducible apply keep_vaultServeAll h
    | with_reducible apply keep_ite | split | dsimp only | assumption | rfl)

theorem keep_vaultFence (hm : 19956153 ||| m = m) {b : Block} (hb : P b) : P (vaultFence b) := by
  unfold vaultFence
  repeat' (first
    | with_reducible assumption | intro _ | exact bits_sub (by decide) hm
    | (extract_lets +onlyGivenNames x; refine keep_cut (p := P x) ?_ (fun kx => ?_); rotate_left; clear_value x; rotate_right; unfold x; clear x)
    | (extract_lets +onlyGivenNames x; unfold x; clear x)
    | (extract_lets +onlyGivenNames x; clear x)
    | with_reducible apply keep_modVault h | with_reducible apply keep_vaultFail h | with_reducible apply keep_ite
    | split | dsimp only | assumption | rfl)

theorem keep_endCommit (hm : 34561 ||| m = m) {b : Block} (hb : P b) (q : Nat) : P (endCommit b q) := by
  unfold endCommit
  repeat' (first
    | with_reducible assumption | intro _ | exact bits_sub (by decide) hm
    | (extract_lets +onlyGivenNames x; refine keep_cut (p := P x) ?_ (fun kx => ?_); rotate_left; clear_value x; rotate_right; unfold x; clear x)
    | (extract_lets +onlyGivenNames x; unfold x; clear x)
    | (extract_lets +onlyGivenNames x; clear x)
    | with_reducible apply keep_modPart h | with_reducible apply keep_setCause h
    | with_reducible apply keep_beginCommit h | with_reducible apply keep_ite | split
    | with_reducible apply upd_standby_commitQ h | dsimp only | assumption | rfl)

theorem keep_failCommit (hm : 34561 ||| m = m) {b : Block} (hb : P b) (q : Nat) (cerr : Nat) : P (failCommit b q cerr)
    := by
  unfold failCommit
  repeat' (first
    | with_reducible assumption | intro _ | exact bits_sub (by decide) hm | with_reducible apply keep_setCause h
    | with_reducible apply keep_endCommit h | with_reducible apply keep_modPart h | with_reducible apply keep_ite
    | split | dsimp only | assumption | rfl)

theorem keep_xlatFence (hm : 34689 ||| m = m) {b : Block} (hb : P b) : P (xlatFence b) := by
  unfold xlatFence
  repeat' (first
    | with_reducible assumption | intro _ | exact bits_sub (by decide) hm
    | (extract_lets +onlyGivenNames x; refine keep_cut (p := P x) ?_ (fun kx => ?_); rotate_left; clear_value x; rotate_right; unfold x; clear x)
    | (extract_lets +onlyGivenNames x; unfold x; clear x)
    | (extract_lets +onlyGivenNames x; clear x)
    | (with_reducible refine keep_forEach _ _ ?_ ?_) | with_reducible apply keep_failCommit h
    | with_reducible apply keep_ite | split | with_reducible apply upd_walks h | dsimp only | assumption | rfl)

theorem keep_modPwr (hm : 4194304 ||| m = m) {b : Block} (hb : P b) (f : Pwr → Pwr) : P (modPwr b f) := by
  unfold modPwr
  repeat' (first
    | with_reducible assumption | intro _ | exact bits_sub (by decide) hm | with_reducible apply keep_ite | split
    | with_reducible apply upd_pwr h | dsimp only | assumption | rfl)

theorem keep_dropRequests (hm : 4194304 ||| m = m) {b : Block} (hb : P b) : P (dropRequests b) := by
  unfold dropRequests
  repeat' (first
    | with_reducible assumption | intro _ | exact bits_sub (by decide) hm | with_reducible apply keep_modPwr h
    | with_reducible apply keep_ite | split | dsimp only | assumption | rfl)

theorem keep_fenceUnit (hm : 32630717 ||| m = m) {b : Block} (hb : P b) (t : Target) : P (fenceUnit b t) := by
  unfold fenceUnit
  repeat' (first
    | with_reducible assumption | intro _ | exact bits_sub (by decide) hm
    | (extract_lets +onlyGivenNames x; refine keep_cut (p := P x) ?_ (fun kx => ?_); rotate_left; clear_value x; rotate_right; unfold x; clear x)
    | (extract_lets +onlyGivenNames x; unfold x; clear x)
    | (extract_lets +onlyGivenNames x; clear x)
    | with_reducible apply keep_linkUnavail h | with_reducible apply keep_stationStop h
    | with_reducible apply keep_modStn h | with_reducible apply keep_xlatFence h | with_reducible apply keep_modPort h
    | with_reducible apply keep_portDown h | with_reducible apply keep_vaultFence h
    | with_reducible apply keep_dropRequests h | with_reducible apply keep_modMgmt h | with_reducible apply keep_ite
    | split | dsimp only | assumption | rfl)

theorem keep_fenceSide (hm : 32630717 ||| m = m) {b : Block} (hb : P b) (pg : Page) : P (fenceSide b pg) := by
  unfold fenceSide
  repeat' (first
    | with_reducible assumption | intro _ | exact bits_sub (by decide) hm | with_reducible apply keep_fenceUnit h
    | with_reducible apply keep_ite | split | dsimp only | assumption | rfl)

theorem keep_releaseSide (hm : 20045973 ||| m = m) {b : Block} (hb : P b) (p : Params) (pg : Page) : P (releaseSide p
    b pg) := by
  unfold releaseSide
  repeat' (first
    | with_reducible assumption | intro _ | exact bits_sub (by decide) hm
    | (with_reducible refine keep_forEach _ _ ?_ ?_) | with_reducible apply keep_modStn h
    | with_reducible apply keep_pump h | with_reducible apply keep_startWalkers h
    | with_reducible apply keep_modPort h | with_reducible apply keep_modVault h | with_reducible apply keep_ite
    | split | dsimp only | assumption | rfl)

theorem keep_logAppend (hm : 8388608 ||| m = m) {b : Block} (hb : P b) (typ : Nat) (sev : Nat) (src : Nat) (w2 : Nat)
    (w3 : Nat) : P (logAppend b typ sev src w2 w3) := by
  unfold logAppend
  repeat' (first
    | with_reducible assumption | intro _ | exact bits_sub (by decide) hm
    | (extract_lets +onlyGivenNames x; refine keep_cut (p := P x) ?_ (fun kx => ?_); rotate_left; clear_value x; rotate_right; unfold x; clear x)
    | (extract_lets +onlyGivenNames x; unfold x; clear x)
    | (extract_lets +onlyGivenNames x; clear x)
    | with_reducible apply keep_modMgmt h | with_reducible apply keep_ite | split | dsimp only | assumption | rfl)

theorem keep_raiseRec (hm : 2129921 ||| m = m) {b : Block} (hb : P b) (src : Nat) (cls : Nat) (kind : Nat) (unit :
    Nat) (sev : Nat) (insvc : Bool) (addr : Sys2Proof.DWord) (detail : Sys2Proof.DWord) : P (raiseRec b src cls kind
    unit sev insvc addr detail) := by
  unfold raiseRec
  repeat' (first
    | with_reducible assumption | intro _ | exact bits_sub (by decide) hm | with_reducible apply keep_holdRec h
    | with_reducible apply keep_ite | split | dsimp only | assumption | rfl)

theorem keep_reaction (hm : 2129921 ||| m = m) {b : Block} (hb : P b) (src : Nat) (kind : Nat) (insvc : Bool) (detail
    : Nat) : P (reaction b src kind insvc detail) := by
  unfold reaction
  repeat' (first
    | with_reducible assumption | intro _ | exact bits_sub (by decide) hm | with_reducible apply keep_raiseRec h
    | with_reducible apply keep_ite | split | dsimp only | assumption | rfl)

theorem keep_enterDead (hm : 10584065 ||| m = m) {b : Block} (hb : P b) (src : Nat) (kind : Nat) : P (enterDead b src
    kind) := by
  unfold enterDead
  repeat' (first
    | with_reducible assumption | intro _ | exact bits_sub (by decide) hm
    | (extract_lets +onlyGivenNames x; refine keep_cut (p := P x) ?_ (fun kx => ?_); rotate_left; clear_value x; rotate_right; unfold x; clear x)
    | (extract_lets +onlyGivenNames x; unfold x; clear x)
    | (extract_lets +onlyGivenNames x; clear x)
    | with_reducible apply keep_reaction h | with_reducible apply keep_modRef h | with_reducible apply keep_setCause h
    | with_reducible apply keep_logAppend h | with_reducible apply keep_modMgmt h | with_reducible apply keep_ite
    | split | with_reducible apply upd_ports h | dsimp only | assumption | rfl)

theorem keep_modSrc (hm : 2097152 ||| m = m) {b : Block} (hb : P b) (s : Nat) (f : Src → Src) : P (modSrc b s f) := by
  unfold modSrc
  repeat' (first
    | with_reducible assumption | intro _ | exact bits_sub (by decide) hm | with_reducible apply keep_setSrc h
    | with_reducible apply keep_ite | split | dsimp only | assumption | rfl)

theorem keep_fenceDone (hm : 2129921 ||| m = m) {b : Block} (hb : P b) (src : Nat) (us : Nat) : P (fenceDone b src us)
    := by
  unfold fenceDone
  repeat' (first
    | with_reducible assumption | intro _ | exact bits_sub (by decide) hm
    | (extract_lets +onlyGivenNames x; refine keep_cut (p := P x) ?_ (fun kx => ?_); rotate_left; clear_value x; rotate_right; unfold x; clear x)
    | (extract_lets +onlyGivenNames x; unfold x; clear x)
    | (extract_lets +onlyGivenNames x; clear x)
    | with_reducible apply keep_modSrc h | with_reducible apply keep_setCause h | with_reducible apply keep_reaction h
    | with_reducible apply keep_ite | split | dsimp only | assumption | rfl)

theorem keep_fenceCmd (hm : 32630717 ||| m = m) {b : Block} (hb : P b) (src : Nat) : P (fenceCmd b src) := by
  unfold fenceCmd
  repeat' (first
    | with_reducible assumption | intro _ | exact bits_sub (by decide) hm
    | (extract_lets +onlyGivenNames x; refine keep_cut (p := P x) ?_ (fun kx => ?_); rotate_left; clear_value x; rotate_right; unfold x; clear x)
    | (extract_lets +onlyGivenNames x; unfold x; clear x)
    | (extract_lets +onlyGivenNames x; clear x)
    | with_reducible apply keep_rsetBits h | with_reducible apply keep_fenceDone h
    | with_reducible apply keep_fenceUnit h | with_reducible apply keep_modSrc h | with_reducible apply keep_ite
    | split | dsimp only | assumption | rfl)

theorem keep_escalate (hm : 32630717 ||| m = m) {b : Block} (hb : P b) (src : Nat) (kind : Nat) (old : SrcSt) (new :
    SrcSt) (insvc : Bool) : P (escalate b src kind old new insvc) := by
  unfold escalate
  repeat' (first
    | with_reducible assumption | intro _ | exact bits_sub (by decide) hm
    | (extract_lets +onlyGivenNames x; refine keep_cut (p := P x) ?_ (fun kx => ?_); rotate_left; clear_value x; rotate_right; unfold x; clear x)
    | (extract_lets +onlyGivenNames x; unfold x; clear x)
    | (extract_lets +onlyGivenNames x; clear x)
    | with_reducible apply keep_modSrc h | with_reducible apply keep_setCause h | with_reducible apply keep_reaction h
    | with_reducible apply keep_enterDead h | with_reducible apply keep_fenceCmd h | with_reducible apply keep_ite
    | split | dsimp only | assumption | rfl)

theorem keep_srcEvent (hm : 32630717 ||| m = m) {b : Block} (hb : P b) (e0 : Ev) : P (srcEvent b e0) := by
  unfold srcEvent
  repeat' (first
    | with_reducible assumption | intro _ | exact bits_sub (by decide) hm
    | (extract_lets +onlyGivenNames x; refine keep_cut (p := P x) ?_ (fun kx => ?_); rotate_left; clear_value x; rotate_right; unfold x; clear x)
    | (extract_lets +onlyGivenNames x; unfold x; clear x)
    | (extract_lets +onlyGivenNames x; clear x)
    | with_reducible apply keep_rcount h | with_reducible apply keep_setSrc h | with_reducible apply keep_raiseRec h
    | with_reducible apply keep_escalate h | with_reducible apply keep_ite | split | dsimp only | assumption | rfl)

theorem keep_ctrlWrite (hm : 32630717 ||| m = m) {b : Block} (hb : P b) (p : Params) (pg : Page) (w : Nat) : P
    (ctrlWrite p b pg w) := by
  unfold ctrlWrite
  repeat' (first
    | with_reducible assumption | intro _ | exact bits_sub (by decide) hm
    | (extract_lets +onlyGivenNames x; refine keep_cut (p := P x) ?_ (fun kx => ?_); rotate_left; clear_value x; rotate_right; unfold x; clear x)
    | (extract_lets +onlyGivenNames x; unfold x; clear x)
    | (extract_lets +onlyGivenNames x; clear x)
    | with_reducible apply keep_rset h | with_reducible apply keep_srcEvent h | with_reducible apply keep_rsetBits h
    | with_reducible apply keep_enableSide h | with_reducible apply keep_fenceSide h
    | with_reducible apply keep_releaseSide h | with_reducible apply keep_modStn h | with_reducible apply keep_ite
    | split | dsimp only | assumption | rfl)

theorem keep_mgmtReset (hm : 12582912 ||| m = m) {b : Block} (hb : P b) (reason : Nat) (own : Bool) : P (mgmtReset b
    reason own) := by
  unfold mgmtReset
  repeat' (first
    | with_reducible assumption | intro _ | exact bits_sub (by decide) hm
    | (extract_lets +onlyGivenNames x; refine keep_cut (p := P x) ?_ (fun kx => ?_); rotate_left; clear_value x; rotate_right; unfold x; clear x)
    | (extract_lets +onlyGivenNames x; unfold x; clear x)
    | (extract_lets +onlyGivenNames x; clear x)
    | with_reducible apply keep_modMgmt h | with_reducible apply keep_logAppend h
    | with_reducible apply keep_dropRequests h | with_reducible apply keep_ite | split | dsimp only | assumption | rfl)

theorem keep_srcClear (hm : 14680064 ||| m = m) {b : Block} (hb : P b) (src : Nat) : P (srcClear b src) := by
  unfold srcClear
  repeat' (first
    | with_reducible assumption | intro _ | exact bits_sub (by decide) hm
    | (extract_lets +onlyGivenNames x; refine keep_cut (p := P x) ?_ (fun kx => ?_); rotate_left; clear_value x; rotate_right; unfold x; clear x)
    | (extract_lets +onlyGivenNames x; unfold x; clear x)
    | (extract_lets +onlyGivenNames x; clear x)
    | with_reducible apply keep_modSrc h | with_reducible apply keep_mgmtReset h | with_reducible apply keep_modMgmt h
    | with_reducible apply keep_ite | split | dsimp only | assumption | rfl)

theorem keep_fcStatusWrite (hm : 14680064 ||| m = m) {b : Block} (hb : P b) (w : Nat) : P (fcStatusWrite b w) := by
  unfold fcStatusWrite
  repeat' (first
    | with_reducible assumption | intro _ | exact bits_sub (by decide) hm
    | (with_reducible refine keep_forEach _ _ ?_ ?_) | with_reducible apply keep_srcClear h
    | with_reducible apply keep_ite | split | dsimp only | assumption | rfl)

theorem keep_talValWrite (hm : 16908345 ||| m = m) {b : Block} (hb : P b) (t : Nat) (v : Nat) : P (talValWrite b t v)
    := by
  unfold talValWrite
  repeat' (first
    | with_reducible assumption | intro _ | exact bits_sub (by decide) hm
    | (extract_lets +onlyGivenNames x; refine keep_cut (p := P x) ?_ (fun kx => ?_); rotate_left; clear_value x; rotate_right; unfold x; clear x)
    | (extract_lets +onlyGivenNames x; unfold x; clear x)
    | (extract_lets +onlyGivenNames x; clear x)
    | with_reducible apply keep_testWaiters h | with_reducible apply keep_setTal h | with_reducible apply keep_ite
    | split | dsimp only | assumption | rfl)

theorem keep_pairWrite (hm : 31588409 ||| m = m) {b : Block} (hb : P b) (pg : Page) (off : Nat) (lo : RegRow) (hi :
    RegRow) (v : Nat) (w1c : Nat) : P (pairWrite b pg off lo hi v w1c) := by
  unfold pairWrite
  repeat' (first
    | with_reducible assumption | intro _ | exact bits_sub (by decide) hm
    | (extract_lets +onlyGivenNames x; refine keep_cut (p := P x) ?_ (fun kx => ?_); rotate_left; clear_value x; rotate_right; unfold x; clear x)
    | (extract_lets +onlyGivenNames x; unfold x; clear x)
    | (extract_lets +onlyGivenNames x; clear x)
    | with_reducible apply keep_fcStatusWrite h | with_reducible apply keep_talValWrite h
    | with_reducible apply keep_setCnt h | with_reducible apply keep_rset h | with_reducible apply keep_ite | split
    | dsimp only | assumption | rfl)

theorem keep_rclrBits (hm : 1 ||| m = m) {b : Block} (hb : P b) (a : Nat) (m0 : Nat) : P (rclrBits b a m0) := by
  unfold rclrBits
  repeat' (first
    | with_reducible assumption | intro _ | exact bits_sub (by decide) hm | with_reducible apply keep_rset h
    | with_reducible apply keep_ite | split | dsimp only | assumption | rfl)

theorem keep_recode (hm : 268435456 ||| m = m) {b : Block} (hb : P b) (a : Nat) : P (recode b a) := by
  unfold recode
  repeat' (first
    | with_reducible assumption | intro _ | exact bits_sub (by decide) hm | with_reducible apply keep_ite | split
    | with_reducible apply upd_badRegs h | dsimp only | assumption | rfl)

theorem keep_chDisable (hm : 18932101 ||| m = m) {b : Block} (hb : P b) (p : Params) (n : Nat) (c : Nat) : P
    (chDisable p b n c) := by
  unfold chDisable
  repeat' (first
    | with_reducible assumption | intro _ | exact bits_sub (by decide) hm
    | (extract_lets +onlyGivenNames x; refine keep_cut (p := P x) ?_ (fun kx => ?_); rotate_left; clear_value x; rotate_right; unfold x; clear x)
    | (extract_lets +onlyGivenNames x; unfold x; clear x)
    | (extract_lets +onlyGivenNames x; clear x)
    | (with_reducible refine keep_forEach _ _ ?_ ?_) | with_reducible apply keep_detachReq h
    | with_reducible apply keep_setChan h | with_reducible apply keep_beginCompl h
    | with_reducible apply keep_modChan h | with_reducible apply keep_pump h | with_reducible apply keep_ite | split
    | dsimp only | assumption | rfl)

theorem keep_chEnableOn (hm : 18931733 ||| m = m) {b : Block} (hb : P b) (p : Params) (n : Nat) (c : Nat) : P
    (chEnableOn p b n c) := by
  unfold chEnableOn
  repeat' (first
    | with_reducible assumption | intro _ | exact bits_sub (by decide) hm
    | (extract_lets +onlyGivenNames x; refine keep_cut (p := P x) ?_ (fun kx => ?_); rotate_left; clear_value x; rotate_right; unfold x; clear x)
    | (extract_lets +onlyGivenNames x; unfold x; clear x)
    | (extract_lets +onlyGivenNames x; clear x)
    | with_reducible apply keep_modChan h | with_reducible apply keep_reqThaw h | with_reducible apply keep_pump h
    | with_reducible apply keep_stopChan h | with_reducible apply keep_ite | split | dsimp only | assumption | rfl)

theorem keep_chResume (hm : 18931717 ||| m = m) {b : Block} (hb : P b) (p : Params) (n : Nat) (c : Nat) : P (chResume
    p b n c) := by
  unfold chResume
  repeat' (first
    | with_reducible assumption | intro _ | exact bits_sub (by decide) hm
    | (extract_lets +onlyGivenNames x; refine keep_cut (p := P x) ?_ (fun kx => ?_); rotate_left; clear_value x; rotate_right; unfold x; clear x)
    | (extract_lets +onlyGivenNames x; unfold x; clear x)
    | (extract_lets +onlyGivenNames x; clear x)
    | with_reducible apply keep_pump h | with_reducible apply keep_setChan h | with_reducible apply keep_ite | split
    | dsimp only | assumption | rfl)

theorem keep_chCtrl (hm : 18932117 ||| m = m) {b : Block} (hb : P b) (p : Params) (n : Nat) (c : Nat) (w : Nat) : P
    (chCtrl p b n c w) := by
  unfold chCtrl
  repeat' (first
    | with_reducible assumption | intro _ | exact bits_sub (by decide) hm
    | (extract_lets +onlyGivenNames x; refine keep_cut (p := P x) ?_ (fun kx => ?_); rotate_left; clear_value x; rotate_right; unfold x; clear x)
    | (extract_lets +onlyGivenNames x; unfold x; clear x)
    | (extract_lets +onlyGivenNames x; clear x)
    | with_reducible apply keep_rset h | with_reducible apply keep_chEnableOn h
    | with_reducible apply keep_chDisable h | with_reducible apply keep_chResume h | with_reducible apply keep_ite
    | split | dsimp only | assumption | rfl)

theorem keep_clearCause (hm : 32769 ||| m = m) {b : Block} (hb : P b) (vec : Nat) (w : Nat) : P (clearCause b vec w)
    := by
  unfold clearCause
  repeat' (first
    | with_reducible assumption | intro _ | exact bits_sub (by decide) hm
    | (extract_lets +onlyGivenNames x; refine keep_cut (p := P x) ?_ (fun kx => ?_); rotate_left; clear_value x; rotate_right; unfold x; clear x)
    | (extract_lets +onlyGivenNames x; unfold x; clear x)
    | (extract_lets +onlyGivenNames x; clear x)
    | with_reducible apply keep_rclrBits h | with_reducible apply keep_irqPend h | with_reducible apply keep_ite
    | split | dsimp only | assumption | rfl)

theorem keep_cntCtrl (hm : 16777217 ||| m = m) {b : Block} (hb : P b) (l : Sys2Proof.CntLoc) (i : Nat) (w : Nat) : P
    (cntCtrl b l i w) := by
  unfold cntCtrl
  repeat' (first
    | with_reducible assumption | intro _ | exact bits_sub (by decide) hm
    | (extract_lets +onlyGivenNames x; refine keep_cut (p := P x) ?_ (fun kx => ?_); rotate_left; clear_value x; rotate_right; unfold x; clear x)
    | (extract_lets +onlyGivenNames x; unfold x; clear x)
    | (extract_lets +onlyGivenNames x; clear x)
    | with_reducible apply keep_setCnt h | with_reducible apply keep_rset h | with_reducible apply keep_ite | split
    | dsimp only | assumption | rfl)

theorem keep_doorbell (hm : 18931733 ||| m = m) {b : Block} (hb : P b) (p : Params) (n : Nat) (c : Nat) (t :
    Sys2Proof.Word) : P (doorbell p b n c t) := by
  unfold doorbell
  repeat' (first
    | with_reducible assumption | intro _ | exact bits_sub (by decide) hm
    | (extract_lets +onlyGivenNames x; refine keep_cut (p := P x) ?_ (fun kx => ?_); rotate_left; clear_value x; rotate_right; unfold x; clear x)
    | (extract_lets +onlyGivenNames x; unfold x; clear x)
    | (extract_lets +onlyGivenNames x; clear x)
    | with_reducible apply keep_setChan h | with_reducible apply keep_reqThaw h | with_reducible apply keep_pump h
    | with_reducible apply keep_setCause h | with_reducible apply keep_stopChan h | with_reducible apply keep_ite
    | split | dsimp only | assumption | rfl)

theorem keep_fcDrop (hm : 1 ||| m = m) {b : Block} (hb : P b) (p : Nat) : P (fcDrop b p) := by
  unfold fcDrop
  repeat' (first
    | with_reducible assumption | intro _ | exact bits_sub (by decide) hm | with_reducible apply keep_rcount h
    | with_reducible apply keep_ite | split | dsimp only | assumption | rfl)

theorem keep_fcPost (hm : 16777473 ||| m = m) {b : Block} (hb : P b) (p : Nat) (va : Nat) (len : Nat) (kind : Nat)
    (host : Bool) (chan : Nat) (strand : Nat) : P (fcPost b p va len kind host chan strand) := by
  unfold fcPost
  repeat' (first
    | with_reducible assumption | intro _ | exact bits_sub (by decide) hm
    | (extract_lets +onlyGivenNames x; refine keep_cut (p := P x) ?_ (fun kx => ?_); rotate_left; clear_value x; rotate_right; unfold x; clear x)
    | (extract_lets +onlyGivenNames x; unfold x; clear x)
    | (extract_lets +onlyGivenNames x; clear x)
    | with_reducible apply keep_fcDrop h | with_reducible apply keep_count h | with_reducible apply keep_setPart h
    | with_reducible apply keep_ite | split | dsimp only | assumption | rfl)

theorem keep_fcAdvise (hm : 16777473 ||| m = m) {b : Block} (hb : P b) (p : Nat) (va : Nat) (len : Nat) (kind : Nat)
    (host : Bool) (chan : Nat) (strand : Nat) : P (fcAdvise b p va len kind host chan strand) := by
  unfold fcAdvise
  repeat' (first
    | with_reducible assumption | intro _ | exact bits_sub (by decide) hm | with_reducible apply keep_fcDrop h
    | with_reducible apply keep_fcPost h | with_reducible apply keep_ite | split | dsimp only | assumption | rfl)

theorem keep_fqResolve (hm : 16777473 ||| m = m) {b : Block} (hb : P b) (q : Nat) (c : Nat) : P (fqResolve b q c) :=
    by
  unfold fqResolve
  repeat' (first
    | with_reducible assumption | intro _ | exact bits_sub (by decide) hm
    | (extract_lets +onlyGivenNames x; refine keep_cut (p := P x) ?_ (fun kx => ?_); rotate_left; clear_value x; rotate_right; unfold x; clear x)
    | (extract_lets +onlyGivenNames x; unfold x; clear x)
    | (extract_lets +onlyGivenNames x; clear x)
    | with_reducible apply keep_rset h | with_reducible apply keep_setPart h | with_reducible apply keep_admitN h
    | with_reducible apply keep_ite | split | dsimp only | assumption | rfl)

theorem keep_draw (hm : 2147483648 ||| m = m) {b : Block} (hb : P b) : P (draw b).2 := by
  unfold draw
  repeat' (first
    | with_reducible assumption | intro _ | exact bits_sub (by decide) hm | with_reducible apply keep_ite | split
    | with_reducible apply upd_fresh h | dsimp only | assumption | rfl)

theorem keep_draw_eq (hm : 2147483648 ||| m = m) {b : Block} (hb : P b)  {y : Nat} {b' : Block} (e : draw b = (y, b'))
    : P b' := by
  have := keep_draw h hm hb
  rwa [e] at this

theorem keep_freezeWrite (hm : 2181038081 ||| m = m) {b : Block} (hb : P b) (w : Nat) : P (freezeWrite b w) := by
  unfold freezeWrite
  repeat' (first
    | with_reducible assumption | intro _ | exact bits_sub (by decide) hm
    | (extract_lets +onlyGivenNames x; refine keep_cut (p := P x) ?_ (fun kx => ?_); rotate_left; clear_value x; rotate_right; unfold x; clear x)
    | (extract_lets +onlyGivenNames x; unfold x; clear x)
    | (extract_lets +onlyGivenNames x; clear x)
    | with_reducible apply keep_draw h | (with_reducible refine keep_draw_eq h ?_ ?_ (by assumption))
    | with_reducible apply keep_rset h | with_reducible apply keep_ite | split | with_reducible apply upd_frzTime h
    | dsimp only | assumption | rfl)

theorem keep_gopUnwait (hm : 32 ||| m = m) {b : Block} (hb : P b) (s : Nat) : P (gopUnwait b s) := by
  unfold gopUnwait
  repeat' (first
    | with_reducible assumption | intro _ | exact bits_sub (by decide) hm
    | (extract_lets +onlyGivenNames x; refine keep_cut (p := P x) ?_ (fun kx => ?_); rotate_left; clear_value x; rotate_right; unfold x; clear x)
    | (extract_lets +onlyGivenNames x; unfold x; clear x)
    | (extract_lets +onlyGivenNames x; clear x)
    | with_reducible apply keep_ite | split | with_reducible apply upd_tallies h | dsimp only | assumption | rfl)

theorem keep_sendSweep (hm : 65536 ||| m = m) {b : Block} (hb : P b) (p : Nat) (k : Sys2Proof.Packet) : P (sendSweep b
    p k) := by
  unfold sendSweep
  repeat' (first
    | with_reducible assumption | intro _ | exact bits_sub (by decide) hm | with_reducible apply keep_modPort h
    | with_reducible apply keep_ite | split | dsimp only | assumption | rfl)

theorem keep_gopFail (hm : 2293792 ||| m = m) {b : Block} (hb : P b) (s : Nat) (cause : Nat) : P (gopFail b s cause)
    := by
  unfold gopFail
  repeat' (first
    | with_reducible assumption | intro _ | exact bits_sub (by decide) hm
    | (extract_lets +onlyGivenNames x; refine keep_cut (p := P x) ?_ (fun kx => ?_); rotate_left; clear_value x; rotate_right; unfold x; clear x)
    | (extract_lets +onlyGivenNames x; unfold x; clear x)
    | (extract_lets +onlyGivenNames x; clear x)
    | (with_reducible refine keep_forEach _ _ ?_ ?_) | with_reducible apply keep_gopUnwait h
    | with_reducible apply keep_setGop h | with_reducible apply keep_portEv h | with_reducible apply keep_sendSweep h
    | with_reducible apply keep_ite | split | dsimp only | assumption | rfl)

theorem keep_gopArm (hm : 19071033 ||| m = m) {b : Block} (hb : P b) (s : Nat) : P (gopArm b s) := by
  unfold gopArm
  repeat' (first
    | with_reducible assumption | intro _ | exact bits_sub (by decide) hm
    | (extract_lets +onlyGivenNames x; refine keep_cut (p := P x) ?_ (fun kx => ?_); rotate_left; clear_value x; rotate_right; unfold x; clear x)
    | (extract_lets +onlyGivenNames x; unfold x; clear x)
    | (extract_lets +onlyGivenNames x; clear x)
    | with_reducible apply keep_modGop h | with_reducible apply keep_gopFail h | with_reducible apply keep_addWaiter h
    | with_reducible apply keep_ite | split | dsimp only | assumption | rfl)

theorem keep_toChildren (hm : 2293792 ||| m = m) {b : Block} (hb : P b) (s root : Nat) (k : Packet) (go : Block → Block)
    (hg : ∀ b, P b → P (go b)) : P (toChildren b s root k go) := by
  unfold toChildren
  dsimp only
  split
  · exact hg _ (keep_forEach _ _ hb (fun _ _ hb => keep_sendSweep h (bits_sub (by decide) hm) hb _ _))
  · exact keep_gopFail h (bits_sub (by decide) hm) hb _ _

theorem keep_castStep (hm : 19095585 ||| m = m) {b : Block} (hb : P b) (s : Nat) : P (castStep b s) := by
  unfold castStep
  repeat' (first
    | with_reducible assumption | intro _ | exact bits_sub (by decide) hm
    | (extract_lets +onlyGivenNames x; refine keep_cut (p := P x) ?_ (fun kx => ?_); rotate_left; clear_value x; rotate_right; unfold x; clear x)
    | (extract_lets +onlyGivenNames x; unfold x; clear x)
    | (extract_lets +onlyGivenNames x; clear x)
    | with_reducible apply keep_modGop h | with_reducible apply keep_toChildren h
    | with_reducible apply keep_hubPost h | with_reducible apply keep_count h | with_reducible apply keep_ite | split
    | dsimp only | assumption | rfl)

theorem keep_gopComplete (hm : 19071097 ||| m = m) {b : Block} (hb : P b) (s : Nat) : P (gopComplete b s) := by
  unfold gopComplete
  repeat' (first
    | with_reducible assumption | intro _ | exact bits_sub (by decide) hm
    | (extract_lets +onlyGivenNames x; refine keep_cut (p := P x) ?_ (fun kx => ?_); rotate_left; clear_value x; rotate_right; unfold x; clear x)
    | (extract_lets +onlyGivenNames x; unfold x; clear x)
    | (extract_lets +onlyGivenNames x; clear x)
    | with_reducible apply keep_pushAdd h | with_reducible apply keep_gopUnwait h | with_reducible apply keep_modGop h
    | with_reducible apply keep_gopArm h | with_reducible apply keep_ite | split | dsimp only | assumption | rfl)

theorem keep_snapCounters (hm : 33554433 ||| m = m) {b : Block} (hb : P b) : P (snapCounters b) := by
  unfold snapCounters
  repeat' (first
    | with_reducible assumption | intro _ | exact bits_sub (by decide) hm
    | (extract_lets +onlyGivenNames x; refine keep_cut (p := P x) ?_ (fun kx => ?_); rotate_left; clear_value x; rotate_right; unfold x; clear x)
    | (extract_lets +onlyGivenNames x; unfold x; clear x)
    | (extract_lets +onlyGivenNames x; clear x)
    | with_reducible apply keep_rsetBits h | with_reducible apply keep_ite | split
    | with_reducible apply upd_frzTime h | dsimp only | assumption | rfl)

theorem keep_snapFreeze (hm : 51011585 ||| m = m) {b : Block} (hb : P b) (s : Nat) : P (snapFreeze b s) := by
  unfold snapFreeze
  repeat' (first
    | with_reducible assumption | intro _ | exact bits_sub (by decide) hm
    | (extract_lets +onlyGivenNames x; refine keep_cut (p := P x) ?_ (fun kx => ?_); rotate_left; clear_value x; rotate_right; unfold x; clear x)
    | (extract_lets +onlyGivenNames x; unfold x; clear x)
    | (extract_lets +onlyGivenNames x; clear x)
    | with_reducible apply keep_modGop h | with_reducible apply keep_count h | with_reducible apply keep_hubPost h
    | with_reducible apply keep_snapCounters h | with_reducible apply keep_ite | split
    | with_reducible apply upd_colour h | dsimp only | assumption | rfl)

theorem keep_gopRelease (hm : 53174393 ||| m = m) {b : Block} (hb : P b) (s : Nat) (root : Nat) : P (gopRelease b s
    root) := by
  unfold gopRelease
  repeat' (first
    | with_reducible assumption | intro _ | exact bits_sub (by decide) hm
    | (extract_lets +onlyGivenNames x; refine keep_cut (p := P x) ?_ (fun kx => ?_); rotate_left; clear_value x; rotate_right; unfold x; clear x)
    | (extract_lets +onlyGivenNames x; unfold x; clear x)
    | (extract_lets +onlyGivenNames x; clear x)
    | with_reducible apply keep_toChildren h | with_reducible apply keep_gopComplete h
    | with_reducible apply keep_modGop h | with_reducible apply keep_snapFreeze h | with_reducible apply keep_ite
    | split | dsimp only | assumption | rfl)

theorem keep_gopUp (hm : 2293792 ||| m = m) {b : Block} (hb : P b) (s : Nat) (root : Nat) : P (gopUp b s root) := by
  unfold gopUp
  repeat' (first
    | with_reducible assumption | intro _ | exact bits_sub (by decide) hm | with_reducible apply keep_sendSweep h
    | with_reducible apply keep_modGop h | with_reducible apply keep_gopFail h | with_reducible apply keep_ite | split
    | dsimp only | assumption | rfl)

theorem keep_gatherStep (hm : 53174393 ||| m = m) {b : Block} (hb : P b) (s : Nat) (root : Nat) : P (gatherStep b s
    root) := by
  unfold gatherStep
  repeat' (first
    | with_reducible assumption | intro _ | exact bits_sub (by decide) hm
    | (extract_lets +onlyGivenNames x; refine keep_cut (p := P x) ?_ (fun kx => ?_); rotate_left; clear_value x; rotate_right; unfold x; clear x)
    | (extract_lets +onlyGivenNames x; unfold x; clear x)
    | (extract_lets +onlyGivenNames x; clear x)
    | with_reducible apply keep_gopRelease h | with_reducible apply keep_gopUp h | with_reducible apply keep_ite
    | split | dsimp only | assumption | rfl)

theorem keep_dropData (hm : 65553 ||| m = m) {b : Block} (hb : P b) : P (dropData b) := by
  unfold dropData
  repeat' (first
    | with_reducible assumption | intro _ | exact bits_sub (by decide) hm
    | (extract_lets +onlyGivenNames x; refine keep_cut (p := P x) ?_ (fun kx => ?_); rotate_left; clear_value x; rotate_right; unfold x; clear x)
    | (extract_lets +onlyGivenNames x; unfold x; clear x)
    | (extract_lets +onlyGivenNames x; clear x)
    | (with_reducible refine keep_forEach _ _ ?_ ?_) | with_reducible apply keep_rcount h
    | with_reducible apply keep_setPort h | with_reducible apply keep_modStn h | with_reducible apply keep_ite | split
    | dsimp only | assumption | rfl)

theorem keep_emptyPool (hm : 65552 ||| m = m) {b : Block} (hb : P b) (p : Nat) : P (emptyPool b p) := by
  unfold emptyPool
  repeat' (first
    | with_reducible assumption | intro _ | exact bits_sub (by decide) hm
    | (extract_lets +onlyGivenNames x; refine keep_cut (p := P x) ?_ (fun kx => ?_); rotate_left; clear_value x; rotate_right; unfold x; clear x)
    | (extract_lets +onlyGivenNames x; unfold x; clear x)
    | (extract_lets +onlyGivenNames x; clear x)
    | with_reducible apply keep_ite | split | with_reducible apply upd_stations_ports h | dsimp only | assumption
    | rfl)

theorem keep_portSync (hm : 65552 ||| m = m) {b : Block} (hb : P b) (p : Nat) (out : List OutPkt) : P (portSync b p
    out) := by
  unfold portSync
  repeat' (first
    | with_reducible assumption | intro _ | exact bits_sub (by decide) hm
    | (extract_lets +onlyGivenNames x; refine keep_cut (p := P x) ?_ (fun kx => ?_); rotate_left; clear_value x; rotate_right; unfold x; clear x)
    | (extract_lets +onlyGivenNames x; unfold x; clear x)
    | (extract_lets +onlyGivenNames x; clear x)
    | with_reducible apply keep_emptyPool h | with_reducible apply keep_setPort h | with_reducible apply keep_ite
    | split | dsimp only | assumption | rfl)

theorem keep_histWrite (hm : 16 ||| m = m) {b : Block} (hb : P b) {n w : Nat} {b' : Block} (e : histWrite b n w = .ok
    b') : P b' := by
  unfold histWrite at e
  dsimp only at e
  split at e
  · cases e
  · cases e
    exact keep_modStn h (bits_sub (by decide) hm) hb _ _

theorem keep_nearStore (hm : 17 ||| m = m) {b : Block} (hb : P b) (n : Nat) (cfg : Nat) : P (nearStore b n cfg) := by
  unfold nearStore
  repeat' (first
    | with_reducible assumption | intro _ | exact bits_sub (by decide) hm
    | (extract_lets +onlyGivenNames x; refine keep_cut (p := P x) ?_ (fun kx => ?_); rotate_left; clear_value x; rotate_right; unfold x; clear x)
    | (extract_lets +onlyGivenNames x; unfold x; clear x)
    | (extract_lets +onlyGivenNames x; clear x)
    | with_reducible apply keep_rset h | with_reducible apply keep_modStn h | with_reducible apply keep_ite | split
    | dsimp only | assumption | rfl)

theorem keep_enqueue (hm : 18907137 ||| m = m) {b : Block} (hb : P b) (r : Rec) : P (enqueue b r) := by
  unfold enqueue
  repeat' (first
    | with_reducible assumption | intro _ | exact bits_sub (by decide) hm
    | (extract_lets +onlyGivenNames x; refine keep_cut (p := P x) ?_ (fun kx => ?_); rotate_left; clear_value x; rotate_right; unfold x; clear x)
    | (extract_lets +onlyGivenNames x; unfold x; clear x)
    | (extract_lets +onlyGivenNames x; clear x)
    | with_reducible apply keep_modRef h | with_reducible apply keep_count h | with_reducible apply keep_setCause h
    | with_reducible apply keep_ite | split | dsimp only | assumption | rfl)

theorem keep_insertSummary (hm : 18907137 ||| m = m) {b : Block} (hb : P b) (src : Nat) : P (insertSummary b src) :=
    by
  unfold insertSummary
  repeat' (first
    | with_reducible assumption | intro _ | exact bits_sub (by decide) hm
    | (extract_lets +onlyGivenNames x; refine keep_cut (p := P x) ?_ (fun kx => ?_); rotate_left; clear_value x; rotate_right; unfold x; clear x)
    | (extract_lets +onlyGivenNames x; unfold x; clear x)
    | (extract_lets +onlyGivenNames x; clear x)
    | with_reducible apply keep_setSrc h | with_reducible apply keep_enqueue h | with_reducible apply keep_ite | split
    | dsimp only | assumption | rfl)

theorem keep_popRec (hm : 18907137 ||| m = m) {b : Block} (hb : P b) : P (popRec b) := by
  unfold popRec
  repeat' (first
    | with_reducible assumption | intro _ | exact bits_sub (by decide) hm
    | (extract_lets +onlyGivenNames x; refine keep_cut (p := P x) ?_ (fun kx => ?_); rotate_left; clear_value x; rotate_right; unfold x; clear x)
    | (extract_lets +onlyGivenNames x; unfold x; clear x)
    | (extract_lets +onlyGivenNames x; clear x)
    | with_reducible apply keep_modRef h | with_reducible apply keep_insertSummary h | with_reducible apply keep_ite
    | split | dsimp only | assumption | rfl)

theorem keep_setMask (hm : 32769 ||| m = m) {b : Block} (hb : P b) (vec : Nat) (w : Nat) : P (setMask b vec w) := by
  unfold setMask
  repeat' (first
    | with_reducible assumption | intro _ | exact bits_sub (by decide) hm | with_reducible apply keep_irqAfter h
    | with_reducible apply keep_rset h | with_reducible apply keep_ite | split | dsimp only | assumption | rfl)

theorem keep_storeReg (hm : 1 ||| m = m) {b : Block} (hb : P b) (pg : Page) (off : Nat) (r : RegRow) (w : Nat) : P
    (storeReg b pg off r w) := by
  unfold storeReg
  repeat' (first
    | with_reducible assumption | intro _ | exact bits_sub (by decide) hm | with_reducible apply keep_rset h
    | with_reducible apply keep_ite | split | dsimp only | assumption | rfl)

theorem keep_applyAdds (hm : 1092780089 ||| m = m) {b : Block} (hb : P b) (t : Nat) (l : List Add) : P (applyAdds b t
    l) := by
  unfold applyAdds
  repeat' (first
    | with_reducible assumption | intro _ | exact bits_sub (by decide) hm
    | (extract_lets +onlyGivenNames x; refine keep_cut (p := P x) ?_ (fun kx => ?_); rotate_left; clear_value x; rotate_right; unfold x; clear x)
    | (extract_lets +onlyGivenNames x; unfold x; clear x)
    | (extract_lets +onlyGivenNames x; clear x)
    | (with_reducible refine keep_forEach _ _ ?_ ?_) | with_reducible apply keep_setTal h
    | with_reducible apply keep_addRel h | with_reducible apply keep_rcount h | with_reducible apply keep_dataRec h
    | with_reducible apply keep_count h | with_reducible apply keep_testWaiters h | with_reducible apply keep_ite
    | split | dsimp only | assumption | rfl)

theorem keep_talAddWrite (hm : 1092780089 ||| m = m) {b : Block} (hb : P b) (t : Nat) (w : Nat) : P (talAddWrite b t
    w) := by
  unfold talAddWrite
  repeat' (first
    | with_reducible assumption | intro _ | exact bits_sub (by decide) hm | with_reducible apply keep_applyAdds h
    | with_reducible apply keep_ite | split | dsimp only | assumption | rfl)

theorem keep_cmdDone (hm : 1081345 ||| m = m) {b : Block} (hb : P b) (result : Nat) : P (cmdDone b result) := by
  unfold cmdDone
  repeat' (first
    | with_reducible assumption | intro _ | exact bits_sub (by decide) hm | with_reducible apply keep_setCause h
    | with_reducible apply keep_modVault h | with_reducible apply keep_ite | split | dsimp only | assumption | rfl)

theorem keep_setObj (hm : 1048576 ||| m = m) {b : Block} (hb : P b) (o : Nat) (x0 : Obj) : P (setObj b o x0) := by
  unfold setObj
  repeat' (first
    | with_reducible assumption | intro _ | exact bits_sub (by decide) hm | with_reducible apply keep_modVault h
    | with_reducible apply keep_ite | split | dsimp only | assumption | rfl)

theorem keep_cmdClose (hm : 1081345 ||| m = m) {b : Block} (hb : P b) (obj : Nat) (headers : List Sys2Proof.DWord) : P
    (cmdClose b obj headers) := by
  unfold cmdClose
  repeat' (first
    | with_reducible assumption | intro _ | exact bits_sub (by decide) hm
    | (extract_lets +onlyGivenNames x; refine keep_cut (p := P x) ?_ (fun kx => ?_); rotate_left; clear_value x; rotate_right; unfold x; clear x)
    | (extract_lets +onlyGivenNames x; unfold x; clear x)
    | (extract_lets +onlyGivenNames x; clear x)
    | with_reducible apply keep_cmdDone h | with_reducible apply keep_modVault h | with_reducible apply keep_setObj h
    | with_reducible apply keep_ite | split | dsimp only | assumption | rfl)

theorem keep_createNew (hm : 1081345 ||| m = m) {b : Block} (hb : P b) (p : Params) (obj : Nat) (len : Nat) (arg :
    Nat) (x0 : Obj) : P (createNew p b obj len arg x0) := by
  unfold createNew
  repeat' (first
    | with_reducible assumption | intro _ | exact bits_sub (by decide) hm
    | (extract_lets +onlyGivenNames x; refine keep_cut (p := P x) ?_ (fun kx => ?_); rotate_left; clear_value x; rotate_right; unfold x; clear x)
    | (extract_lets +onlyGivenNames x; unfold x; clear x)
    | (extract_lets +onlyGivenNames x; clear x)
    | with_reducible apply keep_cmdDone h | with_reducible apply keep_setObj h | with_reducible apply keep_ite | split
    | dsimp only | assumption | rfl)

theorem keep_cmdCreate (hm : 1081345 ||| m = m) {b : Block} (hb : P b) (p : Params) (obj : Nat) : P (cmdCreate p b
    obj) := by
  unfold cmdCreate
  repeat' (first
    | with_reducible assumption | intro _ | exact bits_sub (by decide) hm | with_reducible apply keep_createNew h
    | with_reducible apply keep_ite | split | dsimp only | assumption | rfl)

theorem keep_cmdDelete (hm : 1081345 ||| m = m) {b : Block} (hb : P b) (obj : Nat) : P (cmdDelete b obj) := by
  unfold cmdDelete
  repeat' (first
    | with_reducible assumption | intro _ | exact bits_sub (by decide) hm
    | (extract_lets +onlyGivenNames x; refine keep_cut (p := P x) ?_ (fun kx => ?_); rotate_left; clear_value x; rotate_right; unfold x; clear x)
    | (extract_lets +onlyGivenNames x; unfold x; clear x)
    | (extract_lets +onlyGivenNames x; clear x)
    | with_reducible apply keep_cmdDone h | with_reducible apply keep_modVault h | with_reducible apply keep_setObj h
    | with_reducible apply keep_ite | split | dsimp only | assumption | rfl)

theorem keep_modVCh (hm : 1048576 ||| m = m) {b : Block} (hb : P b) (c : Nat) (f : VChan → VChan) : P (modVCh b c f)
    := by
  unfold modVCh
  repeat' (first
    | with_reducible assumption | intro _ | exact bits_sub (by decide) hm | with_reducible apply keep_modVault h
    | with_reducible apply keep_ite | split | dsimp only | assumption | rfl)

theorem keep_retirePos (hm : 3178497 ||| m = m) {b : Block} (hb : P b) (pos : Nat) : P (retirePos b pos) := by
  unfold retirePos
  repeat' (first
    | with_reducible assumption | intro _ | exact bits_sub (by decide) hm
    | (extract_lets +onlyGivenNames x; refine keep_cut (p := P x) ?_ (fun kx => ?_); rotate_left; clear_value x; rotate_right; unfold x; clear x)
    | (extract_lets +onlyGivenNames x; unfold x; clear x)
    | (extract_lets +onlyGivenNames x; clear x)
    | with_reducible apply keep_modVault h | with_reducible apply keep_vaultEv h
    | with_reducible apply keep_setCause h | with_reducible apply keep_ite | split | dsimp only | assumption | rfl)

theorem keep_blockFail (hm : 3178497 ||| m = m) {b : Block} (hb : P b) (ch : Nat) (pos : Nat) : P (blockFail b ch
    pos).2 := by
  unfold blockFail
  repeat' (first
    | with_reducible assumption | intro _ | exact bits_sub (by decide) hm
    | (extract_lets +onlyGivenNames x; refine keep_cut (p := P x) ?_ (fun kx => ?_); rotate_left; clear_value x; rotate_right; unfold x; clear x)
    | (extract_lets +onlyGivenNames x; unfold x; clear x)
    | (extract_lets +onlyGivenNames x; clear x)
    | with_reducible apply keep_modVCh h | with_reducible apply keep_retirePos h | with_reducible apply keep_ite
    | split | dsimp only | assumption | rfl)

theorem keep_blockFail_eq (hm : 3178497 ||| m = m) {b : Block} (hb : P b) {ch : Nat} {pos : Nat} {y : Bool} {b' :
    Block} (e : blockFail b ch pos = (y, b')) : P b' := by
  have := keep_blockFail h hm hb ch pos
  rwa [e] at this

theorem keep_blkFails (hm : 3178497 ||| m = m) {b : Block} (hb : P b) (ch : Nat) (blk : Nat) : P (blkFails b ch blk)
    := by
  unfold blkFails
  repeat' (first
    | with_reducible assumption | intro _ | exact bits_sub (by decide) hm | with_reducible apply keep_vaultEv h
    | with_reducible apply keep_blockFail h | (with_reducible refine keep_blockFail_eq h ?_ ?_ (by assumption))
    | with_reducible apply keep_modVCh h | with_reducible apply keep_ite | split | dsimp only | assumption | rfl)

theorem keep_cmdFormat (hm : 3178497 ||| m = m) {b : Block} (hb : P b) (p : Params) (geometryOk : Bool) (bad : List
    (Nat × Nat)) : P (cmdFormat p b geometryOk bad) := by
  unfold cmdFormat
  repeat' (first
    | with_reducible assumption | intro _ | exact bits_sub (by decide) hm
    | (extract_lets +onlyGivenNames x; refine keep_cut (p := P x) ?_ (fun kx => ?_); rotate_left; clear_value x; rotate_right; unfold x; clear x)
    | (extract_lets +onlyGivenNames x; unfold x; clear x)
    | (extract_lets +onlyGivenNames x; clear x)
    | (with_reducible refine keep_forEach _ _ ?_ ?_) | with_reducible apply keep_cmdDone h
    | with_reducible apply keep_modVault h | with_reducible apply keep_blkFails h | with_reducible apply keep_ite
    | split | dsimp only | assumption | rfl)

theorem keep_cmdMount (hm : 1081345 ||| m = m) {b : Block} (hb : P b) : P (cmdMount b) := by
  unfold cmdMount
  repeat' (first
    | with_reducible assumption | intro _ | exact bits_sub (by decide) hm | with_reducible apply keep_cmdDone h
    | with_reducible apply keep_modVault h | with_reducible apply keep_ite | split | dsimp only | assumption | rfl)

theorem keep_freeMed (hm : 2147483648 ||| m = m) {b : Block} (hb : P b) : P (freeMed b).2 := by
  unfold freeMed
  repeat' (first
    | with_reducible assumption | intro _ | exact bits_sub (by decide) hm | with_reducible apply keep_draw h
    | (with_reducible refine keep_draw_eq h ?_ ?_ (by assumption)) | with_reducible apply keep_ite | split
    | dsimp only | assumption | rfl)

theorem keep_freeMed_eq (hm : 2147483648 ||| m = m) {b : Block} (hb : P b)  {y : Med} {b' : Block} (e : freeMed b =
    (y, b')) : P b' := by
  have := keep_freeMed h hm hb
  rwa [e] at this

theorem keep_vtCmd (hm : 2150662145 ||| m = m) {b : Block} (hb : P b) {p : Params} {w : Nat} {med : Option Med} {b' :
    Block} (e : vtCmd p b w med = .ok b') : P b' := by
  unfold vtCmd at e
  split at e
  · cases e
  · injection e with e
    subst e
    repeat' (first
    | with_reducible assumption | intro _ | exact bits_sub (by decide) hm
    | (extract_lets +onlyGivenNames x; refine keep_cut (p := P x) ?_ (fun kx => ?_); rotate_left; clear_value x; rotate_right; unfold x; clear x)
    | (extract_lets +onlyGivenNames x; unfold x; clear x) | (extract_lets +onlyGivenNames x; clear x)
    | with_reducible apply keep_rset h | with_reducible apply keep_freeMed h
    | (with_reducible refine keep_freeMed_eq h ?_ ?_ (by assumption)) | with_reducible apply keep_cmdCreate h
    | with_reducible apply keep_cmdClose h | with_reducible apply keep_cmdDelete h
    | with_reducible apply keep_cmdFormat h | with_reducible apply keep_cmdMount h | with_reducible apply keep_ite
    | split

    | dsimp only | assumption | rfl)

theorem keep_commitReq (hm : 34561 ||| m = m) {b : Block} (hb : P b) (q : Nat) (revoke : Bool) : P (commitReq b q
    revoke) := by
  unfold commitReq
  repeat' (first
    | with_reducible assumption | intro _ | exact bits_sub (by decide) hm
    | (extract_lets +onlyGivenNames x; refine keep_cut (p := P x) ?_ (fun kx => ?_); rotate_left; clear_value x; rotate_right; unfold x; clear x)
    | (extract_lets +onlyGivenNames x; unfold x; clear x)
    | (extract_lets +onlyGivenNames x; clear x)
    | with_reducible apply keep_setPart h | with_reducible apply keep_beginCommit h
    | with_reducible apply keep_failCommit h | with_reducible apply keep_ite | split | dsimp only | assumption | rfl)

theorem keep_markStale (hm : 12 ||| m = m) {b : Block} (hb : P b) (q : Nat) : P (markStale b q) := by
  unfold markStale
  repeat' (first
    | with_reducible assumption | intro _ | exact bits_sub (by decide) hm
    | (extract_lets +onlyGivenNames x; refine keep_cut (p := P x) ?_ (fun kx => ?_); rotate_left; clear_value x; rotate_right; unfold x; clear x)
    | (extract_lets +onlyGivenNames x; unfold x; clear x)
    | (extract_lets +onlyGivenNames x; clear x)
    | with_reducible apply keep_ite | split | with_reducible apply upd_chans_strands h | dsimp only | assumption | rfl)

theorem keep_offsideAll (hm : 18932157 ||| m = m) {b : Block} (hb : P b) (p : Params) (q : Nat) : P (offsideAll p b q)
    := by
  unfold offsideAll
  repeat' (first
    | with_reducible assumption | intro _ | exact bits_sub (by decide) hm
    | (extract_lets +onlyGivenNames x; refine keep_cut (p := P x) ?_ (fun kx => ?_); rotate_left; clear_value x; rotate_right; unfold x; clear x)
    | (extract_lets +onlyGivenNames x; unfold x; clear x)
    | (extract_lets +onlyGivenNames x; clear x)
    | (with_reducible refine keep_forEach _ _ ?_ ?_) | with_reducible apply keep_modPart h
    | with_reducible apply keep_giveOffside h | with_reducible apply keep_ite | split
    | with_reducible apply upd_walks h | dsimp only | assumption | rfl)

theorem keep_xlatOff (hm : 18932157 ||| m = m) {b : Block} (hb : P b) (p : Params) (q : Nat) : P (xlatOff p b q) := by
  unfold xlatOff
  repeat' (first
    | with_reducible assumption | intro _ | exact bits_sub (by decide) hm | with_reducible apply keep_offsideAll h
    | with_reducible apply keep_markStale h | with_reducible apply keep_ite | split | dsimp only | assumption | rfl)

theorem keep_xpCtrl (hm : 18933693 ||| m = m) {b : Block} (hb : P b) (p : Params) (q : Nat) (w : Nat) : P (xpCtrl p b
    q w) := by
  unfold xpCtrl
  repeat' (first
    | with_reducible assumption | intro _ | exact bits_sub (by decide) hm
    | (extract_lets +onlyGivenNames x; refine keep_cut (p := P x) ?_ (fun kx => ?_); rotate_left; clear_value x; rotate_right; unfold x; clear x)
    | (extract_lets +onlyGivenNames x; unfold x; clear x)
    | (extract_lets +onlyGivenNames x; clear x)
    | with_reducible apply keep_rset h | with_reducible apply keep_xlatOff h | with_reducible apply keep_commitReq h
    | with_reducible apply keep_ite | split | dsimp only | assumption | rfl)

theorem keep_setWsh (hm : 2 ||| m = m) {b : Block} (hb : P b) (t : Sys2Proof.Tab Sys2Proof.Word) : P (setWsh b t) :=
    by
  unfold setWsh
  repeat' (first
    | with_reducible assumption | intro _ | exact bits_sub (by decide) hm
    | (extract_lets +onlyGivenNames x; refine keep_cut (p := P x) ?_ (fun kx => ?_); rotate_left; clear_value x; rotate_right; unfold x; clear x)
    | (extract_lets +onlyGivenNames x; unfold x; clear x)
    | (extract_lets +onlyGivenNames x; clear x)
    | with_reducible apply keep_ite | split | with_reducible apply upd_cfg h | dsimp only | assumption | rfl)

theorem keep_refuseDec (hm : 2097155 ||| m = m) {b : Block} (hb : P b) (x0 : Sys2Proof.Access) : P (refuseDec b x0) :=
    by
  unfold refuseDec
  repeat' (first
    | with_reducible assumption | intro _ | exact bits_sub (by decide) hm | with_reducible apply keep_respond h
    | with_reducible apply keep_rcount h | with_reducible apply keep_cfgError h | with_reducible apply keep_ite
    | split | dsimp only | assumption | rfl)

theorem keep_clockEvents (hm : 16777217 ||| m = m) {b : Block} (hb : P b) (p : Params) : P (clockEvents p b) := by
  unfold clockEvents
  repeat' (first
    | with_reducible assumption | intro _ | exact bits_sub (by decide) hm
    | (extract_lets +onlyGivenNames x; refine keep_cut (p := P x) ?_ (fun kx => ?_); rotate_left; clear_value x; rotate_right; unfold x; clear x)
    | (extract_lets +onlyGivenNames x; unfold x; clear x)
    | (extract_lets +onlyGivenNames x; clear x)
    | (with_reducible refine keep_forEach _ _ ?_ ?_) | with_reducible apply keep_count h
    | with_reducible apply keep_ite | split | dsimp only | assumption | rfl)

theorem keep_aoTick (hm : 219152385 ||| m = m) {b : Block} (hb : P b) (p : Params) : P (aoTick p b) := by
  unfold aoTick
  repeat' (first
    | with_reducible assumption | intro _ | exact bits_sub (by decide) hm
    | (extract_lets +onlyGivenNames x; refine keep_cut (p := P x) ?_ (fun kx => ?_); rotate_left; clear_value x; rotate_right; unfold x; clear x)
    | (extract_lets +onlyGivenNames x; unfold x; clear x)
    | (extract_lets +onlyGivenNames x; clear x)
    | with_reducible apply keep_modVault h | with_reducible apply keep_clockEvents h | with_reducible apply keep_ite
    | split | with_reducible apply upd_aoTime_ponTime h | dsimp only | assumption | rfl)

theorem keep_applyWake (hm : 1092780089 ||| m = m) {b : Block} (hb : P b) (n : Nat) : P (applyWake b n) := by
  unfold applyWake
  repeat' (first
    | with_reducible assumption | intro _ | exact bits_sub (by decide) hm
    | (extract_lets +onlyGivenNames x; refine keep_cut (p := P x) ?_ (fun kx => ?_); rotate_left; clear_value x; rotate_right; unfold x; clear x)
    | (extract_lets +onlyGivenNames x; unfold x; clear x)
    | (extract_lets +onlyGivenNames x; clear x)
    | (with_reducible refine keep_forEach _ _ ?_ ?_) | with_reducible apply keep_modStn h
    | with_reducible apply keep_applyAdds h | with_reducible apply keep_ite | split | dsimp only | assumption | rfl)

theorem keep_batchLanded (hm : 18907393 ||| m = m) {b : Block} (hb : P b) (q : Nat) (err : Bool) : P (batchLanded b q
    err) := by
  unfold batchLanded
  repeat' (first
    | with_reducible assumption | intro _ | exact bits_sub (by decide) hm
    | (extract_lets +onlyGivenNames x; refine keep_cut (p := P x) ?_ (fun kx => ?_); rotate_left; clear_value x; rotate_right; unfold x; clear x)
    | (extract_lets +onlyGivenNames x; unfold x; clear x)
    | (extract_lets +onlyGivenNames x; clear x)
    | with_reducible apply keep_setPart h | with_reducible apply keep_memErr h | with_reducible apply keep_setCause h
    | with_reducible apply keep_count h | with_reducible apply keep_ite | split | dsimp only | assumption | rfl)

theorem keep_beginBarrier (hm : 16777233 ||| m = m) {b : Block} (hb : P b) (n : Nat) : P (beginBarrier b n) := by
  unfold beginBarrier
  repeat' (first
    | with_reducible assumption | intro _ | exact bits_sub (by decide) hm
    | (extract_lets +onlyGivenNames x; refine keep_cut (p := P x) ?_ (fun kx => ?_); rotate_left; clear_value x; rotate_right; unfold x; clear x)
    | (extract_lets +onlyGivenNames x; unfold x; clear x)
    | (extract_lets +onlyGivenNames x; clear x)
    | with_reducible apply keep_rcount h | with_reducible apply keep_count h | with_reducible apply keep_setStn h
    | with_reducible apply keep_ite | split | dsimp only | assumption | rfl)

theorem keep_fmtStep (hm : 1081345 ||| m = m) {b : Block} (hb : P b) (p : Params) (ch : Nat) (blk : Nat) : P (fmtStep
    p b ch blk) := by
  unfold fmtStep
  repeat' (first
    | with_reducible assumption | intro _ | exact bits_sub (by decide) hm
    | (extract_lets +onlyGivenNames x; refine keep_cut (p := P x) ?_ (fun kx => ?_); rotate_left; clear_value x; rotate_right; unfold x; clear x)
    | (extract_lets +onlyGivenNames x; unfold x; clear x)
    | (extract_lets +onlyGivenNames x; clear x)
    | with_reducible apply keep_vaultSettle h | with_reducible apply keep_cmdDone h
    | with_reducible apply keep_modVault h | with_reducible apply keep_ite | split | dsimp only | assumption | rfl)

theorem keep_blkErased (hm : 28344321 ||| m = m) {b : Block} (hb : P b) (p : Params) (ch : Nat) (blk : Nat) : P
    (blkErased p b ch blk) := by
  unfold blkErased
  repeat' (first
    | with_reducible assumption | intro _ | exact bits_sub (by decide) hm
    | (extract_lets +onlyGivenNames x; refine keep_cut (p := P x) ?_ (fun kx => ?_); rotate_left; clear_value x; rotate_right; unfold x; clear x)
    | (extract_lets +onlyGivenNames x; unfold x; clear x)
    | (extract_lets +onlyGivenNames x; clear x)
    | with_reducible apply keep_modVCh h | with_reducible apply keep_count h | with_reducible apply keep_logErased h
    | with_reducible apply keep_fmtStep h | with_reducible apply keep_ite | split | dsimp only | assumption | rfl)

theorem keep_brokenMark (hm : 256 ||| m = m) {b : Block} (hb : P b) (q : Nat) : P (brokenMark b q) := by
  unfold brokenMark
  repeat' (first
    | with_reducible assumption | intro _ | exact bits_sub (by decide) hm | with_reducible apply keep_modPart h
    | with_reducible apply keep_ite | split | dsimp only | assumption | rfl)

theorem keep_breakPart (hm : 2097409 ||| m = m) {b : Block} (hb : P b) (q : Nat) (addr : Nat) : P (breakPart b q addr)
    := by
  unfold breakPart
  repeat' (first
    | with_reducible assumption | intro _ | exact bits_sub (by decide) hm | with_reducible apply keep_memErr h
    | with_reducible apply keep_brokenMark h | with_reducible apply keep_ite | split | dsimp only | assumption | rfl)

theorem keep_bumpRead (hm : 8 ||| m = m) {b : Block} (hb : P b) (n : Nat) (k : Nat) (o : Op) (br : Burst) : P
    (bumpRead b n k o br) := by
  unfold bumpRead
  repeat' (first
    | with_reducible assumption | intro _ | exact bits_sub (by decide) hm | with_reducible apply keep_modOp h
    | with_reducible apply keep_ite | split | dsimp only | assumption | rfl)

theorem keep_modGrp (hm : 4194304 ||| m = m) {b : Block} (hb : P b) (g : Nat) (f : Group → Group) : P (modGrp b g f)
    := by
  unfold modGrp
  repeat' (first
    | with_reducible assumption | intro _ | exact bits_sub (by decide) hm | with_reducible apply keep_modPwr h
    | with_reducible apply keep_ite | split | dsimp only | assumption | rfl)

theorem keep_capDrop (hm : 12615681 ||| m = m) {b : Block} (hb : P b) (g : Nat) (droop : Bool) : P (capDrop b g droop)
    := by
  unfold capDrop
  repeat' (first
    | with_reducible assumption | intro _ | exact bits_sub (by decide) hm
    | (extract_lets +onlyGivenNames x; refine keep_cut (p := P x) ?_ (fun kx => ?_); rotate_left; clear_value x; rotate_right; unfold x; clear x)
    | (extract_lets +onlyGivenNames x; unfold x; clear x)
    | (extract_lets +onlyGivenNames x; clear x)
    | with_reducible apply keep_modGrp h | with_reducible apply keep_rcount h | with_reducible apply keep_modMgmt h
    | with_reducible apply keep_setCause h | with_reducible apply keep_logAppend h | with_reducible apply keep_ite
    | split | dsimp only | assumption | rfl)

theorem keep_capRaise (hm : 4194304 ||| m = m) {b : Block} (hb : P b) (g : Nat) : P (capRaise b g) := by
  unfold capRaise
  repeat' (first
    | with_reducible assumption | intro _ | exact bits_sub (by decide) hm
    | (extract_lets +onlyGivenNames x; refine keep_cut (p := P x) ?_ (fun kx => ?_); rotate_left; clear_value x; rotate_right; unfold x; clear x)
    | (extract_lets +onlyGivenNames x; unfold x; clear x)
    | (extract_lets +onlyGivenNames x; clear x)
    | with_reducible apply keep_modGrp h | with_reducible apply keep_ite | split | dsimp only | assumption | rfl)

theorem keep_castRead (hm : 19071097 ||| m = m) {b : Block} (hb : P b) (s : Nat) (v : Sys2Proof.DWord) (err : Bool) :
    P (castRead b s v err) := by
  unfold castRead
  repeat' (first
    | with_reducible assumption | intro _ | exact bits_sub (by decide) hm
    | (extract_lets +onlyGivenNames x; refine keep_cut (p := P x) ?_ (fun kx => ?_); rotate_left; clear_value x; rotate_right; unfold x; clear x)
    | (extract_lets +onlyGivenNames x; unfold x; clear x)
    | (extract_lets +onlyGivenNames x; clear x)
    | with_reducible apply keep_gopFail h | with_reducible apply keep_count h | with_reducible apply keep_setGop h
    | with_reducible apply keep_toChildren h | with_reducible apply keep_gopComplete h | with_reducible apply keep_ite
    | split | dsimp only | assumption | rfl)

theorem keep_wipe (hm : 268435459 ||| m = m) {b : Block} (hb : P b) (pages : Nat → Bool) : P (wipe b pages) := by
  unfold wipe
  repeat' (first
    | with_reducible assumption | intro _ | exact bits_sub (by decide) hm
    | (extract_lets +onlyGivenNames x; refine keep_cut (p := P x) ?_ (fun kx => ?_); rotate_left; clear_value x; rotate_right; unfold x; clear x)
    | (extract_lets +onlyGivenNames x; unfold x; clear x)
    | (extract_lets +onlyGivenNames x; clear x)
    | (with_reducible refine keep_forEach _ _ ?_ ?_) | with_reducible apply keep_setRsh h
    | with_reducible apply keep_setWsh h | with_reducible apply keep_rset h | with_reducible apply keep_ite | split
    | with_reducible apply upd_regs_badRegs h | dsimp only | assumption | rfl)

theorem keep_chanReset (hm : 268435463 ||| m = m) {b : Block} (hb : P b) (n : Nat) : P (chanReset b n) := by
  unfold chanReset
  repeat' (first
    | with_reducible assumption | intro _ | exact bits_sub (by decide) hm
    | (extract_lets +onlyGivenNames x; refine keep_cut (p := P x) ?_ (fun kx => ?_); rotate_left; clear_value x; rotate_right; unfold x; clear x)
    | (extract_lets +onlyGivenNames x; unfold x; clear x)
    | (extract_lets +onlyGivenNames x; clear x)
    | with_reducible apply keep_wipe h | with_reducible apply keep_ite | split | with_reducible apply upd_chans h
    | dsimp only | assumption | rfl)

theorem keep_closePacked (hm : 1081345 ||| m = m) {b : Block} (hb : P b) (p : Params) (obj : Nat) (x0 : Obj) : P
    (closePacked p b obj x0) := by
  unfold closePacked
  repeat' (first
    | with_reducible assumption | intro _ | exact bits_sub (by decide) hm | with_reducible apply keep_cmdDone h
    | with_reducible apply keep_setObj h | with_reducible apply keep_ite | split | dsimp only | assumption | rfl)

theorem keep_closeEnd (hm : 1081345 ||| m = m) {b : Block} (hb : P b) (p : Params) : P (closeEnd p b) := by
  unfold closeEnd
  repeat' (first
    | with_reducible assumption | intro _ | exact bits_sub (by decide) hm
    | (extract_lets +onlyGivenNames x; refine keep_cut (p := P x) ?_ (fun kx => ?_); rotate_left; clear_value x; rotate_right; unfold x; clear x)
    | (extract_lets +onlyGivenNames x; unfold x; clear x)
    | (extract_lets +onlyGivenNames x; clear x)
    | with_reducible apply keep_vaultSettle h | with_reducible apply keep_cmdDone h
    | with_reducible apply keep_setObj h | with_reducible apply keep_closePacked h | with_reducible apply keep_ite
    | split | dsimp only | assumption | rfl)

theorem keep_codeError (hm : 301066173 ||| m = m) {b : Block} (hb : P b) (p : Params) (addr : Nat) : P (codeError p b
    addr) := by
  unfold codeError
  repeat' (first
    | with_reducible assumption | intro _ | exact bits_sub (by decide) hm
    | (extract_lets +onlyGivenNames x; refine keep_cut (p := P x) ?_ (fun kx => ?_); rotate_left; clear_value x; rotate_right; unfold x; clear x)
    | (extract_lets +onlyGivenNames x; unfold x; clear x)
    | (extract_lets +onlyGivenNames x; clear x)
    | with_reducible apply keep_recode h | with_reducible apply keep_pageErr h | with_reducible apply keep_srcEvent h
    | with_reducible apply keep_signalEv h | with_reducible apply keep_ite | split
    | with_reducible apply upd_badRegs h | dsimp only | assumption | rfl)

theorem keep_codecBind (hm : 8 ||| m = m) {b : Block} (hb : P b) (n : Nat) (k : Nat) : P (codecBind b n k) := by
  unfold codecBind
  repeat' (first
    | with_reducible assumption | intro _ | exact bits_sub (by decide) hm
    | (extract_lets +onlyGivenNames x; refine keep_cut (p := P x) ?_ (fun kx => ?_); rotate_left; clear_value x; rotate_right; unfold x; clear x)
    | (extract_lets +onlyGivenNames x; unfold x; clear x)
    | (extract_lets +onlyGivenNames x; clear x)
    | with_reducible apply keep_modOp h | with_reducible apply keep_ite | split | dsimp only | assumption | rfl)

theorem keep_commitDone (hm : 34561 ||| m = m) {b : Block} (hb : P b) (q : Nat) : P (commitDone b q) := by
  unfold commitDone
  repeat' (first
    | with_reducible assumption | intro _ | exact bits_sub (by decide) hm
    | (extract_lets +onlyGivenNames x; refine keep_cut (p := P x) ?_ (fun kx => ?_); rotate_left; clear_value x; rotate_right; unfold x; clear x)
    | (extract_lets +onlyGivenNames x; unfold x; clear x)
    | (extract_lets +onlyGivenNames x; clear x)
    | with_reducible apply keep_setCause h | with_reducible apply keep_endCommit h
    | with_reducible apply keep_modPart h | with_reducible apply keep_ite | split | dsimp only | assumption | rfl)

theorem keep_commitDrained (hm : 34561 ||| m = m) {b : Block} (hb : P b) (q : Nat) : P (commitDrained b q) := by
  unfold commitDrained
  repeat' (first
    | with_reducible assumption | intro _ | exact bits_sub (by decide) hm
    | (extract_lets +onlyGivenNames x; refine keep_cut (p := P x) ?_ (fun kx => ?_); rotate_left; clear_value x; rotate_right; unfold x; clear x)
    | (extract_lets +onlyGivenNames x; unfold x; clear x)
    | (extract_lets +onlyGivenNames x; clear x)
    | with_reducible apply keep_commitDone h | with_reducible apply keep_ite | split | dsimp only | assumption | rfl)

theorem keep_commitStart (hm : 18908929 ||| m = m) {b : Block} (hb : P b) (q : Nat) (table : List Sys2Proof.TabEntry)
    (err : Bool) : P (commitStart b q table err) := by
  unfold commitStart
  repeat' (first
    | with_reducible assumption | intro _ | exact bits_sub (by decide) hm
    | (extract_lets +onlyGivenNames x; refine keep_cut (p := P x) ?_ (fun kx => ?_); rotate_left; clear_value x; rotate_right; unfold x; clear x)
    | (extract_lets +onlyGivenNames x; unfold x; clear x)
    | (extract_lets +onlyGivenNames x; clear x)
    | with_reducible apply keep_failCommit h | with_reducible apply keep_memErr h | with_reducible apply keep_count h
    | with_reducible apply keep_modPart h | with_reducible apply keep_ite | split | with_reducible apply upd_standby h
    | dsimp only | assumption | rfl)

theorem keep_commitSwitch (hm : 34701 ||| m = m) {b : Block} (hb : P b) (q : Nat) : P (commitSwitch b q) := by
  unfold commitSwitch
  repeat' (first
    | with_reducible assumption | intro _ | exact bits_sub (by decide) hm
    | (extract_lets +onlyGivenNames x; refine keep_cut (p := P x) ?_ (fun kx => ?_); rotate_left; clear_value x; rotate_right; unfold x; clear x)
    | (extract_lets +onlyGivenNames x; unfold x; clear x)
    | (extract_lets +onlyGivenNames x; clear x)
    | with_reducible apply keep_modPart h | with_reducible apply keep_markStale h
    | with_reducible apply keep_commitDone h | with_reducible apply keep_startWalkers h
    | with_reducible apply keep_ite | split | with_reducible apply upd_standby_commitQ h
    | with_reducible apply upd_walks h | dsimp only | assumption | rfl)

theorem keep_complSignal (hm : 2129985 ||| m = m) {b : Block} (hb : P b) (p : Params) (n : Nat) (c : Nat) (e0 : Compl)
    : P (complSignal p b n c e0) := by
  unfold complSignal
  repeat' (first
    | with_reducible assumption | intro _ | exact bits_sub (by decide) hm | with_reducible apply keep_pushAdd h
    | with_reducible apply keep_entryMisuse h | with_reducible apply keep_ite | split | dsimp only | assumption | rfl)

theorem keep_countAged (hm : 16777217 ||| m = m) {b : Block} (hb : P b) (n : Nat) (k : Nat) : P (countAged b n k) :=
    by
  unfold countAged
  repeat' (first
    | with_reducible assumption | intro _ | exact bits_sub (by decide) hm
    | (extract_lets +onlyGivenNames x; refine keep_cut (p := P x) ?_ (fun kx => ?_); rotate_left; clear_value x; rotate_right; unfold x; clear x)
    | (extract_lets +onlyGivenNames x; unfold x; clear x)
    | (extract_lets +onlyGivenNames x; clear x)
    | with_reducible apply keep_rcount h | with_reducible apply keep_count h | with_reducible apply keep_countCh h
    | with_reducible apply keep_ite | split | dsimp only | assumption | rfl)

theorem keep_modObj (hm : 1048576 ||| m = m) {b : Block} (hb : P b) (o : Nat) (f : Obj → Obj) : P (modObj b o f) := by
  unfold modObj
  repeat' (first
    | with_reducible assumption | intro _ | exact bits_sub (by decide) hm | with_reducible apply keep_setObj h
    | with_reducible apply keep_ite | split | dsimp only | assumption | rfl)

theorem keep_suspend (hm : 17825793 ||| m = m) {b : Block} (hb : P b) (ch : Nat) (blk : Nat) : P (suspend b ch blk) :=
    by
  unfold suspend
  repeat' (first
    | with_reducible assumption | intro _ | exact bits_sub (by decide) hm
    | (extract_lets +onlyGivenNames x; refine keep_cut (p := P x) ?_ (fun kx => ?_); rotate_left; clear_value x; rotate_right; unfold x; clear x)
    | (extract_lets +onlyGivenNames x; unfold x; clear x)
    | (extract_lets +onlyGivenNames x; clear x)
    | with_reducible apply keep_count h | with_reducible apply keep_modObj h | with_reducible apply keep_ite | split
    | dsimp only | assumption | rfl)

theorem keep_countRead (hm : 17825793 ||| m = m) {b : Block} (hb : P b) (obj : Nat) (cw : Nat) : P (countRead b obj
    cw) := by
  unfold countRead
  repeat' (first
    | with_reducible assumption | intro _ | exact bits_sub (by decide) hm
    | (extract_lets +onlyGivenNames x; refine keep_cut (p := P x) ?_ (fun kx => ?_); rotate_left; clear_value x; rotate_right; unfold x; clear x)
    | (extract_lets +onlyGivenNames x; unfold x; clear x)
    | (extract_lets +onlyGivenNames x; clear x)
    | with_reducible apply keep_modVCh h | with_reducible apply keep_suspend h | with_reducible apply keep_modVault h
    | with_reducible apply keep_ite | split | dsimp only | assumption | rfl)

theorem keep_transit (hm : 65537 ||| m = m) {b : Block} (hb : P b) (p : Nat) (vc : Nat) (k : Sys2Proof.Packet) (pools
    : List Nat) (o : Nat) : P (transit b p vc k pools o) := by
  unfold transit
  repeat' (first
    | with_reducible assumption | intro _ | exact bits_sub (by decide) hm | with_reducible apply keep_modPort h
    | with_reducible apply keep_lostPkt h | with_reducible apply keep_poolFree h | with_reducible apply keep_ite
    | split | dsimp only | assumption | rfl)

theorem keep_dataIn (hm : 51077121 ||| m = m) {b : Block} (hb : P b) (p : Nat) (vc : Nat) (k : Sys2Proof.Packet)
    (pools : List Nat) : P (dataIn b p vc k pools) := by
  unfold dataIn
  repeat' (first
    | with_reducible assumption | intro _ | exact bits_sub (by decide) hm
    | (extract_lets +onlyGivenNames x; refine keep_cut (p := P x) ?_ (fun kx => ?_); rotate_left; clear_value x; rotate_right; unfold x; clear x)
    | (extract_lets +onlyGivenNames x; unfold x; clear x)
    | (extract_lets +onlyGivenNames x; clear x)
    | with_reducible apply keep_snapFreeze h | with_reducible apply keep_modPort h
    | with_reducible apply keep_transit h | with_reducible apply keep_ite | split | dsimp only | assumption | rfl)

theorem keep_markSeg (hm : 1048576 ||| m = m) {b : Block} (hb : P b) (obj : Nat) (seg : Nat) : P (markSeg b obj seg)
    := by
  unfold markSeg
  repeat' (first
    | with_reducible assumption | intro _ | exact bits_sub (by decide) hm | with_reducible apply keep_modObj h
    | with_reducible apply keep_ite | split | dsimp only | assumption | rfl)

theorem keep_putCw (hm : 1048576 ||| m = m) {b : Block} (hb : P b) (c : Cw) : P (putCw b c) := by
  unfold putCw
  repeat' (first
    | with_reducible assumption | intro _ | exact bits_sub (by decide) hm | with_reducible apply keep_modVault h
    | with_reducible apply keep_ite | split | dsimp only | assumption | rfl)

theorem keep_ueCw (hm : 3178497 ||| m = m) {b : Block} (hb : P b) (obj : Nat) (cw : Nat) (cause : Nat) : P (ueCw b obj
    cw cause) := by
  unfold ueCw
  repeat' (first
    | with_reducible assumption | intro _ | exact bits_sub (by decide) hm
    | (extract_lets +onlyGivenNames x; refine keep_cut (p := P x) ?_ (fun kx => ?_); rotate_left; clear_value x; rotate_right; unfold x; clear x)
    | (extract_lets +onlyGivenNames x; unfold x; clear x)
    | (extract_lets +onlyGivenNames x; clear x)
    | with_reducible apply keep_modObj h | with_reducible apply keep_modVault h | with_reducible apply keep_rcount h
    | with_reducible apply keep_vaultEv h | with_reducible apply keep_ite | split | dsimp only | assumption | rfl)

theorem keep_keepOffs (hm : 1048576 ||| m = m) {b : Block} (hb : P b) (c : Cw) : P (keepOffs b c) := by
  unfold keepOffs
  repeat' (first
    | with_reducible assumption | intro _ | exact bits_sub (by decide) hm
    | (extract_lets +onlyGivenNames x; refine keep_cut (p := P x) ?_ (fun kx => ?_); rotate_left; clear_value x; rotate_right; unfold x; clear x)
    | (extract_lets +onlyGivenNames x; unfold x; clear x)
    | (extract_lets +onlyGivenNames x; clear x)
    | with_reducible apply keep_modVCh h | with_reducible apply keep_ite | split | dsimp only | assumption | rfl)

theorem keep_decodeEnd (hm : 19956153 ||| m = m) {b : Block} (hb : P b) (c : Cw) (ok : Bool) (data : List
    Sys2Proof.Line) : P (decodeEnd b c ok data) := by
  unfold decodeEnd
  repeat' (first
    | with_reducible assumption | intro _ | exact bits_sub (by decide) hm
    | (extract_lets +onlyGivenNames x; refine keep_cut (p := P x) ?_ (fun kx => ?_); rotate_left; clear_value x; rotate_right; unfold x; clear x)
    | (extract_lets +onlyGivenNames x; unfold x; clear x)
    | (extract_lets +onlyGivenNames x; clear x)
    | with_reducible apply keep_countRead h | with_reducible apply keep_markSeg h
    | with_reducible apply keep_vaultServe h | with_reducible apply keep_putCw h
    | with_reducible apply keep_keepOffs h | with_reducible apply keep_vaultServeAll h
    | with_reducible apply keep_ueCw h | with_reducible apply keep_count h | with_reducible apply keep_rcount h
    | with_reducible apply keep_ite | split | dsimp only | assumption | rfl)

theorem keep_decodeOne (hm : 18907577 ||| m = m) {b : Block} (hb : P b) (n : Nat) (k : Nat) : P (decodeOne b n k) :=
    by
  unfold decodeOne
  repeat' (first
    | with_reducible assumption | intro _ | exact bits_sub (by decide) hm
    | (extract_lets +onlyGivenNames x; refine keep_cut (p := P x) ?_ (fun kx => ?_); rotate_left; clear_value x; rotate_right; unfold x; clear x)
    | (extract_lets +onlyGivenNames x; unfold x; clear x)
    | (extract_lets +onlyGivenNames x; clear x)
    | with_reducible apply keep_countCh h | with_reducible apply keep_tick h | with_reducible apply keep_modOp h
    | with_reducible apply keep_ite | split | dsimp only | assumption | rfl)

theorem keep_deleteEnd (hm : 1081345 ||| m = m) {b : Block} (hb : P b) : P (deleteEnd b) := by
  unfold deleteEnd
  repeat' (first
    | with_reducible assumption | intro _ | exact bits_sub (by decide) hm
    | (extract_lets +onlyGivenNames x; refine keep_cut (p := P x) ?_ (fun kx => ?_); rotate_left; clear_value x; rotate_right; unfold x; clear x)
    | (extract_lets +onlyGivenNames x; unfold x; clear x)
    | (extract_lets +onlyGivenNames x; clear x)
    | with_reducible apply keep_vaultSettle h | with_reducible apply keep_cmdDone h
    | with_reducible apply keep_modObj h | with_reducible apply keep_ite | split | dsimp only | assumption | rfl)

theorem keep_prefetchErr (hm : 18932157 ||| m = m) {b : Block} (hb : P b) (n : Nat) (pa : Nat) (cause : Nat) : P
    (prefetchErr b n pa cause) := by
  unfold prefetchErr
  repeat' (first
    | with_reducible assumption | intro _ | exact bits_sub (by decide) hm | with_reducible apply keep_stationStop h
    | with_reducible apply keep_memErr h | with_reducible apply keep_ite | split | dsimp only | assumption | rfl)

theorem keep_guardMisuse (hm : 2129921 ||| m = m) {b : Block} (hb : P b) (p : Params) (n : Nat) (k : Nat) (o : Op) (d
    : Nat) : P (guardMisuse p b n k o d) := by
  unfold guardMisuse
  repeat' (first
    | with_reducible assumption | intro _ | exact bits_sub (by decide) hm
    | (extract_lets +onlyGivenNames x; refine keep_cut (p := P x) ?_ (fun kx => ?_); rotate_left; clear_value x; rotate_right; unfold x; clear x)
    | (extract_lets +onlyGivenNames x; unfold x; clear x)
    | (extract_lets +onlyGivenNames x; clear x)
    | with_reducible apply keep_talMisuse h | with_reducible apply keep_ite | split | dsimp only | assumption | rfl)

theorem keep_descStop (hm : 2130361 ||| m = m) {b : Block} (hb : P b) (p : Params) (n : Nat) (k : Nat) (o : Op) (d :
    Nat) (code : Nat) : P (descStop p b n k o d code) := by
  unfold descStop
  repeat' (first
    | with_reducible assumption | intro _ | exact bits_sub (by decide) hm | with_reducible apply keep_stopAt h
    | with_reducible apply keep_dropOp h | with_reducible apply keep_guardMisuse h | with_reducible apply keep_ite
    | split | dsimp only | assumption | rfl)

theorem keep_offChecks (hm : 18907577 ||| m = m) {b : Block} (hb : P b) (n : Nat) (k : Nat) (o : Op) (foots : List
    RFoot) : P (offChecks b n k o foots).1 := by
  unfold offChecks
  repeat' (first
    | with_reducible assumption | intro _ | exact bits_sub (by decide) hm
    | (extract_lets +onlyGivenNames x; refine keep_cut (p := P x) ?_ (fun kx => ?_); rotate_left; clear_value x; rotate_right; unfold x; clear x)
    | (extract_lets +onlyGivenNames x; unfold x; clear x)
    | (extract_lets +onlyGivenNames x; clear x)
    | with_reducible apply keep_offside h | with_reducible apply keep_ite | split | dsimp only | assumption | rfl)

theorem keep_offChecks_eq (hm : 18907577 ||| m = m) {b : Block} (hb : P b) {n : Nat} {k : Nat} {o : Op} {foots : List
    RFoot} {y : List Nat} {b' : Block} (e : offChecks b n k o foots = (b', y)) : P b' := by
  have := keep_offChecks h hm hb n k o foots
  rwa [e] at this

theorem keep_suppress (hm : 408 ||| m = m) {b : Block} (hb : P b) (n : Nat) (k : Nat) (o : Op) : P (suppress b n k o)
    := by
  unfold suppress
  repeat' (first
    | with_reducible assumption | intro _ | exact bits_sub (by decide) hm | with_reducible apply keep_dropOp h
    | with_reducible apply keep_ite | split | dsimp only | assumption | rfl)

theorem keep_vaultChecks (hm : 2166391225 ||| m = m) {b : Block} (hb : P b) (n : Nat) (k : Nat) (o : Op) (m0 : Mv)
    (foots : List RFoot) : P (vaultChecks b n k o m0 foots).1 := by
  unfold vaultChecks
  repeat' (first
    | with_reducible assumption | intro _ | exact bits_sub (by decide) hm
    | (extract_lets +onlyGivenNames x; refine keep_cut (p := P x) ?_ (fun kx => ?_); rotate_left; clear_value x; rotate_right; unfold x; clear x)
    | (extract_lets +onlyGivenNames x; unfold x; clear x)
    | (extract_lets +onlyGivenNames x; clear x)
    | with_reducible apply keep_draw h | (with_reducible refine keep_draw_eq h ?_ ?_ (by assumption))
    | with_reducible apply keep_contentFault h | with_reducible apply keep_ite | split | dsimp only | assumption | rfl)

theorem keep_vaultChecks_eq (hm : 2166391225 ||| m = m) {b : Block} (hb : P b) {n : Nat} {k : Nat} {o : Op} {m0 : Mv}
    {foots : List RFoot} {y : Bool} {b' : Block} (e : vaultChecks b n k o m0 foots = (b', y)) : P b' := by
  have := keep_vaultChecks h hm hb n k o m0 foots
  rwa [e] at this

theorem keep_startChecks (hm : 2167439801 ||| m = m) {b : Block} (hb : P b) (p : Params) (n : Nat) (k : Nat) (o : Op)
    (m0 : Mv) : P (startChecks p b n k o m0) := by
  unfold startChecks
  repeat' (first
    | with_reducible assumption | intro _ | exact bits_sub (by decide) hm
    | (extract_lets +onlyGivenNames x; refine keep_cut (p := P x) ?_ (fun kx => ?_); rotate_left; clear_value x; rotate_right; unfold x; clear x)
    | (extract_lets +onlyGivenNames x; unfold x; clear x)
    | (extract_lets +onlyGivenNames x; clear x)
    | with_reducible apply keep_modOp h | with_reducible apply keep_contentFault h
    | with_reducible apply keep_modStrand h | with_reducible apply keep_dropOp h
    | with_reducible apply keep_suppress h | with_reducible apply keep_vaultChecks h
    | (with_reducible refine keep_vaultChecks_eq h ?_ ?_ (by assumption)) | with_reducible apply keep_offChecks h
    | (with_reducible refine keep_offChecks_eq h ?_ ?_ (by assumption)) | with_reducible apply keep_regionChecks h
    | (with_reducible refine keep_regionChecks_eq h ?_ ?_ (by assumption)) | with_reducible apply keep_modVault h
    | with_reducible apply keep_request h | with_reducible apply keep_ite | split | dsimp only | assumption | rfl)

theorem keep_startMove (hm : 2167439801 ||| m = m) {b : Block} (hb : P b) (p : Params) (n : Nat) (k : Nat) (o : Op)
    (e0 : Entry) (d : Nat) (side : Nat) : P (startMove p b n k o e0 d side) := by
  unfold startMove
  repeat' (first
    | with_reducible assumption | intro _ | exact bits_sub (by decide) hm
    | (extract_lets +onlyGivenNames x; refine keep_cut (p := P x) ?_ (fun kx => ?_); rotate_left; clear_value x; rotate_right; unfold x; clear x)
    | (extract_lets +onlyGivenNames x; unfold x; clear x)
    | (extract_lets +onlyGivenNames x; clear x)
    | with_reducible apply keep_descStop h | with_reducible apply keep_startChecks h | with_reducible apply keep_ite
    | split | with_reducible apply upd_fresh h | dsimp only | assumption | rfl)

theorem keep_descTry (hm : 2167439801 ||| m = m) {b : Block} (hb : P b) (p : Params) (n : Nat) (k : Nat) : P (descTry
    p b n k) := by
  unfold descTry
  repeat' (first
    | with_reducible assumption | intro _ | exact bits_sub (by decide) hm
    | (extract_lets +onlyGivenNames x; refine keep_cut (p := P x) ?_ (fun kx => ?_); rotate_left; clear_value x; rotate_right; unfold x; clear x)
    | (extract_lets +onlyGivenNames x; unfold x; clear x)
    | (extract_lets +onlyGivenNames x; clear x)
    | with_reducible apply keep_modStn h | with_reducible apply keep_startMove h
    | with_reducible apply keep_blockAsk h | with_reducible apply keep_ite | split | dsimp only | assumption | rfl)

theorem keep_descBack (hm : 2167464381 ||| m = m) {b : Block} (hb : P b) (p : Params) (n : Nat) (k : Nat) (d :
    Sys2Proof.Line) (side : Sys2Proof.Line) (ret : Sys2Proof.Ret) : P (descBack p b n k d side ret) := by
  unfold descBack
  repeat' (first
    | with_reducible assumption | intro _ | exact bits_sub (by decide) hm
    | (extract_lets +onlyGivenNames x; refine keep_cut (p := P x) ?_ (fun kx => ?_); rotate_left; clear_value x; rotate_right; unfold x; clear x)
    | (extract_lets +onlyGivenNames x; unfold x; clear x)
    | (extract_lets +onlyGivenNames x; clear x)
    | with_reducible apply keep_oldBack h | with_reducible apply keep_drained h | with_reducible apply keep_setStn h
    | with_reducible apply keep_discardRsp h | with_reducible apply keep_prefetchErr h
    | with_reducible apply keep_tick h | with_reducible apply keep_descTry h | with_reducible apply keep_modStn h
    | with_reducible apply keep_ite | split | dsimp only | assumption | rfl)

theorem keep_pfAsk (hm : 16 ||| m = m) {b : Block} (hb : P b) (n : Nat) (k : Nat) (va : Nat) : P (pfAsk b n k va) :=
    by
  unfold pfAsk
  repeat' (first
    | with_reducible assumption | intro _ | exact bits_sub (by decide) hm
    | (extract_lets +onlyGivenNames x; refine keep_cut (p := P x) ?_ (fun kx => ?_); rotate_left; clear_value x; rotate_right; unfold x; clear x)
    | (extract_lets +onlyGivenNames x; unfold x; clear x)
    | (extract_lets +onlyGivenNames x; clear x)
    | with_reducible apply keep_setStn h | with_reducible apply keep_ite | split | dsimp only | assumption | rfl)

theorem keep_refetch (hm : 24 ||| m = m) {b : Block} (hb : P b) (n : Nat) (k : Nat) : P (refetch b n k) := by
  unfold refetch
  repeat' (first
    | with_reducible assumption | intro _ | exact bits_sub (by decide) hm
    | (extract_lets +onlyGivenNames x; refine keep_cut (p := P x) ?_ (fun kx => ?_); rotate_left; clear_value x; rotate_right; unfold x; clear x)
    | (extract_lets +onlyGivenNames x; unfold x; clear x)
    | (extract_lets +onlyGivenNames x; clear x)
    | with_reducible apply keep_pfAsk h | with_reducible apply keep_dropLines h | with_reducible apply keep_ite
    | split | dsimp only | assumption | rfl)

theorem keep_startStrand (hm : 24 ||| m = m) {b : Block} (hb : P b) (n : Nat) (k : Nat) (c : Nat) (e0 : Entry) : P
    (startStrand b n k c e0) := by
  unfold startStrand
  repeat' (first
    | with_reducible assumption | intro _ | exact bits_sub (by decide) hm
    | (extract_lets +onlyGivenNames x; refine keep_cut (p := P x) ?_ (fun kx => ?_); rotate_left; clear_value x; rotate_right; unfold x; clear x)
    | (extract_lets +onlyGivenNames x; unfold x; clear x)
    | (extract_lets +onlyGivenNames x; clear x)
    | with_reducible apply keep_setStrand h | with_reducible apply keep_refetch h | with_reducible apply keep_ite
    | split | dsimp only | assumption | rfl)

theorem keep_dispatch (hm : 28 ||| m = m) {b : Block} (hb : P b) (n : Nat) (c : Nat) : P (dispatch b n c) := by
  unfold dispatch
  repeat' (first
    | with_reducible assumption | intro _ | exact bits_sub (by decide) hm
    | (extract_lets +onlyGivenNames x; refine keep_cut (p := P x) ?_ (fun kx => ?_); rotate_left; clear_value x; rotate_right; unfold x; clear x)
    | (extract_lets +onlyGivenNames x; unfold x; clear x)
    | (extract_lets +onlyGivenNames x; clear x)
    | with_reducible apply keep_modChan h | with_reducible apply keep_modStn h | with_reducible apply keep_chSettle h
    | with_reducible apply keep_startStrand h | with_reducible apply keep_ite | split | dsimp only | assumption | rfl)

theorem keep_drainData (hm : 2129921 ||| m = m) {b : Block} (hb : P b) (k src : Nat) : P (drainData k b src) := by
  induction k generalizing b with
  | zero => exact hb | succ k ih =>
    unfold drainData
    split
    · split
      · refine ih ?_
        refine keep_holdRec h (bits_sub (by decide) hm) ?_ _
        refine keep_modRef h (bits_sub (by decide) hm) hb _ ?_
        exact fun _ e => e
      · exact hb
    · exact hb

theorem keep_markWarn (hm : 4194304 ||| m = m) {b : Block} (hb : P b) (key : Nat) : P (markWarn b key) := by
  unfold markWarn
  repeat' (first
    | with_reducible assumption | intro _ | exact bits_sub (by decide) hm | with_reducible apply keep_modPwr h
    | with_reducible apply keep_ite | split | dsimp only | assumption | rfl)

theorem keep_senseEv (hm : 2097152 ||| m = m) {b : Block} (hb : P b) (kind : Nat) : P (senseEv b kind) := by
  unfold senseEv
  repeat' (first
    | with_reducible assumption | intro _ | exact bits_sub (by decide) hm | with_reducible apply keep_signalEv h
    | with_reducible apply keep_ite | split | dsimp only | assumption | rfl)

theorem keep_droop (hm : 14712833 ||| m = m) {b : Block} (hb : P b) (n : Nat) : P (droop b n) := by
  unfold droop
  repeat' (first
    | with_reducible assumption | intro _ | exact bits_sub (by decide) hm
    | (extract_lets +onlyGivenNames x; refine keep_cut (p := P x) ?_ (fun kx => ?_); rotate_left; clear_value x; rotate_right; unfold x; clear x)
    | (extract_lets +onlyGivenNames x; unfold x; clear x)
    | (extract_lets +onlyGivenNames x; clear x)
    | with_reducible apply keep_rcount h | with_reducible apply keep_modPwr h | with_reducible apply keep_modGrp h
    | with_reducible apply keep_senseEv h | with_reducible apply keep_markWarn h
    | with_reducible apply keep_logAppend h | with_reducible apply keep_capDrop h | with_reducible apply keep_ite
    | split | dsimp only | assumption | rfl)

theorem keep_dropListLines (hm : 8 ||| m = m) {b : Block} (hb : P b) (n : Nat) (l : List Haz) : P (dropListLines b n
    l) := by
  unfold dropListLines
  repeat' (first
    | with_reducible assumption | intro _ | exact bits_sub (by decide) hm
    | (with_reducible refine keep_forEach _ _ ?_ ?_) | with_reducible apply keep_modStrand h
    | with_reducible apply keep_ite | split | dsimp only | assumption | rfl)

theorem keep_encodeOne (hm : 18907577 ||| m = m) {b : Block} (hb : P b) (n : Nat) (k : Nat) : P (encodeOne b n k) :=
    by
  unfold encodeOne
  repeat' (first
    | with_reducible assumption | intro _ | exact bits_sub (by decide) hm
    | (extract_lets +onlyGivenNames x; refine keep_cut (p := P x) ?_ (fun kx => ?_); rotate_left; clear_value x; rotate_right; unfold x; clear x)
    | (extract_lets +onlyGivenNames x; unfold x; clear x)
    | (extract_lets +onlyGivenNames x; clear x)
    | with_reducible apply keep_countCh h | with_reducible apply keep_tick h | with_reducible apply keep_modOp h
    | with_reducible apply keep_ite | split | dsimp only | assumption | rfl)

theorem keep_enterRecovery (hm : 8388608 ||| m = m) {b : Block} (hb : P b) (reason : Nat) : P (enterRecovery b reason)
    := by
  unfold enterRecovery
  repeat' (first
    | with_reducible assumption | intro _ | exact bits_sub (by decide) hm | with_reducible apply keep_modMgmt h
    | with_reducible apply keep_ite | split | dsimp only | assumption | rfl)

theorem keep_bufferFault (hm : 2097593 ||| m = m) {b : Block} (hb : P b) (n : Nat) (k : Nat) (id : Nat) (addr : Nat) :
    P (bufferFault b n k id addr) := by
  unfold bufferFault
  repeat' (first
    | with_reducible assumption | intro _ | exact bits_sub (by decide) hm | with_reducible apply keep_accessFault h
    | with_reducible apply keep_ite | split | dsimp only | assumption | rfl)

theorem keep_setCapM (hm : 4194304 ||| m = m) {b : Block} (hb : P b) (g : Nat) (cap : Nat) : P (setCapM b g cap) := by
  unfold setCapM
  repeat' (first
    | with_reducible assumption | intro _ | exact bits_sub (by decide) hm
    | (extract_lets +onlyGivenNames x; refine keep_cut (p := P x) ?_ (fun kx => ?_); rotate_left; clear_value x; rotate_right; unfold x; clear x)
    | (extract_lets +onlyGivenNames x; unfold x; clear x)
    | (extract_lets +onlyGivenNames x; clear x)
    | with_reducible apply keep_modGrp h | with_reducible apply keep_ite | split | dsimp only | assumption | rfl)

end

end Sys2Proof.Machine
end

