-- ==== Sys2Proof/Laws/KeepsHub.lean ====
section
/-! SUPPORT. The fields that each operation may write, continued: the configuration port, resets, power and management, and the rows. -/
set_option Elab.async false
set_option linter.all false

namespace Sys2Proof.Machine

section
variable {m : Nat} {P : Block → Prop} (h : Keeps m P)
include h

theorem keep_sendFlit (hm : 2164326401 ||| m = m) {b : Block} (hb : P b) (p : Nat) (e0 : OutPkt) (k :
    Sys2Proof.Packet) : P (sendFlit b p e0 k) := by
  unfold sendFlit
  repeat' (first
    | with_reducible assumption | intro _ | exact bits_sub (by decide) hm
    | (extract_lets +onlyGivenNames x; refine keep_cut (p := P x) ?_ (fun kx => ?_); rotate_left; clear_value x; rotate_right; unfold x; clear x)
    | (extract_lets +onlyGivenNames x; unfold x; clear x)
    | (extract_lets +onlyGivenNames x; clear x)
    | with_reducible apply keep_draw h | (with_reducible refine keep_draw_eq h ?_ ?_ (by assumption))
    | with_reducible apply keep_poolFree h | with_reducible apply keep_setPort h | with_reducible apply keep_count h
    | with_reducible apply keep_ite | split | dsimp only | assumption | rfl)

theorem keep_retrain (hm : 2164326417 ||| m = m) {b : Block} (hb : P b) (s : Nat) (root : Nat) (par : Nat) (p : Nat) :
    P (retrain s root par b p) := by
  unfold retrain
  repeat' (first
    | with_reducible assumption | intro _ | exact bits_sub (by decide) hm
    | (extract_lets +onlyGivenNames x; refine keep_cut (p := P x) ?_ (fun kx => ?_); rotate_left; clear_value x; rotate_right; unfold x; clear x)
    | (extract_lets +onlyGivenNames x; unfold x; clear x)
    | (extract_lets +onlyGivenNames x; clear x)
    | with_reducible apply keep_setPort h | with_reducible apply keep_portSync h
    | with_reducible apply keep_sendFlit h | with_reducible apply keep_ite | split | dsimp only | assumption | rfl)

theorem keep_resetAct (hm : 2166850041 ||| m = m) {b : Block} (hb : P b) (p : Params) (s : Nat) (root : Nat) : P
    (resetAct p b s root) := by
  unfold resetAct
  repeat' (first
    | with_reducible assumption | intro _ | exact bits_sub (by decide) hm
    | (extract_lets +onlyGivenNames x; refine keep_cut (p := P x) ?_ (fun kx => ?_); rotate_left; clear_value x; rotate_right; unfold x; clear x)
    | (extract_lets +onlyGivenNames x; unfold x; clear x)
    | (extract_lets +onlyGivenNames x; clear x)
    | (with_reducible refine keep_forEach _ _ ?_ ?_) | with_reducible apply keep_modGop h
    | with_reducible apply keep_dropData h | with_reducible apply keep_answerDown h
    | with_reducible apply keep_retrain h | with_reducible apply keep_ite | split
    | with_reducible apply upd_linkReset h | dsimp only | assumption | rfl)

theorem keep_resetStep (hm : 2166850041 ||| m = m) {b : Block} (hb : P b) (p : Params) (s : Nat) : P (resetStep p b s)
    := by
  unfold resetStep
  repeat' (first
    | with_reducible assumption | intro _ | exact bits_sub (by decide) hm
    | (extract_lets +onlyGivenNames x; refine keep_cut (p := P x) ?_ (fun kx => ?_); rotate_left; clear_value x; rotate_right; unfold x; clear x)
    | (extract_lets +onlyGivenNames x; unfold x; clear x)
    | (extract_lets +onlyGivenNames x; clear x)
    | with_reducible apply keep_resetAct h | with_reducible apply keep_toChildren h
    | with_reducible apply keep_gopComplete h | with_reducible apply keep_gopUp h | with_reducible apply keep_ite
    | split | with_reducible apply upd_linkReset h | dsimp only | assumption | rfl)

theorem keep_gopStep (hm : 2200953337 ||| m = m) {b : Block} (hb : P b) (p : Params) (s : Nat) : P (gopStep p b s) :=
    by
  unfold gopStep
  repeat' (first
    | with_reducible assumption | intro _ | exact bits_sub (by decide) hm
    | (extract_lets +onlyGivenNames x; refine keep_cut (p := P x) ?_ (fun kx => ?_); rotate_left; clear_value x; rotate_right; unfold x; clear x)
    | (extract_lets +onlyGivenNames x; unfold x; clear x)
    | (extract_lets +onlyGivenNames x; clear x)
    | with_reducible apply keep_gopFail h | with_reducible apply keep_castStep h
    | with_reducible apply keep_gopComplete h | with_reducible apply keep_resetStep h
    | with_reducible apply keep_gatherStep h | with_reducible apply keep_ite | split | dsimp only | assumption | rfl)

theorem keep_gopRun (hm : 2200953337 ||| m = m) {b : Block} (hb : P b) (p : Params) (s : Nat) : P (gopRun p b s) := by
  unfold gopRun
  repeat' (first
    | with_reducible assumption | intro _ | exact bits_sub (by decide) hm | with_reducible apply keep_gopStep h
    | with_reducible apply keep_ite | split | dsimp only | assumption | rfl)

theorem keep_gopSetEn (hm : 2200953337 ||| m = m) {b : Block} (hb : P b) (p : Params) (s : Nat) (on : Bool) : P
    (gopSetEn p b s on) := by
  unfold gopSetEn
  repeat' (first
    | with_reducible assumption | intro _ | exact bits_sub (by decide) hm
    | (extract_lets +onlyGivenNames x; refine keep_cut (p := P x) ?_ (fun kx => ?_); rotate_left; clear_value x; rotate_right; unfold x; clear x)
    | (extract_lets +onlyGivenNames x; unfold x; clear x)
    | (extract_lets +onlyGivenNames x; clear x)
    | with_reducible apply keep_rsetBits h | with_reducible apply keep_gopRun h | with_reducible apply keep_gopArm h
    | with_reducible apply keep_rclrBits h | with_reducible apply keep_gopUnwait h
    | with_reducible apply keep_modGop h | with_reducible apply keep_ite | split | dsimp only | assumption | rfl)

theorem keep_gopCtrl (hm : 2200953337 ||| m = m) {b : Block} (hb : P b) (p : Params) (s w : Nat) : Both P (gopCtrl p b s
    w) := by
  unfold gopCtrl
  repeat' (first
    | with_reducible assumption | intro _ | exact bits_sub (by decide) hm
    | (extract_lets +onlyGivenNames x; refine keep_cut (p := P x) ?_ (fun kx => ?_); rotate_left; clear_value x; rotate_right; unfold x; clear x)
    | (extract_lets +onlyGivenNames x; unfold x; clear x)
    | (extract_lets +onlyGivenNames x; clear x)
    | with_reducible apply both_ok | with_reducible apply both_error | with_reducible apply keep_rset h
    | with_reducible apply keep_talMisuse h | with_reducible apply keep_gopSetEn h | with_reducible apply keep_ite
    | split | with_reducible apply both_pair | dsimp only | assumption | rfl)

theorem keep_regWrite (hm : 3284133885 ||| m = m) {b : Block} (hb : P b) (p : Params) (pg : Page) (off : Nat) (r :
    RegRow) (w : Nat) (med : Option Med) :
    Both P (regWrite p b pg off r w med) := by
  unfold regWrite
  repeat' (first
    | with_reducible assumption | intro _ | exact bits_sub (by decide) hm
    | (extract_lets +onlyGivenNames x; refine keep_cut (p := P x) ?_ (fun kx => ?_); rotate_left; clear_value x; rotate_right; unfold x; clear x)
    | (extract_lets +onlyGivenNames x; unfold x; clear x)
    | (extract_lets +onlyGivenNames x; clear x)
    | with_reducible apply both_ok | with_reducible apply both_error | with_reducible apply keep_storeReg h
    | with_reducible apply keep_clearCause h | with_reducible apply keep_setMask h | with_reducible apply keep_rset h
    | with_reducible apply keep_doorbell h | with_reducible apply keep_chCtrl h | with_reducible apply keep_modChan h
    | (with_reducible refine keep_histWrite h ?_ ?_ (by assumption)) | with_reducible apply keep_nearStore h
    | with_reducible apply keep_modStn h | with_reducible apply keep_talAddWrite h
    | with_reducible apply keep_startWalkers h | with_reducible apply keep_xpCtrl h
    | with_reducible apply keep_fqResolve h | with_reducible apply keep_fcAdvise h
    | with_reducible apply keep_gopCtrl h | with_reducible apply keep_cntCtrl h
    | (with_reducible refine keep_vtCmd h ?_ ?_ (by assumption)) | with_reducible apply keep_freezeWrite h
    | with_reducible apply keep_rclrBits h | with_reducible apply keep_popRec h | with_reducible apply keep_modMgmt h
    | with_reducible apply keep_ackM2h h | with_reducible apply keep_ite | split | with_reducible apply both_pair
    | dsimp only | assumption | rfl)

theorem keep_regWrite_ok (hm : 3284133885 ||| m = m) {b : Block} (hb : P b) {p : Params} {pg : Page} {off : Nat} {r :
    RegRow} {w : Nat} {med : Option Med}
    {b' x : Block} (e : regWrite p b pg off r w med = (.ok b', x)) : P b' :=
  (keep_regWrite h hm hb p pg off r w med).ok b' (by rw [e])

theorem keep_regWrite_err (hm : 3284133885 ||| m = m) {b : Block} (hb : P b) {p : Params} {pg : Page} {off : Nat} {r :
    RegRow} {w : Nat} {med : Option Med}
    {b' : Block} {i : Nat} (e : regWrite p b pg off r w med = (.error i, b')) : P b' := by
  have := (keep_regWrite h hm hb p pg off r w med).err
  rwa [e] at this

theorem keep_performWrite (hm : 3556763647 ||| m = m) {b : Block} (hb : P b) (p : Params) (x0 : Sys2Proof.Access) (pg
    : Page) (med : Option Med) : P (performWrite p b x0 pg med) := by
  unfold performWrite
  repeat' (first
    | with_reducible assumption | intro _ | exact bits_sub (by decide) hm
    | (extract_lets +onlyGivenNames x; refine keep_cut (p := P x) ?_ (fun kx => ?_); rotate_left; clear_value x; rotate_right; unfold x; clear x)
    | (extract_lets +onlyGivenNames x; unfold x; clear x)
    | (extract_lets +onlyGivenNames x; clear x)
    | with_reducible apply keep_refuse h | with_reducible apply keep_respond h | with_reducible apply keep_recode h
    | with_reducible apply keep_ctrlWrite h | with_reducible apply keep_rclrBits h
    | with_reducible apply keep_setWsh h | with_reducible apply keep_pairWrite h
    | (with_reducible refine keep_regWrite_ok h ?_ ?_ (by assumption))
    | (with_reducible refine keep_regWrite_err h ?_ ?_ (by assumption)) | with_reducible apply keep_ite | split
    | dsimp only | assumption | rfl)

theorem keep_performAcc (hm : 4093634559 ||| m = m) {b : Block} (hb : P b) (p : Params) (x0 : Sys2Proof.Access) (med :
    Option Med) : P (performAcc p b x0 med) := by
  unfold performAcc
  repeat' (first
    | with_reducible assumption | intro _ | exact bits_sub (by decide) hm
    | (extract_lets +onlyGivenNames x; refine keep_cut (p := P x) ?_ (fun kx => ?_); rotate_left; clear_value x; rotate_right; unfold x; clear x)
    | (extract_lets +onlyGivenNames x; unfold x; clear x)
    | (extract_lets +onlyGivenNames x; clear x)
    | with_reducible apply keep_count h | with_reducible apply keep_refuseDec h | with_reducible apply keep_refuse h
    | with_reducible apply keep_performWrite h | with_reducible apply keep_performRead h
    | with_reducible apply keep_ite | split | dsimp only | assumption | rfl)

theorem keep_meetAcc (hm : 4093634559 ||| m = m) {b : Block} (hb : P b) (p : Params) (x0 : Sys2Proof.Access) (med :
    Option Med) : P (meetAcc p b x0 med).2 := by
  unfold meetAcc
  repeat' (first
    | with_reducible assumption | intro _ | exact bits_sub (by decide) hm | with_reducible apply keep_performAcc h
    | with_reducible apply keep_refuse h | with_reducible apply keep_count h | with_reducible apply keep_reqThaw h
    | with_reducible apply keep_ite | split | dsimp only | assumption | rfl)

theorem keep_meetAcc_eq (hm : 4093634559 ||| m = m) {b : Block} (hb : P b) {p : Params} {x0 : Sys2Proof.Access} {med :
    Option Med} {y : Bool} {b' : Block} (e : meetAcc p b x0 med = (y, b')) : P b' := by
  have := keep_meetAcc h hm hb p x0 med
  rwa [e] at this

theorem keep_cfgPumpN (hm : 4093634559 ||| m = m) {b : Block} (hb : P b) (p : Params) (k : Nat) : P (cfgPumpN p k b)
    := by
  induction k generalizing b with
  | zero => exact hb | succ k ih =>
    unfold cfgPumpN
    split
    · exact hb
    · split
      · rename_i e
        exact ih (upd_cfg h (keep_meetAcc_eq h (bits_sub (by decide) hm) hb e) (bits_sub (by decide) hm) _)
      · rename_i e
        exact keep_meetAcc_eq h (bits_sub (by decide) hm) hb e

theorem keep_cfgPump (hm : 4093634559 ||| m = m) {b : Block} (hb : P b) (p : Params) : P (cfgPump p b) := by
  unfold cfgPump
  repeat' (first
    | with_reducible assumption | intro _ | exact bits_sub (by decide) hm
    | (extract_lets +onlyGivenNames x; refine keep_cut (p := P x) ?_ (fun kx => ?_); rotate_left; clear_value x; rotate_right; unfold x; clear x)
    | (extract_lets +onlyGivenNames x; unfold x; clear x)
    | (extract_lets +onlyGivenNames x; clear x)
    | with_reducible apply keep_cfgPumpN h | with_reducible apply keep_ite | split | with_reducible apply upd_cfg h
    | dsimp only | assumption | rfl)

theorem keep_aoReady (hm : 4093634559 ||| m = m) {b : Block} (hb : P b) (p : Params) : P (aoReady p b) := by
  unfold aoReady
  repeat' (first
    | with_reducible assumption | intro _ | exact bits_sub (by decide) hm | with_reducible apply keep_cfgPump h
    | with_reducible apply keep_modPwr h | with_reducible apply keep_ite | split | dsimp only | assumption | rfl)

theorem keep_cfgAccess (hm : 4093634559 ||| m = m) {b : Block} (hb : P b) (p : Params) (x0 : Sys2Proof.Access) (med :
    Option Med) : P (cfgAccess p b x0 med) := by
  unfold cfgAccess
  repeat' (first
    | with_reducible assumption | intro _ | exact bits_sub (by decide) hm
    | (extract_lets +onlyGivenNames x; refine keep_cut (p := P x) ?_ (fun kx => ?_); rotate_left; clear_value x; rotate_right; unfold x; clear x)
    | (extract_lets +onlyGivenNames x; unfold x; clear x)
    | (extract_lets +onlyGivenNames x; clear x)
    | with_reducible apply keep_meetAcc h | (with_reducible refine keep_meetAcc_eq h ?_ ?_ (by assumption))
    | with_reducible apply keep_ite | split | with_reducible apply upd_cfg h | dsimp only | assumption | rfl)

theorem keep_cfgRead (hm : 4093634559 ||| m = m) {b : Block} (hb : P b) (p : Params) (addr : Nat) (a : Sys2Proof.Attr)
    : P (cfgRead p b addr a) := by
  unfold cfgRead
  repeat' (first
    | with_reducible assumption | intro _ | exact bits_sub (by decide) hm | with_reducible apply keep_cfgAccess h
    | with_reducible apply keep_ite | split | dsimp only | assumption | rfl)

theorem keep_cfgWrite (hm : 4093634559 ||| m = m) {b : Block} (hb : P b) (p : Params) (addr : Nat) (w : Nat) (a :
    Sys2Proof.Attr) : P (cfgWrite p b addr w a) := by
  unfold cfgWrite
  repeat' (first
    | with_reducible assumption | intro _ | exact bits_sub (by decide) hm | with_reducible apply keep_cfgAccess h
    | with_reducible apply keep_ite | split | dsimp only | assumption | rfl)

theorem keep_ringErr (hm : 2097153 ||| m = m) {b : Block} (hb : P b) (n : Nat) (c : Nat) (addr : Nat) (kind : Nat) : P
    (ringErr b n c addr kind) := by
  unfold ringErr
  repeat' (first
    | with_reducible assumption | intro _ | exact bits_sub (by decide) hm | with_reducible apply keep_memErr h
    | with_reducible apply keep_ite | split | dsimp only | assumption | rfl)

theorem keep_entryBack (hm : 18931717 ||| m = m) {b : Block} (hb : P b) (p : Params) (n : Nat) (c : Nat) (r :
    RawEntry) (err : Bool) : P (entryBack p b n c r err) := by
  unfold entryBack
  repeat' (first
    | with_reducible assumption | intro _ | exact bits_sub (by decide) hm
    | (extract_lets +onlyGivenNames x; refine keep_cut (p := P x) ?_ (fun kx => ?_); rotate_left; clear_value x; rotate_right; unfold x; clear x)
    | (extract_lets +onlyGivenNames x; unfold x; clear x)
    | (extract_lets +onlyGivenNames x; clear x)
    | with_reducible apply keep_setChan h | with_reducible apply keep_stopChan h | with_reducible apply keep_ringErr h
    | with_reducible apply keep_modChan h | with_reducible apply keep_pump h | with_reducible apply keep_ite | split
    | dsimp only | assumption | rfl)

theorem keep_entryEnd (hm : 18932125 ||| m = m) {b : Block} (hb : P b) (p : Params) (n : Nat) (k : Nat) : P (entryEnd
    p b n k) := by
  unfold entryEnd
  repeat' (first
    | with_reducible assumption | intro _ | exact bits_sub (by decide) hm
    | (extract_lets +onlyGivenNames x; refine keep_cut (p := P x) ?_ (fun kx => ?_); rotate_left; clear_value x; rotate_right; unfold x; clear x)
    | (extract_lets +onlyGivenNames x; unfold x; clear x)
    | (extract_lets +onlyGivenNames x; clear x)
    | with_reducible apply keep_pump h | with_reducible apply keep_beginCompl h
    | with_reducible apply keep_freeStrand h | with_reducible apply keep_ite | split | dsimp only | assumption | rfl)

theorem keep_eventSide (hm : 257 ||| m = m) {b : Block} (hb : P b) (e0 : Ev) : P (eventSide b e0) := by
  unfold eventSide
  repeat' (first
    | with_reducible assumption | intro _ | exact bits_sub (by decide) hm | with_reducible apply keep_brokenMark h
    | with_reducible apply keep_rcount h | with_reducible apply keep_ite | split | dsimp only | assumption | rfl)

theorem keep_extPin (hm : 2097409 ||| m = m) {b : Block} (hb : P b) (src : Nat) (x0 : Sys2Proof.ExtEvent) : P (extPin
    b src x0) := by
  unfold extPin
  repeat' (first
    | with_reducible assumption | intro _ | exact bits_sub (by decide) hm
    | (extract_lets +onlyGivenNames x; refine keep_cut (p := P x) ?_ (fun kx => ?_); rotate_left; clear_value x; rotate_right; unfold x; clear x)
    | (extract_lets +onlyGivenNames x; unfold x; clear x)
    | (extract_lets +onlyGivenNames x; clear x)
    | with_reducible apply keep_eventSide h | with_reducible apply keep_modRef h | with_reducible apply keep_ite
    | split | dsimp only | assumption | rfl)

theorem keep_fcLanded (hm : 2130177 ||| m = m) {b : Block} (hb : P b) (p : Nat) (err : Bool) : P (fcLanded b p err) :=
    by
  unfold fcLanded
  repeat' (first
    | with_reducible assumption | intro _ | exact bits_sub (by decide) hm
    | (extract_lets +onlyGivenNames x; refine keep_cut (p := P x) ?_ (fun kx => ?_); rotate_left; clear_value x; rotate_right; unfold x; clear x)
    | (extract_lets +onlyGivenNames x; unfold x; clear x)
    | (extract_lets +onlyGivenNames x; clear x)
    | with_reducible apply keep_setPart h | with_reducible apply keep_memErr h | with_reducible apply keep_fcDrop h
    | with_reducible apply keep_setCause h | with_reducible apply keep_ite | split | dsimp only | assumption | rfl)

theorem keep_finishStatus (hm : 18907205 ||| m = m) {b : Block} (hb : P b) (p : Params) (n : Nat) (c : Nat) (idx :
    Sys2Proof.Word) : P (finishStatus p b n c idx) := by
  unfold finishStatus
  repeat' (first
    | with_reducible assumption | intro _ | exact bits_sub (by decide) hm
    | (extract_lets +onlyGivenNames x; refine keep_cut (p := P x) ?_ (fun kx => ?_); rotate_left; clear_value x; rotate_right; unfold x; clear x)
    | (extract_lets +onlyGivenNames x; unfold x; clear x)
    | (extract_lets +onlyGivenNames x; clear x)
    | (with_reducible refine keep_forEach _ _ ?_ ?_) | with_reducible apply keep_setChan h
    | with_reducible apply keep_setCause h | with_reducible apply keep_count h | with_reducible apply keep_chSettle h
    | with_reducible apply keep_complSignal h | with_reducible apply keep_ite | split | dsimp only | assumption | rfl)

theorem keep_retire (hm : 16777657 ||| m = m) {b : Block} (hb : P b) (u : MUnit) (pc : Nat) : P (retire b u pc) := by
  unfold retire
  repeat' (first
    | with_reducible assumption | intro _ | exact bits_sub (by decide) hm
    | (extract_lets +onlyGivenNames x; refine keep_cut (p := P x) ?_ (fun kx => ?_); rotate_left; clear_value x; rotate_right; unfold x; clear x)
    | (extract_lets +onlyGivenNames x; unfold x; clear x)
    | (extract_lets +onlyGivenNames x; clear x)
    | with_reducible apply keep_countCh h | with_reducible apply keep_modStrand h
    | with_reducible apply keep_stopStrand h | with_reducible apply keep_refetch h | with_reducible apply keep_ite
    | split | dsimp only | assumption | rfl)

theorem keep_finishUnit (hm : 16777657 ||| m = m) (u : MUnit) (r : Took × Block) (hb : P r.2) : P (finishUnit u r) := by
  unfold finishUnit
  split
  · exact keep_stopStrand h (bits_sub (by decide) hm) hb _ _ _
  · exact keep_stopStrand h (bits_sub (by decide) hm) hb _ _ _
  · exact keep_stopStrand h (bits_sub (by decide) hm) hb _ _ _
  · exact keep_retire h (bits_sub (by decide) hm) hb _ _

theorem keep_vaultTidy (hm : 1048576 ||| m = m) {b : Block} (hb : P b) : P (vaultTidy b) := by
  unfold vaultTidy
  repeat' (first
    | with_reducible assumption | intro _ | exact bits_sub (by decide) hm | with_reducible apply keep_modVault h
    | with_reducible apply keep_ite | split | dsimp only | assumption | rfl)

theorem keep_firstDecode (hm : 19956153 ||| m = m) {b : Block} (hb : P b) (n : Nat) (k : Nat) (cw : Nat) (ok : Bool)
    (data : List Sys2Proof.Line) : P (firstDecode b n k cw ok data) := by
  unfold firstDecode
  repeat' (first
    | with_reducible assumption | intro _ | exact bits_sub (by decide) hm
    | (extract_lets +onlyGivenNames x; refine keep_cut (p := P x) ?_ (fun kx => ?_); rotate_left; clear_value x; rotate_right; unfold x; clear x)
    | (extract_lets +onlyGivenNames x; unfold x; clear x)
    | (extract_lets +onlyGivenNames x; clear x)
    | with_reducible apply keep_vaultTidy h | with_reducible apply keep_decodeEnd h
    | with_reducible apply keep_count h | with_reducible apply keep_ite | split | dsimp only | assumption | rfl)

theorem keep_flitBad (hm : 16842753 ||| m = m) {b : Block} (hb : P b) (p : Nat) : P (flitBad b p) := by
  unfold flitBad
  repeat' (first
    | with_reducible assumption | intro _ | exact bits_sub (by decide) hm
    | (extract_lets +onlyGivenNames x; refine keep_cut (p := P x) ?_ (fun kx => ?_); rotate_left; clear_value x; rotate_right; unfold x; clear x)
    | (extract_lets +onlyGivenNames x; unfold x; clear x)
    | (extract_lets +onlyGivenNames x; clear x)
    | with_reducible apply keep_modPort h | with_reducible apply keep_count h | with_reducible apply keep_rcount h
    | with_reducible apply keep_ite | split | dsimp only | assumption | rfl)

theorem keep_gdownIn (hm : 2200953337 ||| m = m) {b : Block} (hb : P b) (p : Params) (port : Nat) (h0 :
    Sys2Proof.DWord) (h1 : Sys2Proof.DWord) : P (gdownIn p b port h0 h1) := by
  unfold gdownIn
  repeat' (first
    | with_reducible assumption | intro _ | exact bits_sub (by decide) hm
    | (extract_lets +onlyGivenNames x; refine keep_cut (p := P x) ?_ (fun kx => ?_); rotate_left; clear_value x; rotate_right; unfold x; clear x)
    | (extract_lets +onlyGivenNames x; unfold x; clear x)
    | (extract_lets +onlyGivenNames x; clear x)
    | with_reducible apply keep_gopRun h | with_reducible apply keep_setGop h | with_reducible apply keep_ite | split
    | dsimp only | assumption | rfl)

theorem keep_gupIn (hm : 2200953337 ||| m = m) {b : Block} (hb : P b) (p : Params) (port : Nat) (h0 : Sys2Proof.DWord)
    : P (gupIn p b port h0) := by
  unfold gupIn
  repeat' (first
    | with_reducible assumption | intro _ | exact bits_sub (by decide) hm
    | (extract_lets +onlyGivenNames x; refine keep_cut (p := P x) ?_ (fun kx => ?_); rotate_left; clear_value x; rotate_right; unfold x; clear x)
    | (extract_lets +onlyGivenNames x; unfold x; clear x)
    | (extract_lets +onlyGivenNames x; clear x)
    | with_reducible apply keep_gopRun h | with_reducible apply keep_setGop h | with_reducible apply keep_ite | split
    | dsimp only | assumption | rfl)

theorem keep_helloIn (hm : 2195457 ||| m = m) {b : Block} (hb : P b) (p : Nat) (h0 : Nat) : P (helloIn b p h0) := by
  unfold helloIn
  repeat' (first
    | with_reducible assumption | intro _ | exact bits_sub (by decide) hm
    | (extract_lets +onlyGivenNames x; refine keep_cut (p := P x) ?_ (fun kx => ?_); rotate_left; clear_value x; rotate_right; unfold x; clear x)
    | (extract_lets +onlyGivenNames x; unfold x; clear x)
    | (extract_lets +onlyGivenNames x; clear x)
    | with_reducible apply keep_setPort h | with_reducible apply keep_setCause h | with_reducible apply keep_modPort h
    | with_reducible apply keep_portLeave h | with_reducible apply keep_ite | split | dsimp only | assumption | rfl)

theorem keep_stopIn (hm : 2195457 ||| m = m) {b : Block} (hb : P b) (p : Nat) : P (stopIn b p) := by
  unfold stopIn
  repeat' (first
    | with_reducible assumption | intro _ | exact bits_sub (by decide) hm | with_reducible apply keep_portLeave h
    | with_reducible apply keep_ite | split | dsimp only | assumption | rfl)

theorem keep_sweepIn (hm : 2200953337 ||| m = m) {b : Block} (hb : P b) (pr : Params) (p : Nat) (k : Sys2Proof.Packet)
    : P (sweepIn pr b p k) := by
  unfold sweepIn
  repeat' (first
    | with_reducible assumption | intro _ | exact bits_sub (by decide) hm | with_reducible apply keep_helloIn h
    | with_reducible apply keep_stopIn h | with_reducible apply keep_gupIn h | with_reducible apply keep_gdownIn h
    | with_reducible apply keep_ite | split | dsimp only | assumption | rfl)

theorem keep_pktIn (hm : 2200953337 ||| m = m) {b : Block} (hb : P b) (pr : Params) (p : Nat) (vc : Nat) (k :
    Sys2Proof.Packet) (pools : List Nat) : P (pktIn pr b p vc k pools) := by
  unfold pktIn
  repeat' (first
    | with_reducible assumption | intro _ | exact bits_sub (by decide) hm | with_reducible apply keep_portEv h
    | with_reducible apply keep_dropPkt h | with_reducible apply keep_poolFree h | with_reducible apply keep_sweepIn h
    | with_reducible apply keep_dataIn h | with_reducible apply keep_ite | split | dsimp only | assumption | rfl)

theorem keep_resend (hm : 18972673 ||| m = m) {b : Block} (hb : P b) (p : Nat) : P (resend b p) := by
  unfold resend
  repeat' (first
    | with_reducible assumption | intro _ | exact bits_sub (by decide) hm
    | (extract_lets +onlyGivenNames x; refine keep_cut (p := P x) ?_ (fun kx => ?_); rotate_left; clear_value x; rotate_right; unfold x; clear x)
    | (extract_lets +onlyGivenNames x; unfold x; clear x)
    | (extract_lets +onlyGivenNames x; clear x)
    | with_reducible apply keep_portDown h | with_reducible apply keep_setPort h | with_reducible apply keep_count h
    | with_reducible apply keep_rcount h | with_reducible apply keep_ite | split | dsimp only | assumption | rfl)

theorem keep_takeLcw (hm : 18972673 ||| m = m) {b : Block} (hb : P b) (p : Nat) (raw : Nat) : P (takeLcw b p raw) :=
    by
  unfold takeLcw
  repeat' (first
    | with_reducible assumption | intro _ | exact bits_sub (by decide) hm
    | (extract_lets +onlyGivenNames x; refine keep_cut (p := P x) ?_ (fun kx => ?_); rotate_left; clear_value x; rotate_right; unfold x; clear x)
    | (extract_lets +onlyGivenNames x; unfold x; clear x)
    | (extract_lets +onlyGivenNames x; clear x)
    | with_reducible apply keep_modPort h | with_reducible apply keep_count h | with_reducible apply keep_resend h
    | with_reducible apply keep_ite | split | dsimp only | assumption | rfl)

theorem keep_bodyIn (hm : 2200953337 ||| m = m) {b : Block} (hb : P b) (pr : Params) (p : Nat) (raw : Nat) : P (bodyIn
    pr b p raw) := by
  unfold bodyIn
  repeat' (first
    | with_reducible assumption | intro _ | exact bits_sub (by decide) hm
    | (extract_lets +onlyGivenNames x; refine keep_cut (p := P x) ?_ (fun kx => ?_); rotate_left; clear_value x; rotate_right; unfold x; clear x)
    | (extract_lets +onlyGivenNames x; unfold x; clear x)
    | (extract_lets +onlyGivenNames x; clear x)
    | (with_reducible refine keep_forEach _ _ ?_ ?_) | with_reducible apply keep_modPort h
    | with_reducible apply keep_pktIn h | with_reducible apply keep_ite | split | dsimp only | assumption | rfl)

theorem keep_flitIn (hm : 2200953337 ||| m = m) {b : Block} (hb : P b) (pr : Params) (p : Nat) (raw : Nat) (marked :
    Bool) : P (flitIn pr b p raw marked) := by
  unfold flitIn
  repeat' (first
    | with_reducible assumption | intro _ | exact bits_sub (by decide) hm
    | (extract_lets +onlyGivenNames x; refine keep_cut (p := P x) ?_ (fun kx => ?_); rotate_left; clear_value x; rotate_right; unfold x; clear x)
    | (extract_lets +onlyGivenNames x; unfold x; clear x)
    | (extract_lets +onlyGivenNames x; clear x)
    | with_reducible apply keep_flitBad h | with_reducible apply keep_takeLcw h | with_reducible apply keep_bodyIn h
    | with_reducible apply keep_setPort h | with_reducible apply keep_ite | split | dsimp only | assumption | rfl)

theorem keep_takeToken (hm : 4 ||| m = m) {b : Block} (hb : P b) (n : Nat) (c : Nat) (write : Bool) : P (takeToken b n
    c write) := by
  unfold takeToken
  repeat' (first
    | with_reducible assumption | intro _ | exact bits_sub (by decide) hm | with_reducible apply keep_modChan h
    | with_reducible apply keep_ite | split | dsimp only | assumption | rfl)

theorem keep_freeRead (hm : 16842781 ||| m = m) {b : Block} (hb : P b) (n : Nat) : P (freeRead b n) := by
  unfold freeRead
  repeat' (first
    | with_reducible assumption | intro _ | exact bits_sub (by decide) hm
    | (extract_lets +onlyGivenNames x; refine keep_cut (p := P x) ?_ (fun kx => ?_); rotate_left; clear_value x; rotate_right; unfold x; clear x)
    | (extract_lets +onlyGivenNames x; unfold x; clear x)
    | (extract_lets +onlyGivenNames x; clear x)
    | with_reducible apply keep_ageAll h | with_reducible apply keep_countAged h | with_reducible apply keep_modStn h
    | with_reducible apply keep_poolFree h | with_reducible apply keep_count h | with_reducible apply keep_takeToken h
    | with_reducible apply keep_modOp h | with_reducible apply keep_countCh h | with_reducible apply keep_ite | split
    | dsimp only | assumption | rfl)

theorem keep_nearDepart (hm : 1092616633 ||| m = m) {b : Block} (hb : P b) (n : Nat) (l : NearLine) (corrected : Nat)
    (rows : Nat) : P (nearDepart b n l corrected rows) := by
  unfold nearDepart
  repeat' (first
    | with_reducible assumption | intro _ | exact bits_sub (by decide) hm
    | (extract_lets +onlyGivenNames x; refine keep_cut (p := P x) ?_ (fun kx => ?_); rotate_left; clear_value x; rotate_right; unfold x; clear x)
    | (extract_lets +onlyGivenNames x; unfold x; clear x)
    | (extract_lets +onlyGivenNames x; clear x)
    | with_reducible apply keep_newId h | (with_reducible refine keep_newId_eq h ?_ ?_ (by assumption))
    | with_reducible apply keep_modStn h | with_reducible apply keep_nearCorrected h
    | with_reducible apply keep_count h | with_reducible apply keep_countCh h
    | with_reducible apply keep_bufferFault h | with_reducible apply keep_ite | split | dsimp only | assumption | rfl)

theorem keep_freeWrite (hm : 1092714941 ||| m = m) {b : Block} (hb : P b) (n : Nat) (corrected : Nat) (rows : Nat) : P
    (freeWrite b n corrected rows) := by
  unfold freeWrite
  repeat' (first
    | with_reducible assumption | intro _ | exact bits_sub (by decide) hm
    | (extract_lets +onlyGivenNames x; refine keep_cut (p := P x) ?_ (fun kx => ?_); rotate_left; clear_value x; rotate_right; unfold x; clear x)
    | (extract_lets +onlyGivenNames x; unfold x; clear x)
    | (extract_lets +onlyGivenNames x; clear x)
    | with_reducible apply keep_ageAll h | with_reducible apply keep_countAged h | with_reducible apply keep_modStn h
    | with_reducible apply keep_nearDepart h | with_reducible apply keep_poolFree h
    | with_reducible apply keep_takeToken h | with_reducible apply keep_modOp h | with_reducible apply keep_tick h
    | with_reducible apply keep_ite | split | dsimp only | assumption | rfl)

theorem keep_progGive (hm : 18931717 ||| m = m) {b : Block} (hb : P b) (p : Params) (n : Nat) (c : Nat) (new : List
    Xl) : P (progGive p b n c new) := by
  unfold progGive
  repeat' (first
    | with_reducible assumption | intro _ | exact bits_sub (by decide) hm
    | (extract_lets +onlyGivenNames x; refine keep_cut (p := P x) ?_ (fun kx => ?_); rotate_left; clear_value x; rotate_right; unfold x; clear x)
    | (extract_lets +onlyGivenNames x; unfold x; clear x)
    | (extract_lets +onlyGivenNames x; clear x)
    | with_reducible apply keep_pump h | with_reducible apply keep_setChan h | with_reducible apply keep_ite | split
    | dsimp only | assumption | rfl)

theorem keep_giveHit (hm : 18932157 ||| m = m) {b : Block} (hb : P b) (p : Params) (r : Requester) (l : List Xl) : P
    (giveHit p b r l) := by
  unfold giveHit
  repeat' (first
    | with_reducible assumption | intro _ | exact bits_sub (by decide) hm | with_reducible apply keep_progGive h
    | with_reducible apply keep_modStrand h | with_reducible apply keep_tick h | with_reducible apply keep_ite | split
    | dsimp only | assumption | rfl)

theorem keep_gopArrive (hm : 2200953337 ||| m = m) {b : Block} (hb : P b) (p : Params) (s : Nat) : P (gopArrive p b s)
    := by
  unfold gopArrive
  repeat' (first
    | with_reducible assumption | intro _ | exact bits_sub (by decide) hm
    | (extract_lets +onlyGivenNames x; refine keep_cut (p := P x) ?_ (fun kx => ?_); rotate_left; clear_value x; rotate_right; unfold x; clear x)
    | (extract_lets +onlyGivenNames x; unfold x; clear x)
    | (extract_lets +onlyGivenNames x; clear x)
    | with_reducible apply keep_modGop h | with_reducible apply keep_gopRun h | with_reducible apply keep_ite | split
    | dsimp only | assumption | rfl)

theorem keep_gopWritten (hm : 2200953337 ||| m = m) {b : Block} (hb : P b) (p : Params) (s : Nat) (ok : Bool) : P
    (gopWritten p b s ok) := by
  unfold gopWritten
  repeat' (first
    | with_reducible assumption | intro _ | exact bits_sub (by decide) hm
    | (extract_lets +onlyGivenNames x; refine keep_cut (p := P x) ?_ (fun kx => ?_); rotate_left; clear_value x; rotate_right; unfold x; clear x)
    | (extract_lets +onlyGivenNames x; unfold x; clear x)
    | (extract_lets +onlyGivenNames x; clear x)
    | with_reducible apply keep_modGop h | with_reducible apply keep_gopRun h | with_reducible apply keep_gopFail h
    | with_reducible apply keep_ite | split | dsimp only | assumption | rfl)

theorem keep_takeHeld (hm : 8 ||| m = m) {b : Block} (hb : P b) (n : Nat) (k : Nat) (o : Op) : P (takeHeld b n k o) :=
    by
  unfold takeHeld
  repeat' (first
    | with_reducible assumption | intro _ | exact bits_sub (by decide) hm | with_reducible apply keep_listDone h
    | with_reducible apply keep_ite | split | dsimp only | assumption | rfl)

theorem keep_grantHaz (hm : 16908729 ||| m = m) {b : Block} (hb : P b) (n : Nat) (k : Nat) (o : Op) : P (grantHaz b n
    k o) := by
  unfold grantHaz
  repeat' (first
    | with_reducible assumption | intro _ | exact bits_sub (by decide) hm
    | (extract_lets +onlyGivenNames x; refine keep_cut (p := P x) ?_ (fun kx => ?_); rotate_left; clear_value x; rotate_right; unfold x; clear x)
    | (extract_lets +onlyGivenNames x; unfold x; clear x)
    | (extract_lets +onlyGivenNames x; clear x)
    | with_reducible apply keep_modStn h | with_reducible apply keep_dropListLines h
    | with_reducible apply keep_countCh h | with_reducible apply keep_rcount h | with_reducible apply keep_modOp h
    | with_reducible apply keep_takeHeld h | with_reducible apply keep_afterConflict h | with_reducible apply keep_ite
    | split | dsimp only | assumption | rfl)

theorem keep_grpSleep (hm : 4194304 ||| m = m) {b : Block} (hb : P b) (p : Params) (g : Nat) : P (grpSleep p b g) :=
    by
  unfold grpSleep
  repeat' (first
    | with_reducible assumption | intro _ | exact bits_sub (by decide) hm | with_reducible apply keep_modGrp h
    | with_reducible apply keep_ite | split | dsimp only | assumption | rfl)

theorem keep_grpWake (hm : 4194304 ||| m = m) {b : Block} (hb : P b) (n : Nat) : P (grpWake b n) := by
  unfold grpWake
  repeat' (first
    | with_reducible assumption | intro _ | exact bits_sub (by decide) hm
    | (extract_lets +onlyGivenNames x; refine keep_cut (p := P x) ?_ (fun kx => ?_); rotate_left; clear_value x; rotate_right; unfold x; clear x)
    | (extract_lets +onlyGivenNames x; unfold x; clear x)
    | (extract_lets +onlyGivenNames x; clear x)
    | with_reducible apply keep_modGrp h | with_reducible apply keep_ite | split | dsimp only | assumption | rfl)

theorem keep_guardExpire (hm : 440 ||| m = m) {b : Block} (hb : P b) (n : Nat) (k : Nat) (o : Op) : P (guardExpire b n
    k o) := by
  unfold guardExpire
  repeat' (first
    | with_reducible assumption | intro _ | exact bits_sub (by decide) hm
    | (extract_lets +onlyGivenNames x; refine keep_cut (p := P x) ?_ (fun kx => ?_); rotate_left; clear_value x; rotate_right; unfold x; clear x)
    | (extract_lets +onlyGivenNames x; unfold x; clear x)
    | (extract_lets +onlyGivenNames x; clear x)
    | with_reducible apply keep_dropWaiters h | with_reducible apply keep_modStrand h
    | with_reducible apply keep_stopAt h | with_reducible apply keep_dropOp h | with_reducible apply keep_ite | split
    | dsimp only | assumption | rfl)

theorem keep_safeNow (hm : 2097152 ||| m = m) {b : Block} (hb : P b) (p : Params) : P (safeNow p b) := by
  unfold safeNow
  repeat' (first
    | with_reducible assumption | intro _ | exact bits_sub (by decide) hm | with_reducible apply keep_modRef h
    | with_reducible apply keep_ite | split | dsimp only | assumption | rfl)

theorem keep_haltReport (hm : 2097168 ||| m = m) {b : Block} (hb : P b) (p : Params) (n : Option Nat) : P (haltReport
    p b n) := by
  unfold haltReport
  repeat' (first
    | with_reducible assumption | intro _ | exact bits_sub (by decide) hm | with_reducible apply keep_safeNow h
    | with_reducible apply keep_modStn h | with_reducible apply keep_modRef h | with_reducible apply keep_ite | split
    | dsimp only | assumption | rfl)

theorem keep_hazStep (hm : 16908729 ||| m = m) {b : Block} (hb : P b) (n : Nat) (k : Nat) : P (hazStep b n k) := by
  unfold hazStep
  repeat' (first
    | with_reducible assumption | intro _ | exact bits_sub (by decide) hm
    | (extract_lets +onlyGivenNames x; refine keep_cut (p := P x) ?_ (fun kx => ?_); rotate_left; clear_value x; rotate_right; unfold x; clear x)
    | (extract_lets +onlyGivenNames x; unfold x; clear x)
    | (extract_lets +onlyGivenNames x; clear x)
    | with_reducible apply keep_afterConflict h | with_reducible apply keep_grantHaz h
    | with_reducible apply keep_takeHeld h | with_reducible apply keep_ite | split | dsimp only | assumption | rfl)

theorem keep_hubFree (hm : 24576 ||| m = m) {b : Block} (hb : P b) (tag : Nat) : P (hubFree b tag) := by
  unfold hubFree
  repeat' (first
    | with_reducible assumption | intro _ | exact bits_sub (by decide) hm | with_reducible apply keep_ite | split
    | with_reducible apply upd_hubWr h | with_reducible apply upd_hubWr_hubQ h | dsimp only | assumption | rfl)

theorem keep_statusBack (hm : 18931781 ||| m = m) {b : Block} (hb : P b) (p : Params) (n : Nat) (c : Nat) (idx :
    Sys2Proof.Word) (tag : Nat) (ok : Bool) : P (statusBack p b n c idx tag ok) := by
  unfold statusBack
  repeat' (first
    | with_reducible assumption | intro _ | exact bits_sub (by decide) hm
    | (extract_lets +onlyGivenNames x; refine keep_cut (p := P x) ?_ (fun kx => ?_); rotate_left; clear_value x; rotate_right; unfold x; clear x)
    | (extract_lets +onlyGivenNames x; unfold x; clear x)
    | (extract_lets +onlyGivenNames x; clear x)
    | with_reducible apply keep_hubFree h | with_reducible apply keep_stopChan h | with_reducible apply keep_ringErr h
    | with_reducible apply keep_finishStatus h | with_reducible apply keep_ite | split | dsimp only | assumption | rfl)

theorem keep_hubWriteBack (hm : 2200953341 ||| m = m) {b : Block} (hb : P b) (p : Params) (tag : Nat) (ok : Bool) : P
    (hubWriteBack p b tag ok) := by
  unfold hubWriteBack
  repeat' (first
    | with_reducible assumption | intro _ | exact bits_sub (by decide) hm | with_reducible apply keep_statusBack h
    | with_reducible apply keep_hubFree h | with_reducible apply keep_gopWritten h | with_reducible apply keep_ite
    | split | dsimp only | assumption | rfl)

theorem keep_noTally (hm : 2129921 ||| m = m) {b : Block} (hb : P b) (u : MUnit) : P (noTally b u).2 := by
  unfold noTally
  repeat' (first
    | with_reducible assumption | intro _ | exact bits_sub (by decide) hm | with_reducible apply keep_talMisuse h
    | with_reducible apply keep_ite | split | dsimp only | assumption | rfl)

theorem keep_noTally_eq (hm : 2129921 ||| m = m) {b : Block} (hb : P b) {u : MUnit} {y : Took} {b' : Block} (e :
    noTally b u = (y, b')) : P b' := by
  have := keep_noTally h hm hb u
  rwa [e] at this

theorem keep_illegalUnit (hm : 2129921 ||| m = m) {b : Block} (hb : P b) (p : Params) (u : MUnit) : P (illegalUnit p b
    u).2 := by
  unfold illegalUnit
  repeat' (first
    | with_reducible assumption | intro _ | exact bits_sub (by decide) hm | with_reducible apply keep_noTally h
    | (with_reducible refine keep_noTally_eq h ?_ ?_ (by assumption)) | with_reducible apply keep_ite | split
    | dsimp only | assumption | rfl)

theorem keep_illegalUnit_eq (hm : 2129921 ||| m = m) {b : Block} (hb : P b) {p : Params} {u : MUnit} {y : Took} {b' :
    Block} (e : illegalUnit p b u = (y, b')) : P b' := by
  have := keep_illegalUnit h hm hb p u
  rwa [e] at this

theorem keep_invalAck (hm : 18977273 ||| m = m) {b : Block} (hb : P b) (p : Params) (id : Nat) : P (invalAck p b id)
    := by
  unfold invalAck
  repeat' (first
    | with_reducible assumption | intro _ | exact bits_sub (by decide) hm
    | (extract_lets +onlyGivenNames x; refine keep_cut (p := P x) ?_ (fun kx => ?_); rotate_left; clear_value x; rotate_right; unfold x; clear x)
    | (extract_lets +onlyGivenNames x; unfold x; clear x)
    | (extract_lets +onlyGivenNames x; clear x)
    | with_reducible apply keep_rcount h | with_reducible apply keep_wrLanded h | with_reducible apply keep_setStn h
    | with_reducible apply keep_ite | split | with_reducible apply upd_invals h | dsimp only | assumption | rfl)

theorem keep_invalTmo (hm : 18977273 ||| m = m) {b : Block} (hb : P b) (p : Params) (id : Nat) : P (invalTmo p b id)
    := by
  unfold invalTmo
  repeat' (first
    | with_reducible assumption | intro _ | exact bits_sub (by decide) hm
    | (extract_lets +onlyGivenNames x; refine keep_cut (p := P x) ?_ (fun kx => ?_); rotate_left; clear_value x; rotate_right; unfold x; clear x)
    | (extract_lets +onlyGivenNames x; unfold x; clear x)
    | (extract_lets +onlyGivenNames x; clear x)
    | with_reducible apply keep_rcount h | with_reducible apply keep_wrFailed h | with_reducible apply keep_setStn h
    | with_reducible apply keep_ite | split | with_reducible apply upd_invals h | dsimp only | assumption | rfl)

theorem keep_issueLink (hm : 1073807376 ||| m = m) {b : Block} (hb : P b) (n : Nat) (e0 : LinkAcc) : P (issueLink b n
    e0) := by
  unfold issueLink
  repeat' (first
    | with_reducible assumption | intro _ | exact bits_sub (by decide) hm
    | (extract_lets +onlyGivenNames x; refine keep_cut (p := P x) ?_ (fun kx => ?_); rotate_left; clear_value x; rotate_right; unfold x; clear x)
    | (extract_lets +onlyGivenNames x; unfold x; clear x)
    | (extract_lets +onlyGivenNames x; clear x)
    | with_reducible apply keep_newId h | (with_reducible refine keep_newId_eq h ?_ ?_ (by assumption))
    | with_reducible apply keep_poolFree h | with_reducible apply keep_setStn h | with_reducible apply keep_ite
    | split | dsimp only | assumption | rfl)

theorem keep_sendPkt (hm : 65537 ||| m = m) {b : Block} (hb : P b) (src : Nat) (vcIn : Nat) (k : Sys2Proof.Packet) : P
    (sendPkt b src vcIn k) := by
  unfold sendPkt
  repeat' (first
    | with_reducible assumption | intro _ | exact bits_sub (by decide) hm | with_reducible apply keep_sendRsp h
    | with_reducible apply keep_termLocal h | with_reducible apply keep_modPort h | with_reducible apply keep_ite
    | split | dsimp only | assumption | rfl)

theorem keep_issueRead (hm : 16842781 ||| m = m) {b : Block} (hb : P b) (n : Nat) (k : Nat) (s : Strand) (o : Op) (br
    : Burst) : P (issueRead b n k s o br) := by
  unfold issueRead
  repeat' (first
    | with_reducible assumption | intro _ | exact bits_sub (by decide) hm
    | (extract_lets +onlyGivenNames x; refine keep_cut (p := P x) ?_ (fun kx => ?_); rotate_left; clear_value x; rotate_right; unfold x; clear x)
    | (extract_lets +onlyGivenNames x; unfold x; clear x)
    | (extract_lets +onlyGivenNames x; clear x)
    | with_reducible apply keep_takeToken h | with_reducible apply keep_bumpRead h
    | with_reducible apply keep_setStn h | with_reducible apply keep_modStrand h | with_reducible apply keep_countCh h
    | with_reducible apply keep_sendPkt h | with_reducible apply keep_ite | split | dsimp only | assumption | rfl)

theorem keep_issueWrite (hm : 1090584605 ||| m = m) {b : Block} (hb : P b) (n : Nat) (k : Nat) (s : Strand) (o : Op)
    (br : Burst) (data : Nat) (pois : Nat) (rows : Nat) : P (issueWrite b n k s o br data pois rows) := by
  unfold issueWrite
  repeat' (first
    | with_reducible assumption | intro _ | exact bits_sub (by decide) hm
    | (extract_lets +onlyGivenNames x; refine keep_cut (p := P x) ?_ (fun kx => ?_); rotate_left; clear_value x; rotate_right; unfold x; clear x)
    | (extract_lets +onlyGivenNames x; unfold x; clear x)
    | (extract_lets +onlyGivenNames x; clear x)
    | with_reducible apply keep_takeToken h | with_reducible apply keep_modOp h | with_reducible apply keep_newId h
    | (with_reducible refine keep_newId_eq h ?_ ?_ (by assumption)) | with_reducible apply keep_setStn h
    | with_reducible apply keep_modStrand h | with_reducible apply keep_countCh h | with_reducible apply keep_count h
    | with_reducible apply keep_sendPkt h | with_reducible apply keep_ite | split | dsimp only | assumption | rfl)

theorem keep_landTmo (hm : 18973177 ||| m = m) {b : Block} (hb : P b) (p : Params) (n : Nat) (tag : Nat) : P (landTmo
    p b n tag) := by
  unfold landTmo
  repeat' (first
    | with_reducible assumption | intro _ | exact bits_sub (by decide) hm
    | (extract_lets +onlyGivenNames x; refine keep_cut (p := P x) ?_ (fun kx => ?_); rotate_left; clear_value x; rotate_right; unfold x; clear x)
    | (extract_lets +onlyGivenNames x; unfold x; clear x)
    | (extract_lets +onlyGivenNames x; clear x)
    | with_reducible apply keep_wrFailed h | with_reducible apply keep_rcount h | with_reducible apply keep_setStn h
    | with_reducible apply keep_ite | split | dsimp only | assumption | rfl)

theorem keep_moveSeg (hm : 1048576 ||| m = m) {b : Block} (hb : P b) (obj : Nat) (seg : Nat) (pos : Nat) : P (moveSeg
    b obj seg pos) := by
  unfold moveSeg
  repeat' (first
    | with_reducible assumption | intro _ | exact bits_sub (by decide) hm | with_reducible apply keep_modObj h
    | with_reducible apply keep_ite | split | dsimp only | assumption | rfl)

theorem keep_levelWear (hm : 1048576 ||| m = m) {b : Block} (hb : P b) (p : Params) : P (levelWear p b) := by
  unfold levelWear
  repeat' (first
    | with_reducible assumption | intro _ | exact bits_sub (by decide) hm
    | (extract_lets +onlyGivenNames x; refine keep_cut (p := P x) ?_ (fun kx => ?_); rotate_left; clear_value x; rotate_right; unfold x; clear x)
    | (extract_lets +onlyGivenNames x; unfold x; clear x)
    | (extract_lets +onlyGivenNames x; clear x)
    | with_reducible apply keep_moveSeg h | with_reducible apply keep_ite | split | dsimp only | assumption | rfl)

theorem keep_lineBack (hm : 18932157 ||| m = m) {b : Block} (hb : P b) (p : Params) (n : Nat) (k : Nat) (va : Nat)
    (data : Sys2Proof.Line) (ret : Sys2Proof.Ret) : P (lineBack p b n k va data ret) := by
  unfold lineBack
  repeat' (first
    | with_reducible assumption | intro _ | exact bits_sub (by decide) hm
    | (extract_lets +onlyGivenNames x; refine keep_cut (p := P x) ?_ (fun kx => ?_); rotate_left; clear_value x; rotate_right; unfold x; clear x)
    | (extract_lets +onlyGivenNames x; unfold x; clear x)
    | (extract_lets +onlyGivenNames x; clear x)
    | with_reducible apply keep_oldBack h | with_reducible apply keep_drained h | with_reducible apply keep_setStn h
    | with_reducible apply keep_discardRsp h | with_reducible apply keep_prefetchErr h
    | with_reducible apply keep_modStrand h | with_reducible apply keep_ite | split | dsimp only | assumption | rfl)

theorem keep_linkReadDone (hm : 2162689 ||| m = m) {b : Block} (hb : P b) (port : Nat) (k : Sys2Proof.Packet) (ok :
    Bool) (data : Nat) (poison : Nat) (addr : Nat) (cause : Nat) : P (linkReadDone b port k ok data poison addr cause)
    := by
  unfold linkReadDone
  repeat' (first
    | with_reducible assumption | intro _ | exact bits_sub (by decide) hm | with_reducible apply keep_sendRsp h
    | with_reducible apply keep_linkAccessErr h | with_reducible apply keep_ite | split | dsimp only | assumption
    | rfl)

theorem keep_lockedSlot (hm : 1092649401 ||| m = m) {b : Block} (hb : P b) (n : Nat) (corrected : Nat) (rows : Nat) :
    P (lockedSlot b n corrected rows) := by
  unfold lockedSlot
  repeat' (first
    | with_reducible assumption | intro _ | exact bits_sub (by decide) hm
    | (extract_lets +onlyGivenNames x; refine keep_cut (p := P x) ?_ (fun kx => ?_); rotate_left; clear_value x; rotate_right; unfold x; clear x)
    | (extract_lets +onlyGivenNames x; unfold x; clear x)
    | (extract_lets +onlyGivenNames x; clear x)
    | with_reducible apply keep_nearDepart h | with_reducible apply keep_modStn h | with_reducible apply keep_tick h
    | with_reducible apply keep_count h | with_reducible apply keep_rcount h | with_reducible apply keep_ite | split
    | dsimp only | assumption | rfl)

theorem keep_logCopyAll (hm : 9437184 ||| m = m) {b : Block} (hb : P b) : P (logCopyAll b) := by
  unfold logCopyAll
  repeat' (first
    | with_reducible assumption | intro _ | exact bits_sub (by decide) hm
    | (extract_lets +onlyGivenNames x; refine keep_cut (p := P x) ?_ (fun kx => ?_); rotate_left; clear_value x; rotate_right; unfold x; clear x)
    | (extract_lets +onlyGivenNames x; unfold x; clear x)
    | (extract_lets +onlyGivenNames x; clear x)
    | with_reducible apply keep_modMgmt h | with_reducible apply keep_modVault h | with_reducible apply keep_ite
    | split | dsimp only | assumption | rfl)

theorem keep_logQueue (hm : 11567105 ||| m = m) {b : Block} (hb : P b) (p : Params) (op : Nat) (area : Bool) (offset :
    Nat) (len : Nat) (sram : Nat) (data : List Sys2Proof.Byte) (fault : Bool) : P (logQueue p b op area offset len
    sram data fault) := by
  unfold logQueue
  repeat' (first
    | with_reducible assumption | intro _ | exact bits_sub (by decide) hm
    | (extract_lets +onlyGivenNames x; refine keep_cut (p := P x) ?_ (fun kx => ?_); rotate_left; clear_value x; rotate_right; unfold x; clear x)
    | (extract_lets +onlyGivenNames x; unfold x; clear x)
    | (extract_lets +onlyGivenNames x; clear x)
    | with_reducible apply keep_modVault h | with_reducible apply keep_vaultPowerUp h
    | with_reducible apply keep_vaultSettle h | with_reducible apply keep_logMove h | with_reducible apply keep_ite
    | split | dsimp only | assumption | rfl)

theorem keep_reply (hm : 8421377 ||| m = m) {b : Block} (hb : P b) (m0 : Msg) (result : Nat) (data : List
    Sys2Proof.Word) : P (reply b m0 result data) := by
  unfold reply
  repeat' (first
    | with_reducible assumption | intro _ | exact bits_sub (by decide) hm | with_reducible apply keep_postMsg h
    | with_reducible apply keep_modMgmt h | with_reducible apply keep_ite | split | dsimp only | assumption | rfl)

theorem keep_logRead (hm : 10518529 ||| m = m) {b : Block} (hb : P b) (p : Params) (m0 : Msg) (fault : Bool) : P
    (logRead p b m0 fault) := by
  unfold logRead
  repeat' (first
    | with_reducible assumption | intro _ | exact bits_sub (by decide) hm
    | (extract_lets +onlyGivenNames x; refine keep_cut (p := P x) ?_ (fun kx => ?_); rotate_left; clear_value x; rotate_right; unfold x; clear x)
    | (extract_lets +onlyGivenNames x; unfold x; clear x)
    | (extract_lets +onlyGivenNames x; clear x)
    | with_reducible apply keep_reply h | with_reducible apply keep_vaultEv h | with_reducible apply keep_ite | split
    | dsimp only | assumption | rfl)

theorem keep_lullEntry (hm : 16 ||| m = m) {b : Block} (hb : P b) (n : Nat) : P (lullEntry b n) := by
  unfold lullEntry
  repeat' (first
    | with_reducible assumption | intro _ | exact bits_sub (by decide) hm
    | (extract_lets +onlyGivenNames x; refine keep_cut (p := P x) ?_ (fun kx => ?_); rotate_left; clear_value x; rotate_right; unfold x; clear x)
    | (extract_lets +onlyGivenNames x; unfold x; clear x)
    | (extract_lets +onlyGivenNames x; clear x)
    | with_reducible apply keep_setStn h | with_reducible apply keep_ite | split | dsimp only | assumption | rfl)

theorem keep_mailboxTake (hm : 8421377 ||| m = m) {b : Block} (hb : P b) : P (mailboxTake b) := by
  unfold mailboxTake
  repeat' (first
    | with_reducible assumption | intro _ | exact bits_sub (by decide) hm
    | (extract_lets +onlyGivenNames x; refine keep_cut (p := P x) ?_ (fun kx => ?_); rotate_left; clear_value x; rotate_right; unfold x; clear x)
    | (extract_lets +onlyGivenNames x; unfold x; clear x)
    | (extract_lets +onlyGivenNames x; clear x)
    | with_reducible apply keep_setCause h | with_reducible apply keep_modMgmt h | with_reducible apply keep_reply h
    | with_reducible apply keep_ite | split | dsimp only | assumption | rfl)

theorem keep_runImage (hm : 8388608 ||| m = m) {b : Block} (hb : P b) (version : Sys2Proof.Word) (mbox : Bool) : P
    (runImage b version mbox) := by
  unfold runImage
  repeat' (first
    | with_reducible assumption | intro _ | exact bits_sub (by decide) hm | with_reducible apply keep_modMgmt h
    | with_reducible apply keep_ite | split | dsimp only | assumption | rfl)

theorem keep_mgmtLoad (hm : 9437184 ||| m = m) {b : Block} (hb : P b) (p : Params) : P (mgmtLoad p b) := by
  unfold mgmtLoad
  repeat' (first
    | with_reducible assumption | intro _ | exact bits_sub (by decide) hm
    | (extract_lets +onlyGivenNames x; refine keep_cut (p := P x) ?_ (fun kx => ?_); rotate_left; clear_value x; rotate_right; unfold x; clear x)
    | (extract_lets +onlyGivenNames x; unfold x; clear x)
    | (extract_lets +onlyGivenNames x; clear x)
    | with_reducible apply keep_modMgmt h | with_reducible apply keep_enterRecovery h
    | with_reducible apply keep_vaultPowerUp h | with_reducible apply keep_vaultSettle h
    | with_reducible apply keep_runImage h | with_reducible apply keep_ite | split | dsimp only | assumption | rfl)

theorem keep_missed (hm : 16777477 ||| m = m) {b : Block} (hb : P b) (q : Nat) (w : Walk) (absent : Bool) : P (missed
    b q w absent) := by
  unfold missed
  repeat' (first
    | with_reducible assumption | intro _ | exact bits_sub (by decide) hm
    | (extract_lets +onlyGivenNames x; refine keep_cut (p := P x) ?_ (fun kx => ?_); rotate_left; clear_value x; rotate_right; unfold x; clear x)
    | (extract_lets +onlyGivenNames x; unfold x; clear x)
    | (extract_lets +onlyGivenNames x; clear x)
    | (with_reducible refine keep_forEach _ _ ?_ ?_) | with_reducible apply keep_setPart h
    | with_reducible apply keep_batchFull h | with_reducible apply keep_modChan h | with_reducible apply keep_ite
    | split | dsimp only | assumption | rfl)

theorem keep_mountEnd (hm : 19956153 ||| m = m) {b : Block} (hb : P b) (p : Params) (geometryOk : Bool) (copy : Option
    Sys2Proof.MetaCopy) : P (mountEnd p b geometryOk copy) := by
  unfold mountEnd
  repeat' (first
    | with_reducible assumption | intro _ | exact bits_sub (by decide) hm
    | (extract_lets +onlyGivenNames x; refine keep_cut (p := P x) ?_ (fun kx => ?_); rotate_left; clear_value x; rotate_right; unfold x; clear x)
    | (extract_lets +onlyGivenNames x; unfold x; clear x)
    | (extract_lets +onlyGivenNames x; clear x)
    | with_reducible apply keep_cmdDone h | with_reducible apply keep_modVault h
    | with_reducible apply keep_vaultWritesFail h | with_reducible apply keep_ite | split | dsimp only | assumption
    | rfl)

theorem keep_nearReadBack (hm : 18973113 ||| m = m) {b : Block} (hb : P b) (n : Nat) (data : Sys2Proof.SLine) (ret :
    Sys2Proof.Ret) (corrected : Nat) (rerr : Bool) : P (nearReadBack b n data ret corrected rerr) := by
  unfold nearReadBack
  repeat' (first
    | with_reducible assumption | intro _ | exact bits_sub (by decide) hm
    | (extract_lets +onlyGivenNames x; refine keep_cut (p := P x) ?_ (fun kx => ?_); rotate_left; clear_value x; rotate_right; unfold x; clear x)
    | (extract_lets +onlyGivenNames x; unfold x; clear x)
    | (extract_lets +onlyGivenNames x; clear x)
    | with_reducible apply keep_setStn h | with_reducible apply keep_nearCorrected h
    | with_reducible apply keep_linkReadDone h | with_reducible apply keep_opReadBack h
    | with_reducible apply keep_ite | split | dsimp only | assumption | rfl)

theorem keep_tickStn (hm : 18907577 ||| m = m) {b : Block} (hb : P b) (n : Nat) : P (tickStn b n) := by
  unfold tickStn
  repeat' (first
    | with_reducible assumption | intro _ | exact bits_sub (by decide) hm
    | (with_reducible refine keep_forEach _ _ ?_ ?_) | with_reducible apply keep_tick h
    | with_reducible apply keep_ite | split | dsimp only | assumption | rfl)

theorem keep_nearSlotStep (hm : 1092714941 ||| m = m) {b : Block} (hb : P b) (n : Nat) (corrected : Nat) (rows : Nat)
    : P (nearSlotStep b n corrected rows) := by
  unfold nearSlotStep
  repeat' (first
    | with_reducible assumption | intro _ | exact bits_sub (by decide) hm
    | (extract_lets +onlyGivenNames x; refine keep_cut (p := P x) ?_ (fun kx => ?_); rotate_left; clear_value x; rotate_right; unfold x; clear x)
    | (extract_lets +onlyGivenNames x; unfold x; clear x)
    | (extract_lets +onlyGivenNames x; clear x)
    | with_reducible apply keep_modStn h | with_reducible apply keep_tickStn h
    | with_reducible apply keep_lockedSlot h | with_reducible apply keep_freeWrite h
    | with_reducible apply keep_freeRead h | with_reducible apply keep_ite | split | dsimp only | assumption | rfl)

theorem keep_nearWrDone (hm : 18973177 ||| m = m) {b : Block} (hb : P b) (p : Params) (n : Nat) (fail : Option Nat) :
    P (nearWrDone p b n fail) := by
  unfold nearWrDone
  repeat' (first
    | with_reducible assumption | intro _ | exact bits_sub (by decide) hm
    | (extract_lets +onlyGivenNames x; refine keep_cut (p := P x) ?_ (fun kx => ?_); rotate_left; clear_value x; rotate_right; unfold x; clear x)
    | (extract_lets +onlyGivenNames x; unfold x; clear x)
    | (extract_lets +onlyGivenNames x; clear x)
    | with_reducible apply keep_setStn h | with_reducible apply keep_relHaz h
    | with_reducible apply keep_linkWriteDone h | with_reducible apply keep_opWriteFail h
    | with_reducible apply keep_tick h | with_reducible apply keep_ite | split | dsimp only | assumption | rfl)

theorem keep_offEntry (hm : 16 ||| m = m) {b : Block} (hb : P b) (n : Nat) : P (offEntry b n) := by
  unfold offEntry
  repeat' (first
    | with_reducible assumption | intro _ | exact bits_sub (by decide) hm
    | (extract_lets +onlyGivenNames x; refine keep_cut (p := P x) ?_ (fun kx => ?_); rotate_left; clear_value x; rotate_right; unfold x; clear x)
    | (extract_lets +onlyGivenNames x; unfold x; clear x)
    | (extract_lets +onlyGivenNames x; clear x)
    | with_reducible apply keep_setStn h | with_reducible apply keep_ite | split | dsimp only | assumption | rfl)

theorem keep_offLoss (hm : 24 ||| m = m) {b : Block} (hb : P b) (n : Nat) : P (offLoss b n) := by
  unfold offLoss
  repeat' (first
    | with_reducible assumption | intro _ | exact bits_sub (by decide) hm
    | (extract_lets +onlyGivenNames x; refine keep_cut (p := P x) ?_ (fun kx => ?_); rotate_left; clear_value x; rotate_right; unfold x; clear x)
    | (extract_lets +onlyGivenNames x; unfold x; clear x)
    | (extract_lets +onlyGivenNames x; clear x)
    | with_reducible apply keep_modStn h | with_reducible apply keep_ite | split | with_reducible apply upd_strands h
    | dsimp only | assumption | rfl)

theorem keep_opLimit (hm : 2147483648 ||| m = m) {b : Block} (hb : P b) (g : Nat) (pt : Nat) : P (opLimit b g pt).2 :=
    by
  unfold opLimit
  repeat' (first
    | with_reducible assumption | intro _ | exact bits_sub (by decide) hm
    | (extract_lets +onlyGivenNames x; refine keep_cut (p := P x) ?_ (fun kx => ?_); rotate_left; clear_value x; rotate_right; unfold x; clear x)
    | (extract_lets +onlyGivenNames x; unfold x; clear x)
    | (extract_lets +onlyGivenNames x; clear x)
    | with_reducible apply keep_draw h | (with_reducible refine keep_draw_eq h ?_ ?_ (by assumption))
    | with_reducible apply keep_ite | split | dsimp only | assumption | rfl)

theorem keep_opLimit_eq (hm : 2147483648 ||| m = m) {b : Block} (hb : P b) {g : Nat} {pt : Nat} {y : Nat} {b' : Block}
    (e : opLimit b g pt = (y, b')) : P b' := by
  have := keep_opLimit h hm hb g pt
  rwa [e] at this

theorem keep_opSwitch (hm : 2160066560 ||| m = m) {b : Block} (hb : P b) (g : Nat) (pt : Nat) : P (opSwitch b g pt) :=
    by
  unfold opSwitch
  repeat' (first
    | with_reducible assumption | intro _ | exact bits_sub (by decide) hm
    | (extract_lets +onlyGivenNames x; refine keep_cut (p := P x) ?_ (fun kx => ?_); rotate_left; clear_value x; rotate_right; unfold x; clear x)
    | (extract_lets +onlyGivenNames x; unfold x; clear x)
    | (extract_lets +onlyGivenNames x; clear x)
    | with_reducible apply keep_modGrp h | with_reducible apply keep_opLimit h
    | (with_reducible refine keep_opLimit_eq h ?_ ?_ (by assumption)) | with_reducible apply keep_logAppend h
    | with_reducible apply keep_ite | split | dsimp only | assumption | rfl)

theorem keep_opChange (hm : 2160066560 ||| m = m) {b : Block} (hb : P b) (p : Params) (g : Nat) : P (opChange p b g)
    := by
  unfold opChange
  repeat' (first
    | with_reducible assumption | intro _ | exact bits_sub (by decide) hm
    | (extract_lets +onlyGivenNames x; refine keep_cut (p := P x) ?_ (fun kx => ?_); rotate_left; clear_value x; rotate_right; unfold x; clear x)
    | (extract_lets +onlyGivenNames x; unfold x; clear x)
    | (extract_lets +onlyGivenNames x; clear x)
    | with_reducible apply keep_modGrp h | with_reducible apply keep_opSwitch h | with_reducible apply keep_ite
    | split | dsimp only | assumption | rfl)

theorem keep_pageLand (hm : 18973177 ||| m = m) {b : Block} (hb : P b) (p : Params) (obj : Nat) (pg : Nat) (ok : Bool)
    : P (pageLand p b obj pg ok) := by
  unfold pageLand
  repeat' (first
    | with_reducible assumption | intro _ | exact bits_sub (by decide) hm
    | (extract_lets +onlyGivenNames x; refine keep_cut (p := P x) ?_ (fun kx => ?_); rotate_left; clear_value x; rotate_right; unfold x; clear x)
    | (extract_lets +onlyGivenNames x; unfold x; clear x)
    | (extract_lets +onlyGivenNames x; clear x)
    | (with_reducible refine keep_forEach _ _ ?_ ?_) | with_reducible apply keep_modStn h
    | with_reducible apply keep_wrLanded h | with_reducible apply keep_vaultWrFail h | with_reducible apply keep_ite
    | split | dsimp only | assumption | rfl)

theorem keep_pageProg (hm : 20021753 ||| m = m) {b : Block} (hb : P b) (p : Params) (obj : Nat) (pg : Nat) : P
    (pageProg p b obj pg) := by
  unfold pageProg
  repeat' (first
    | with_reducible assumption | intro _ | exact bits_sub (by decide) hm
    | (extract_lets +onlyGivenNames x; refine keep_cut (p := P x) ?_ (fun kx => ?_); rotate_left; clear_value x; rotate_right; unfold x; clear x)
    | (extract_lets +onlyGivenNames x; unfold x; clear x)
    | (extract_lets +onlyGivenNames x; clear x)
    | with_reducible apply keep_setObj h | with_reducible apply keep_vaultSettle h
    | with_reducible apply keep_pageLand h | with_reducible apply keep_count h | with_reducible apply keep_ite | split
    | dsimp only | assumption | rfl)

theorem keep_poisonWaiter (hm : 19104185 ||| m = m) {b : Block} (hb : P b) (w : Waiter) : P (poisonWaiter b w) := by
  unfold poisonWaiter
  repeat' (first
    | with_reducible assumption | intro _ | exact bits_sub (by decide) hm | with_reducible apply keep_gopFail h
    | with_reducible apply keep_tick h | with_reducible apply keep_reqThaw h | with_reducible apply keep_stopAt h
    | with_reducible apply keep_guardExpire h | with_reducible apply keep_ite | split | dsimp only | assumption | rfl)

theorem keep_portDrained (hm : 65536 ||| m = m) {b : Block} (hb : P b) (p : Nat) : P (portDrained b p) := by
  unfold portDrained
  repeat' (first
    | with_reducible assumption | intro _ | exact bits_sub (by decide) hm
    | (extract_lets +onlyGivenNames x; refine keep_cut (p := P x) ?_ (fun kx => ?_); rotate_left; clear_value x; rotate_right; unfold x; clear x)
    | (extract_lets +onlyGivenNames x; unfold x; clear x)
    | (extract_lets +onlyGivenNames x; clear x)
    | with_reducible apply keep_setPort h | with_reducible apply keep_ite | split | dsimp only | assumption | rfl)

theorem keep_forwardPkt (hm : 2166423553 ||| m = m) {b : Block} (hb : P b) (p : Nat) (e0 : OutPkt) (bad : Nat) : P
    (forwardPkt b p e0 bad) := by
  unfold forwardPkt
  repeat' (first
    | with_reducible assumption | intro _ | exact bits_sub (by decide) hm | with_reducible apply keep_sendFlit h
    | with_reducible apply keep_badHeader h | with_reducible apply keep_poolFree h
    | with_reducible apply keep_modPort h | with_reducible apply keep_ite | split | dsimp only | assumption | rfl)

theorem keep_portSend (hm : 2166423553 ||| m = m) {b : Block} (hb : P b) (p : Nat) (bad : Nat) : P (portSend b p bad)
    := by
  unfold portSend
  repeat' (first
    | with_reducible assumption | intro _ | exact bits_sub (by decide) hm
    | (extract_lets +onlyGivenNames x; refine keep_cut (p := P x) ?_ (fun kx => ?_); rotate_left; clear_value x; rotate_right; unfold x; clear x)
    | (extract_lets +onlyGivenNames x; unfold x; clear x)
    | (extract_lets +onlyGivenNames x; clear x)
    | with_reducible apply keep_resendFlit h | with_reducible apply keep_modPort h | with_reducible apply keep_count h
    | with_reducible apply keep_forwardPkt h | with_reducible apply keep_ite | split | dsimp only | assumption | rfl)

theorem keep_progFail (hm : 20021753 ||| m = m) {b : Block} (hb : P b) (p : Params) (obj : Nat) (pg : Nat) (ch : Nat)
    : P (progFail p b obj pg ch) := by
  unfold progFail
  repeat' (first
    | with_reducible assumption | intro _ | exact bits_sub (by decide) hm
    | (extract_lets +onlyGivenNames x; refine keep_cut (p := P x) ?_ (fun kx => ?_); rotate_left; clear_value x; rotate_right; unfold x; clear x)
    | (extract_lets +onlyGivenNames x; unfold x; clear x)
    | (extract_lets +onlyGivenNames x; clear x)
    | with_reducible apply keep_blockFail h | (with_reducible refine keep_blockFail_eq h ?_ ?_ (by assumption))
    | with_reducible apply keep_modObj h | with_reducible apply keep_vaultSettle h
    | with_reducible apply keep_pageLand h | with_reducible apply keep_vaultEv h | with_reducible apply keep_ite
    | split | dsimp only | assumption | rfl)

theorem keep_queueOne (hm : 18907137 ||| m = m) {b : Block} (hb : P b) : P (queueOne b) := by
  unfold queueOne
  repeat' (first
    | with_reducible assumption | intro _ | exact bits_sub (by decide) hm
    | (extract_lets +onlyGivenNames x; refine keep_cut (p := P x) ?_ (fun kx => ?_); rotate_left; clear_value x; rotate_right; unfold x; clear x)
    | (extract_lets +onlyGivenNames x; unfold x; clear x)
    | (extract_lets +onlyGivenNames x; clear x)
    | with_reducible apply keep_insertSummary h | with_reducible apply keep_modSrc h
    | with_reducible apply keep_enqueue h | with_reducible apply keep_modRef h | with_reducible apply keep_ite | split
    | dsimp only | assumption | rfl)

theorem keep_railGood (hm : 2160066560 ||| m = m) {b : Block} (hb : P b) (g : Nat) : P (railGood b g) := by
  unfold railGood
  repeat' (first
    | with_reducible assumption | intro _ | exact bits_sub (by decide) hm | with_reducible apply keep_opSwitch h
    | with_reducible apply keep_ite | split | dsimp only | assumption | rfl)

theorem keep_railTimeout (hm : 14712833 ||| m = m) {b : Block} (hb : P b) (g : Nat) : P (railTimeout b g) := by
  unfold railTimeout
  repeat' (first
    | with_reducible assumption | intro _ | exact bits_sub (by decide) hm
    | (extract_lets +onlyGivenNames x; refine keep_cut (p := P x) ?_ (fun kx => ?_); rotate_left; clear_value x; rotate_right; unfold x; clear x)
    | (extract_lets +onlyGivenNames x; unfold x; clear x)
    | (extract_lets +onlyGivenNames x; clear x)
    | with_reducible apply keep_modGrp h | with_reducible apply keep_setCause h | with_reducible apply keep_rsetBits h
    | with_reducible apply keep_senseEv h | with_reducible apply keep_logAppend h | with_reducible apply keep_ite
    | split | dsimp only | assumption | rfl)

theorem keep_rally (hm : 19956153 ||| m = m) {b : Block} (hb : P b) (n : Nat) (k : Nat) (cw : Nat) (ok : Bool) (data :
    List Sys2Proof.Line) : P (rally b n k cw ok data) := by
  unfold rally
  repeat' (first
    | with_reducible assumption | intro _ | exact bits_sub (by decide) hm | with_reducible apply keep_decodeEnd h
    | with_reducible apply keep_ite | split | dsimp only | assumption | rfl)

theorem keep_takeIn (hm : 16842753 ||| m = m) {b : Block} (hb : P b) {p typ bad : Nat} {r : InPkt × Option Packet} {b' :
    Block} (e : takeIn b p typ bad = some (r, b')) : P b' := by
  unfold takeIn at e
  split at e
  · cases e
  · dsimp only at e
    cases e
    repeat' (first
      | with_reducible assumption | intro _ | exact bits_sub (by decide) hm | with_reducible apply keep_modPort h
      | with_reducible apply keep_count h | with_reducible apply keep_ite | split | dsimp only | assumption | rfl)

theorem keep_rdataIn (hm : 18973113 ||| m = m) {b : Block} (hb : P b) (p : Nat) (bad : Nat) : P (rdataIn b p bad) :=
    by
  unfold rdataIn
  repeat' (first
    | with_reducible assumption | intro _ | exact bits_sub (by decide) hm
    | (extract_lets +onlyGivenNames x; refine keep_cut (p := P x) ?_ (fun kx => ?_); rotate_left; clear_value x; rotate_right; unfold x; clear x)
    | (extract_lets +onlyGivenNames x; unfold x; clear x)
    | (extract_lets +onlyGivenNames x; clear x)
    | (with_reducible refine keep_takeIn h ?_ ?_ (by assumption)) | with_reducible apply keep_badHeader h
    | with_reducible apply keep_poolFree h | with_reducible apply keep_dropPkt h
    | with_reducible apply keep_winReadEnd h | with_reducible apply keep_laneTo h | with_reducible apply keep_ite
    | split | dsimp only | assumption | rfl)

theorem keep_reserveTag (hm : 16777233 ||| m = m) {b : Block} (hb : P b) (n : Nat) : P (reserveTag b n) := by
  unfold reserveTag
  repeat' (first
    | with_reducible assumption | intro _ | exact bits_sub (by decide) hm
    | (extract_lets +onlyGivenNames x; refine keep_cut (p := P x) ?_ (fun kx => ?_); rotate_left; clear_value x; rotate_right; unfold x; clear x)
    | (extract_lets +onlyGivenNames x; unfold x; clear x)
    | (extract_lets +onlyGivenNames x; clear x)
    | with_reducible apply keep_countAged h | with_reducible apply keep_setStn h | with_reducible apply keep_ite
    | split | dsimp only | assumption | rfl)

theorem keep_strayRsp (hm : 2097153 ||| m = m) {b : Block} (hb : P b) (n : Nat) (write : Bool) : P (strayRsp b n
    write) := by
  unfold strayRsp
  repeat' (first
    | with_reducible assumption | intro _ | exact bits_sub (by decide) hm | with_reducible apply keep_signalEv h
    | with_reducible apply keep_discardRsp h | with_reducible apply keep_ite | split | dsimp only | assumption | rfl)

theorem keep_readBack (hm : 18973113 ||| m = m) {b : Block} (hb : P b) (p : Params) (n : Nat) (tag : Nat) (data :
    Sys2Proof.Line) (ret : Sys2Proof.Ret) : P (readBack p b n tag data ret) := by
  unfold readBack
  repeat' (first
    | with_reducible assumption | intro _ | exact bits_sub (by decide) hm
    | (extract_lets +onlyGivenNames x; refine keep_cut (p := P x) ?_ (fun kx => ?_); rotate_left; clear_value x; rotate_right; unfold x; clear x)
    | (extract_lets +onlyGivenNames x; unfold x; clear x)
    | (extract_lets +onlyGivenNames x; clear x)
    | with_reducible apply keep_discardRsp h | with_reducible apply keep_drained h
    | with_reducible apply keep_setStn h | with_reducible apply keep_strayRsp h
    | with_reducible apply keep_reserveTag h | with_reducible apply keep_linkReadDone h
    | with_reducible apply keep_opReadBack h | with_reducible apply keep_ite | split | dsimp only | assumption | rfl)

theorem keep_refillAll (hm : 4 ||| m = m) {b : Block} (hb : P b) (n : Nat) (write : Bool) : P (refillAll b n write) :=
    by
  unfold refillAll
  repeat' (first
    | with_reducible assumption | intro _ | exact bits_sub (by decide) hm
    | (extract_lets +onlyGivenNames x; refine keep_cut (p := P x) ?_ (fun kx => ?_); rotate_left; clear_value x; rotate_right; unfold x; clear x)
    | (extract_lets +onlyGivenNames x; unfold x; clear x)
    | (extract_lets +onlyGivenNames x; clear x)
    | with_reducible apply keep_ite | split | with_reducible apply upd_chans h | dsimp only | assumption | rfl)

theorem keep_readIssue (hm : 1090584605 ||| m = m) {b : Block} (hb : P b) (n : Nat) : P (readIssue b n) := by
  unfold readIssue
  repeat' (first
    | with_reducible assumption | intro _ | exact bits_sub (by decide) hm
    | (extract_lets +onlyGivenNames x; refine keep_cut (p := P x) ?_ (fun kx => ?_); rotate_left; clear_value x; rotate_right; unfold x; clear x)
    | (extract_lets +onlyGivenNames x; unfold x; clear x)
    | (extract_lets +onlyGivenNames x; clear x)
    | with_reducible apply keep_refillAll h | with_reducible apply keep_count h | with_reducible apply keep_ageTags h
    | with_reducible apply keep_ageAll h | with_reducible apply keep_modStn h | with_reducible apply keep_countAged h
    | with_reducible apply keep_issueLink h | with_reducible apply keep_issueRead h | with_reducible apply keep_ite
    | split | dsimp only | assumption | rfl)

theorem keep_refreshSeg (hm : 17825793 ||| m = m) {b : Block} (hb : P b) (p : Params) (obj : Nat) (seg : Nat) : P
    (refreshSeg p b obj seg) := by
  unfold refreshSeg
  repeat' (first
    | with_reducible assumption | intro _ | exact bits_sub (by decide) hm
    | (extract_lets +onlyGivenNames x; refine keep_cut (p := P x) ?_ (fun kx => ?_); rotate_left; clear_value x; rotate_right; unfold x; clear x)
    | (extract_lets +onlyGivenNames x; unfold x; clear x)
    | (extract_lets +onlyGivenNames x; clear x)
    | with_reducible apply keep_count h | with_reducible apply keep_rcount h | with_reducible apply keep_moveSeg h
    | with_reducible apply keep_ite | split | dsimp only | assumption | rfl)

theorem keep_settle (hm : 32 ||| m = m) {b : Block} (hb : P b) (n : Nat) (t : Nat) (sc : Scope) (mark : Nat) : P
    (settle b n t sc mark) := by
  unfold settle
  repeat' (first
    | with_reducible assumption | intro _ | exact bits_sub (by decide) hm | with_reducible apply keep_modTal h
    | with_reducible apply keep_ite | split | dsimp only | assumption | rfl)

theorem keep_reportBarrier (hm : 48 ||| m = m) {b : Block} (hb : P b) (n : Nat) : P (reportBarrier b n) := by
  unfold reportBarrier
  repeat' (first
    | with_reducible assumption | intro _ | exact bits_sub (by decide) hm
    | (extract_lets +onlyGivenNames x; refine keep_cut (p := P x) ?_ (fun kx => ?_); rotate_left; clear_value x; rotate_right; unfold x; clear x)
    | (extract_lets +onlyGivenNames x; unfold x; clear x)
    | (extract_lets +onlyGivenNames x; clear x)
    | (with_reducible refine keep_forEach _ _ ?_ ?_) | with_reducible apply keep_setStn h
    | with_reducible apply keep_settle h | with_reducible apply keep_ite | split | dsimp only | assumption | rfl)

theorem keep_requestIn (hm : 18939921 ||| m = m) {b : Block} (hb : P b) (pr : Params) (p : Nat) (typ : Nat) (bad :
    Nat) : P (requestIn pr b p typ bad) := by
  unfold requestIn
  repeat' (first
    | with_reducible assumption | intro _ | exact bits_sub (by decide) hm
    | (extract_lets +onlyGivenNames x; refine keep_cut (p := P x) ?_ (fun kx => ?_); rotate_left; clear_value x; rotate_right; unfold x; clear x)
    | (extract_lets +onlyGivenNames x; unfold x; clear x)
    | (extract_lets +onlyGivenNames x; clear x)
    | (with_reducible refine keep_takeIn h ?_ ?_ (by assumption)) | with_reducible apply keep_badHeader h
    | with_reducible apply keep_poolFree h | with_reducible apply keep_linkRefuse h
    | with_reducible apply keep_reqThaw h | with_reducible apply keep_modStn h | with_reducible apply keep_ite | split
    | dsimp only | assumption | rfl)

theorem keep_resGrant (hm : 16777241 ||| m = m) {b : Block} (hb : P b) (n : Nat) (k : Nat) : P (resGrant b n k) := by
  unfold resGrant
  repeat' (first
    | with_reducible assumption | intro _ | exact bits_sub (by decide) hm
    | (extract_lets +onlyGivenNames x; refine keep_cut (p := P x) ?_ (fun kx => ?_); rotate_left; clear_value x; rotate_right; unfold x; clear x)
    | (extract_lets +onlyGivenNames x; unfold x; clear x)
    | (extract_lets +onlyGivenNames x; clear x)
    | with_reducible apply keep_modStn h | with_reducible apply keep_beginIssue h | with_reducible apply keep_setStn h
    | with_reducible apply keep_ite | split | dsimp only | assumption | rfl)

theorem keep_resetBegin (hm : 16 ||| m = m) {b : Block} (hb : P b) (n : Nat) : P (resetBegin b n) := by
  unfold resetBegin
  repeat' (first
    | with_reducible assumption | intro _ | exact bits_sub (by decide) hm
    | (extract_lets +onlyGivenNames x; refine keep_cut (p := P x) ?_ (fun kx => ?_); rotate_left; clear_value x; rotate_right; unfold x; clear x)
    | (extract_lets +onlyGivenNames x; unfold x; clear x)
    | (extract_lets +onlyGivenNames x; clear x)
    | with_reducible apply keep_setStn h | with_reducible apply keep_ite | split | dsimp only | assumption | rfl)

theorem keep_wipeCnts (hm : 16777216 ||| m = m) {b : Block} (hb : P b) (l : Sys2Proof.CntLoc) : P (wipeCnts b l) := by
  unfold wipeCnts
  repeat' (first
    | with_reducible assumption | intro _ | exact bits_sub (by decide) hm | with_reducible apply keep_ite | split
    | with_reducible apply upd_counters h | dsimp only | assumption | rfl)

theorem keep_stnReset (hm : 822084031 ||| m = m) {b : Block} (hb : P b) (n : Nat) : P (stnReset b n) := by
  unfold stnReset
  repeat' (first
    | with_reducible assumption | intro _ | exact bits_sub (by decide) hm
    | (extract_lets +onlyGivenNames x; refine keep_cut (p := P x) ?_ (fun kx => ?_); rotate_left; clear_value x; rotate_right; unfold x; clear x)
    | (extract_lets +onlyGivenNames x; unfold x; clear x)
    | (extract_lets +onlyGivenNames x; clear x)
    | with_reducible apply keep_wipeCnts h | with_reducible apply keep_wipe h | with_reducible apply keep_detachReq h
    | with_reducible apply keep_setStn h | with_reducible apply keep_ite | split
    | with_reducible apply upd_chans_strands_tallies_hazLatch h | dsimp only | assumption | rfl)

theorem keep_strdReset (hm : 440 ||| m = m) {b : Block} (hb : P b) (n : Nat) (s : Nat) : P (strdReset b n s) := by
  unfold strdReset
  repeat' (first
    | with_reducible assumption | intro _ | exact bits_sub (by decide) hm
    | (extract_lets +onlyGivenNames x; refine keep_cut (p := P x) ?_ (fun kx => ?_); rotate_left; clear_value x; rotate_right; unfold x; clear x)
    | (extract_lets +onlyGivenNames x; unfold x; clear x)
    | (extract_lets +onlyGivenNames x; clear x)
    | (with_reducible refine keep_forEach _ _ ?_ ?_) | with_reducible apply keep_detachReq h
    | with_reducible apply keep_dropWaiters h | with_reducible apply keep_modStn h | with_reducible apply keep_ite
    | split | with_reducible apply upd_strands h | dsimp only | assumption | rfl)

theorem keep_vaultReset (hm : 19956153 ||| m = m) {b : Block} (hb : P b) : P (vaultReset b) := by
  unfold vaultReset
  repeat' (first
    | with_reducible assumption | intro _ | exact bits_sub (by decide) hm
    | (extract_lets +onlyGivenNames x; refine keep_cut (p := P x) ?_ (fun kx => ?_); rotate_left; clear_value x; rotate_right; unfold x; clear x)
    | (extract_lets +onlyGivenNames x; unfold x; clear x)
    | (extract_lets +onlyGivenNames x; clear x)
    | with_reducible apply keep_vaultFail h | with_reducible apply keep_modVault h | with_reducible apply keep_ite
    | split | dsimp only | assumption | rfl)

theorem keep_xlatReset (hm : 18932157 ||| m = m) {b : Block} (hb : P b) (p : Params) : P (xlatReset p b) := by
  unfold xlatReset
  repeat' (first
    | with_reducible assumption | intro _ | exact bits_sub (by decide) hm
    | (extract_lets +onlyGivenNames x; refine keep_cut (p := P x) ?_ (fun kx => ?_); rotate_left; clear_value x; rotate_right; unfold x; clear x)
    | (extract_lets +onlyGivenNames x; unfold x; clear x)
    | (extract_lets +onlyGivenNames x; clear x)
    | (with_reducible refine keep_forEach _ _ ?_ ?_) | with_reducible apply keep_offsideAll h
    | with_reducible apply keep_markStale h | with_reducible apply keep_setPart h | with_reducible apply keep_ite
    | split | dsimp only | assumption | rfl)

theorem keep_unitReset (hm : 859824575 ||| m = m) {b : Block} (hb : P b) (p : Params) (pg : Page) : P (unitReset p b
    pg) := by
  unfold unitReset
  repeat' (first
    | with_reducible assumption | intro _ | exact bits_sub (by decide) hm
    | (extract_lets +onlyGivenNames x; refine keep_cut (p := P x) ?_ (fun kx => ?_); rotate_left; clear_value x; rotate_right; unfold x; clear x)
    | (extract_lets +onlyGivenNames x; unfold x; clear x)
    | (extract_lets +onlyGivenNames x; clear x)
    | (with_reducible refine keep_forEach _ _ ?_ ?_) | with_reducible apply keep_xlatReset h
    | with_reducible apply keep_wipe h | with_reducible apply keep_stnReset h | with_reducible apply keep_chanReset h
    | with_reducible apply keep_strdReset h | with_reducible apply keep_discardOp h
    | with_reducible apply keep_modStn h | with_reducible apply keep_modStrand h | with_reducible apply keep_modOp h
    | with_reducible apply keep_wipeCnts h | with_reducible apply keep_gopUnwait h
    | with_reducible apply keep_freeOut h | with_reducible apply keep_setPort h
    | with_reducible apply keep_vaultReset h | with_reducible apply keep_ite | split
    | with_reducible apply upd_strands h | with_reducible apply upd_hazLatch h | with_reducible apply upd_frzTime h
    | with_reducible apply upd_gops_linkReset_colour h | dsimp only | assumption | rfl)

theorem keep_resetDone (hm : 4093634559 ||| m = m) {b : Block} (hb : P b) (p : Params) (addr : Nat) : P (resetDone p b
    addr) := by
  unfold resetDone
  repeat' (first
    | with_reducible assumption | intro _ | exact bits_sub (by decide) hm
    | (extract_lets +onlyGivenNames x; refine keep_cut (p := P x) ?_ (fun kx => ?_); rotate_left; clear_value x; rotate_right; unfold x; clear x)
    | (extract_lets +onlyGivenNames x; unfold x; clear x)
    | (extract_lets +onlyGivenNames x; clear x)
    | with_reducible apply keep_cfgPump h | with_reducible apply keep_unitReset h | with_reducible apply keep_ite
    | split | dsimp only | assumption | rfl)

theorem keep_walkEnd (hm : 16777217 ||| m = m) {b : Block} (hb : P b) (missd : Bool) (n : Nat) : P (walkEnd b missd n)
    := by
  unfold walkEnd
  repeat' (first
    | with_reducible assumption | intro _ | exact bits_sub (by decide) hm
    | (extract_lets +onlyGivenNames x; refine keep_cut (p := P x) ?_ (fun kx => ?_); rotate_left; clear_value x; rotate_right; unfold x; clear x)
    | (extract_lets +onlyGivenNames x; unfold x; clear x)
    | (extract_lets +onlyGivenNames x; clear x)
    | with_reducible apply keep_rcount h | with_reducible apply keep_count h | with_reducible apply keep_ite | split
    | dsimp only | assumption | rfl)

theorem keep_retryWalk (hm : 18932157 ||| m = m) {b : Block} (hb : P b) (p : Params) (q : Nat) (idx : Nat) (group :
    List Sys2Proof.TabEntry) (err : Bool) : P (retryWalk p b q idx group err) := by
  unfold retryWalk
  repeat' (first
    | with_reducible assumption | intro _ | exact bits_sub (by decide) hm
    | (extract_lets +onlyGivenNames x; refine keep_cut (p := P x) ?_ (fun kx => ?_); rotate_left; clear_value x; rotate_right; unfold x; clear x)
    | (extract_lets +onlyGivenNames x; unfold x; clear x)
    | (extract_lets +onlyGivenNames x; clear x)
    | (with_reducible refine keep_forEach _ _ ?_ ?_) | with_reducible apply keep_setPart h
    | with_reducible apply keep_giveOffside h | with_reducible apply keep_breakPart h
    | with_reducible apply keep_walkEnd h | with_reducible apply keep_giveHit h | with_reducible apply keep_ite
    | split | dsimp only | assumption | rfl)

theorem keep_rset64 (hm : 1 ||| m = m) {b : Block} (hb : P b) (a : Nat) (v : Nat) : P (rset64 b a v) := by
  unfold rset64
  repeat' (first
    | with_reducible assumption | intro _ | exact bits_sub (by decide) hm | with_reducible apply keep_rset h
    | with_reducible apply keep_ite | split | dsimp only | assumption | rfl)

theorem keep_runUnit (hm : 18907577 ||| m = m) {b : Block} (hb : P b) (p : Params) (n op : Nat) (f : Params → Block →
    MUnit → Took × Block)
    (hf : ∀ b u, P b → P (f p b u).2) : P (runUnit p n op f b) := by
  unfold runUnit
  split
  · exact hb
  · split
    · exact hb
    · dsimp only
      split
      · split
        · exact hb
        · have k1 : ∀ (st : Strand) (k : Nat) (g : Station → Station), P (setStrand (modStn b n g) n k st) := fun st k g =>
            keep_setStrand h (bits_sub (by decide) hm) (keep_modStn h (bits_sub (by decide) hm) hb _ _) _ _ _
          refine keep_tick h (bits_sub (by decide) hm) (keep_finishUnit h (bits_sub (by decide) hm) _ _ ?_) _ _
          split
          · exact keep_illegalUnit h (bits_sub (by decide) hm) (k1 _ _ _) _ _
          · exact hf _ _ (k1 _ _ _)
      · exact hb

theorem keep_sample (hm : 32630717 ||| m = m) {b : Block} (hb : P b) (src : Nat) : P (sample b src) := by
  unfold sample
  repeat' (first
    | with_reducible assumption | intro _ | exact bits_sub (by decide) hm
    | (extract_lets +onlyGivenNames x; refine keep_cut (p := P x) ?_ (fun kx => ?_); rotate_left; clear_value x; rotate_right; unfold x; clear x)
    | (extract_lets +onlyGivenNames x; unfold x; clear x)
    | (extract_lets +onlyGivenNames x; clear x)
    | with_reducible apply keep_modRef h | with_reducible apply keep_drainData h
    | with_reducible apply keep_srcEvent h | with_reducible apply keep_ite | split | dsimp only | assumption | rfl)

theorem keep_scrub (hm : 19955713 ||| m = m) {b : Block} (hb : P b) (obj : Nat) (seg : Nat) (cw : Nat) (high : Bool)
    (ue : Bool) : P (scrub b obj seg cw high ue) := by
  unfold scrub
  repeat' (first
    | with_reducible assumption | intro _ | exact bits_sub (by decide) hm
    | (extract_lets +onlyGivenNames x; refine keep_cut (p := P x) ?_ (fun kx => ?_); rotate_left; clear_value x; rotate_right; unfold x; clear x)
    | (extract_lets +onlyGivenNames x; unfold x; clear x)
    | (extract_lets +onlyGivenNames x; clear x)
    | with_reducible apply keep_count h | with_reducible apply keep_modVCh h | with_reducible apply keep_modVault h
    | with_reducible apply keep_markSeg h | with_reducible apply keep_ueCw h | with_reducible apply keep_ite | split
    | dsimp only | assumption | rfl)

theorem keep_sendDue (hm : 8421377 ||| m = m) {b : Block} (hb : P b) (code : Nat) (reason : Nat) (idx : Nat) : P
    (sendDue b code reason idx) := by
  unfold sendDue
  repeat' (first
    | with_reducible assumption | intro _ | exact bits_sub (by decide) hm | with_reducible apply keep_postMsg h
    | with_reducible apply keep_modMgmt h | with_reducible apply keep_ite | split | dsimp only | assumption | rfl)

theorem keep_serve (hm : 8421377 ||| m = m) {b : Block} (hb : P b) (code : Nat) (torvyo : Bool) (f : Block → Msg →
    Block)
    (hf : ∀ b q, P b → P (f b q)) : P (serve b code torvyo f) := by
  unfold serve
  split
  · exact hb
  · split
    · exact hb
    · split
      · exact keep_reply h (bits_sub (by decide) hm) hb _ _ _
      · exact hf _ _ hb

theorem keep_sigFire (hm : 72 ||| m = m) {b : Block} (hb : P b) (n : Nat) (k : Nat) : P (sigFire b n k) := by
  unfold sigFire
  repeat' (first
    | with_reducible assumption | intro _ | exact bits_sub (by decide) hm
    | (extract_lets +onlyGivenNames x; refine keep_cut (p := P x) ?_ (fun kx => ?_); rotate_left; clear_value x; rotate_right; unfold x; clear x)
    | (extract_lets +onlyGivenNames x; unfold x; clear x)
    | (extract_lets +onlyGivenNames x; clear x)
    | with_reducible apply keep_setStrand h | with_reducible apply keep_pushAdd h | with_reducible apply keep_ite
    | split | dsimp only | assumption | rfl)

theorem keep_stageLine (hm : 18907577 ||| m = m) {b : Block} (hb : P b) (n : Nat) : P (stageLine b n) := by
  unfold stageLine
  repeat' (first
    | with_reducible assumption | intro _ | exact bits_sub (by decide) hm
    | (extract_lets +onlyGivenNames x; refine keep_cut (p := P x) ?_ (fun kx => ?_); rotate_left; clear_value x; rotate_right; unfold x; clear x)
    | (extract_lets +onlyGivenNames x; unfold x; clear x)
    | (extract_lets +onlyGivenNames x; clear x)
    | with_reducible apply keep_modOp h | with_reducible apply keep_tick h | with_reducible apply keep_modStn h
    | with_reducible apply keep_ite | split | dsimp only | assumption | rfl)

theorem keep_statTake (hm : 24 ||| m = m) {b : Block} (hb : P b) (n : Nat) (k : Nat) : P (statTake b n k) := by
  unfold statTake
  repeat' (first
    | with_reducible assumption | intro _ | exact bits_sub (by decide) hm
    | (extract_lets +onlyGivenNames x; refine keep_cut (p := P x) ?_ (fun kx => ?_); rotate_left; clear_value x; rotate_right; unfold x; clear x)
    | (extract_lets +onlyGivenNames x; unfold x; clear x)
    | (extract_lets +onlyGivenNames x; clear x)
    | with_reducible apply keep_modStrand h | with_reducible apply keep_modStn h | with_reducible apply keep_modOp h
    | with_reducible apply keep_opRemove h | with_reducible apply keep_ite | split | dsimp only | assumption | rfl)

theorem keep_takeMove (hm : 1073741832 ||| m = m) {b : Block} (hb : P b) (u : MUnit) (listVa : Option Nat) : P
    (takeMove b u listVa).2 := by
  unfold takeMove
  repeat' (first
    | with_reducible assumption | intro _ | exact bits_sub (by decide) hm
    | (extract_lets +onlyGivenNames x; refine keep_cut (p := P x) ?_ (fun kx => ?_); rotate_left; clear_value x; rotate_right; unfold x; clear x)
    | (extract_lets +onlyGivenNames x; unfold x; clear x)
    | (extract_lets +onlyGivenNames x; clear x)
    | with_reducible apply keep_addOp h | with_reducible apply keep_ite | split | dsimp only | assumption | rfl)

theorem keep_takeMove_eq (hm : 1073741832 ||| m = m) {b : Block} (hb : P b) {u : MUnit} {listVa : Option Nat} {y :
    Took} {b' : Block} (e : takeMove b u listVa = (y, b')) : P b' := by
  have := keep_takeMove h hm hb u listVa
  rwa [e] at this

theorem keep_talPoison (hm : 19104185 ||| m = m) {b : Block} (hb : P b) (t : Nat) : P (talPoison b t) := by
  unfold talPoison
  repeat' (first
    | with_reducible assumption | intro _ | exact bits_sub (by decide) hm
    | (extract_lets +onlyGivenNames x; refine keep_cut (p := P x) ?_ (fun kx => ?_); rotate_left; clear_value x; rotate_right; unfold x; clear x)
    | (extract_lets +onlyGivenNames x; unfold x; clear x)
    | (extract_lets +onlyGivenNames x; clear x)
    | (with_reducible refine keep_forEach _ _ ?_ ?_) | with_reducible apply keep_setTal h
    | with_reducible apply keep_pageErr h | with_reducible apply keep_signalEv h | with_reducible apply keep_rcount h
    | with_reducible apply keep_poisonWaiter h | with_reducible apply keep_ite | split | dsimp only | assumption | rfl)

theorem keep_wakeAdds (hm : 16777233 ||| m = m) {b : Block} (hb : P b) (n : Nat) (t : Nat) (l : List Add) : P
    (wakeAdds b n t l) := by
  unfold wakeAdds
  repeat' (first
    | with_reducible assumption | intro _ | exact bits_sub (by decide) hm
    | (extract_lets +onlyGivenNames x; refine keep_cut (p := P x) ?_ (fun kx => ?_); rotate_left; clear_value x; rotate_right; unfold x; clear x)
    | (extract_lets +onlyGivenNames x; unfold x; clear x)
    | (extract_lets +onlyGivenNames x; clear x)
    | with_reducible apply keep_setStn h | with_reducible apply keep_reqThaw h | with_reducible apply keep_ite | split
    | dsimp only | assumption | rfl)

theorem keep_tallyAdd (hm : 1097039993 ||| m = m) {b : Block} (hb : P b) (t : Nat) : P (tallyAdd b t) := by
  unfold tallyAdd
  repeat' (first
    | with_reducible assumption | intro _ | exact bits_sub (by decide) hm
    | (extract_lets +onlyGivenNames x; refine keep_cut (p := P x) ?_ (fun kx => ?_); rotate_left; clear_value x; rotate_right; unfold x; clear x)
    | (extract_lets +onlyGivenNames x; unfold x; clear x)
    | (extract_lets +onlyGivenNames x; clear x)
    | with_reducible apply keep_sendAcks h | with_reducible apply keep_applyAdds h
    | with_reducible apply keep_modPwr h | with_reducible apply keep_reqThaw h | with_reducible apply keep_wakeAdds h
    | with_reducible apply keep_ite | split | with_reducible apply upd_adds h | dsimp only | assumption | rfl)

theorem keep_thaw (hm : 24 ||| m = m) {b : Block} (hb : P b) (n : Nat) : P (thaw b n) := by
  unfold thaw
  repeat' (first
    | with_reducible assumption | intro _ | exact bits_sub (by decide) hm
    | (extract_lets +onlyGivenNames x; refine keep_cut (p := P x) ?_ (fun kx => ?_); rotate_left; clear_value x; rotate_right; unfold x; clear x)
    | (extract_lets +onlyGivenNames x; unfold x; clear x)
    | (extract_lets +onlyGivenNames x; clear x)
    | with_reducible apply keep_setStn h | with_reducible apply keep_offLoss h | with_reducible apply keep_ite | split
    | dsimp only | assumption | rfl)

theorem keep_thawEnd (hm : 1096974393 ||| m = m) {b : Block} (hb : P b) (n : Nat) : P (thawEnd b n) := by
  unfold thawEnd
  repeat' (first
    | with_reducible assumption | intro _ | exact bits_sub (by decide) hm
    | (extract_lets +onlyGivenNames x; refine keep_cut (p := P x) ?_ (fun kx => ?_); rotate_left; clear_value x; rotate_right; unfold x; clear x)
    | (extract_lets +onlyGivenNames x; unfold x; clear x)
    | (extract_lets +onlyGivenNames x; clear x)
    | (with_reducible refine keep_forEach _ _ ?_ ?_) | with_reducible apply keep_setStn h
    | with_reducible apply keep_count h | with_reducible apply keep_rcount h | with_reducible apply keep_grpWake h
    | with_reducible apply keep_applyWake h | with_reducible apply keep_refetch h | with_reducible apply keep_ite
    | split | dsimp only | assumption | rfl)

theorem keep_thermal (hm : 14712833 ||| m = m) {b : Block} (hb : P b) (p : Params) (idx : Nat) (q : BitVec 12) : P
    (thermal p b idx q) := by
  unfold thermal
  repeat' (first
    | with_reducible assumption | intro _ | exact bits_sub (by decide) hm
    | (extract_lets +onlyGivenNames x; refine keep_cut (p := P x) ?_ (fun kx => ?_); rotate_left; clear_value x; rotate_right; unfold x; clear x)
    | (extract_lets +onlyGivenNames x; unfold x; clear x)
    | (extract_lets +onlyGivenNames x; clear x)
    | (with_reducible refine keep_forEach _ _ ?_ ?_) | with_reducible apply keep_modPwr h
    | with_reducible apply keep_senseEv h | with_reducible apply keep_markWarn h | with_reducible apply keep_modGrp h
    | with_reducible apply keep_capDrop h | with_reducible apply keep_logAppend h | with_reducible apply keep_ite
    | split | dsimp only | assumption | rfl)

theorem keep_tloadBuild (hm : 18907577 ||| m = m) {b : Block} (hb : P b) (n : Nat) (k : Nat) : P (tloadBuild b n k) :=
    by
  unfold tloadBuild
  repeat' (first
    | with_reducible assumption | intro _ | exact bits_sub (by decide) hm
    | (extract_lets +onlyGivenNames x; refine keep_cut (p := P x) ?_ (fun kx => ?_); rotate_left; clear_value x; rotate_right; unfold x; clear x)
    | (extract_lets +onlyGivenNames x; unfold x; clear x)
    | (extract_lets +onlyGivenNames x; clear x)
    | with_reducible apply keep_modStn h | with_reducible apply keep_modStrand h | with_reducible apply keep_relHaz h
    | with_reducible apply keep_opRemove h | with_reducible apply keep_contentFault h
    | with_reducible apply keep_dropOp h | with_reducible apply keep_ite | split | dsimp only | assumption | rfl)

theorem keep_tloadMark (hm : 24 ||| m = m) {b : Block} (hb : P b) (n : Nat) (k : Nat) : P (tloadMark b n k) := by
  unfold tloadMark
  repeat' (first
    | with_reducible assumption | intro _ | exact bits_sub (by decide) hm
    | (extract_lets +onlyGivenNames x; refine keep_cut (p := P x) ?_ (fun kx => ?_); rotate_left; clear_value x; rotate_right; unfold x; clear x)
    | (extract_lets +onlyGivenNames x; unfold x; clear x)
    | (extract_lets +onlyGivenNames x; clear x)
    | with_reducible apply keep_modStn h | with_reducible apply keep_modOp h | with_reducible apply keep_ite | split
    | dsimp only | assumption | rfl)

theorem keep_transDone (hm : 4194328 ||| m = m) {b : Block} (hb : P b) (p : Params) (n : Nat) : P (transDone p b n) :=
    by
  unfold transDone
  repeat' (first
    | with_reducible assumption | intro _ | exact bits_sub (by decide) hm | with_reducible apply keep_modStn h
    | with_reducible apply keep_grpSleep h | with_reducible apply keep_offLoss h | with_reducible apply keep_ite
    | split | dsimp only | assumption | rfl)

theorem keep_unitAdvise (hm : 16777473 ||| m = m) {b : Block} (hb : P b) (a0 : Params) (u : MUnit) : P (unitAdvise a0
    b u).2 := by
  unfold unitAdvise
  repeat' (first
    | with_reducible assumption | intro _ | exact bits_sub (by decide) hm | with_reducible apply keep_fcAdvise h
    | with_reducible apply keep_ite | split | dsimp only | assumption | rfl)

theorem keep_unitAdvise_eq (hm : 16777473 ||| m = m) {b : Block} (hb : P b) {a0 : Params} {u : MUnit} {y : Took} {b' :
    Block} (e : unitAdvise a0 b u = (y, b')) : P b' := by
  have := keep_unitAdvise h hm hb a0 u
  rwa [e] at this

theorem keep_unitCopy (hm : 1073741832 ||| m = m) {b : Block} (hb : P b) (p : Params) (u : MUnit) : P (unitCopy p b
    u).2 := by
  unfold unitCopy
  repeat' (first
    | with_reducible assumption | intro _ | exact bits_sub (by decide) hm | with_reducible apply keep_addOp h
    | with_reducible apply keep_ite | split | dsimp only | assumption | rfl)

theorem keep_unitCopy_eq (hm : 1073741832 ||| m = m) {b : Block} (hb : P b) {p : Params} {u : MUnit} {y : Took} {b' :
    Block} (e : unitCopy p b u = (y, b')) : P b' := by
  have := keep_unitCopy h hm hb p u
  rwa [e] at this

theorem keep_unitEndl (hm : 8 ||| m = m) {b : Block} (hb : P b) (a0 : Params) (u : MUnit) : P (unitEndl a0 b u).2 :=
    by
  unfold unitEndl
  repeat' (first
    | with_reducible assumption | intro _ | exact bits_sub (by decide) hm | with_reducible apply keep_modStrand h
    | with_reducible apply keep_ite | split | dsimp only | assumption | rfl)

theorem keep_unitEndl_eq (hm : 8 ||| m = m) {b : Block} (hb : P b) {a0 : Params} {u : MUnit} {y : Took} {b' : Block}
    (e : unitEndl a0 b u = (y, b')) : P b' := by
  have := keep_unitEndl h hm hb a0 u
  rwa [e] at this

theorem keep_unitFence (hm : 8 ||| m = m) {b : Block} (hb : P b) (a0 : Params) (u : MUnit) : P (unitFence a0 b u).2 :=
    by
  unfold unitFence
  repeat' (first
    | with_reducible assumption | intro _ | exact bits_sub (by decide) hm | with_reducible apply keep_modStrand h
    | with_reducible apply keep_ite | split | dsimp only | assumption | rfl)

theorem keep_unitFence_eq (hm : 8 ||| m = m) {b : Block} (hb : P b) {a0 : Params} {u : MUnit} {y : Took} {b' : Block}
    (e : unitFence a0 b u = (y, b')) : P b' := by
  have := keep_unitFence h hm hb a0 u
  rwa [e] at this

theorem keep_unitFill (hm : 1073741832 ||| m = m) {b : Block} (hb : P b) (p : Params) (u : MUnit) : P (unitFill p b
    u).2 := by
  unfold unitFill
  repeat' (first
    | with_reducible assumption | intro _ | exact bits_sub (by decide) hm | with_reducible apply keep_addOp h
    | with_reducible apply keep_ite | split | dsimp only | assumption | rfl)

theorem keep_unitFill_eq (hm : 1073741832 ||| m = m) {b : Block} (hb : P b) {p : Params} {u : MUnit} {y : Took} {b' :
    Block} (e : unitFill p b u = (y, b')) : P b' := by
  have := keep_unitFill h hm hb p u
  rwa [e] at this

theorem keep_unitHalt (hm : 8 ||| m = m) {b : Block} (hb : P b) (a0 : Params) (u : MUnit) : P (unitHalt a0 b u).2 :=
    by
  unfold unitHalt
  repeat' (first
    | with_reducible assumption | intro _ | exact bits_sub (by decide) hm | with_reducible apply keep_modStrand h
    | with_reducible apply keep_ite | split | dsimp only | assumption | rfl)

theorem keep_unitHalt_eq (hm : 8 ||| m = m) {b : Block} (hb : P b) {a0 : Params} {u : MUnit} {y : Took} {b' : Block}
    (e : unitHalt a0 b u = (y, b')) : P b' := by
  have := keep_unitHalt h hm hb a0 u
  rwa [e] at this

theorem keep_unitJump (hm : 8 ||| m = m) {b : Block} (hb : P b) (a0 : Params) (u : MUnit) : P (unitJump a0 b u).2 :=
    by
  unfold unitJump
  repeat' (first
    | with_reducible assumption | intro _ | exact bits_sub (by decide) hm
    | (extract_lets +onlyGivenNames x; refine keep_cut (p := P x) ?_ (fun kx => ?_); rotate_left; clear_value x; rotate_right; unfold x; clear x)
    | (extract_lets +onlyGivenNames x; unfold x; clear x)
    | (extract_lets +onlyGivenNames x; clear x)
    | with_reducible apply keep_modStrand h | with_reducible apply keep_ite | split | dsimp only | assumption | rfl)

theorem keep_unitJump_eq (hm : 8 ||| m = m) {b : Block} (hb : P b) {a0 : Params} {u : MUnit} {y : Took} {b' : Block}
    (e : unitJump a0 b u = (y, b')) : P b' := by
  have := keep_unitJump h hm hb a0 u
  rwa [e] at this

theorem keep_unitLoop (hm : 8 ||| m = m) {b : Block} (hb : P b) (a0 : Params) (u : MUnit) : P (unitLoop a0 b u).2 :=
    by
  unfold unitLoop
  repeat' (first
    | with_reducible assumption | intro _ | exact bits_sub (by decide) hm
    | (extract_lets +onlyGivenNames x; refine keep_cut (p := P x) ?_ (fun kx => ?_); rotate_left; clear_value x; rotate_right; unfold x; clear x)
    | (extract_lets +onlyGivenNames x; unfold x; clear x)
    | (extract_lets +onlyGivenNames x; clear x)
    | with_reducible apply keep_modStrand h | with_reducible apply keep_ite | split | dsimp only | assumption | rfl)

theorem keep_unitLoop_eq (hm : 8 ||| m = m) {b : Block} (hb : P b) {a0 : Params} {u : MUnit} {y : Took} {b' : Block}
    (e : unitLoop a0 b u = (y, b')) : P b' := by
  have := keep_unitLoop h hm hb a0 u
  rwa [e] at this

theorem keep_unitMove (hm : 1073741832 ||| m = m) {b : Block} (hb : P b) (a0 : Params) (u : MUnit) : P (unitMove a0 b
    u).2 := by
  unfold unitMove
  repeat' (first
    | with_reducible assumption | intro _ | exact bits_sub (by decide) hm | with_reducible apply keep_takeMove h
    | (with_reducible refine keep_takeMove_eq h ?_ ?_ (by assumption)) | with_reducible apply keep_ite | split
    | dsimp only | assumption | rfl)

theorem keep_unitMove_eq (hm : 1073741832 ||| m = m) {b : Block} (hb : P b) {a0 : Params} {u : MUnit} {y : Took} {b' :
    Block} (e : unitMove a0 b u = (y, b')) : P b' := by
  have := keep_unitMove h hm hb a0 u
  rwa [e] at this

theorem keep_unitMoveb (hm : 1073741832 ||| m = m) {b : Block} (hb : P b) (a0 : Params) (u : MUnit) : P (unitMoveb a0
    b u).2 := by
  unfold unitMoveb
  repeat' (first
    | with_reducible assumption | intro _ | exact bits_sub (by decide) hm
    | (extract_lets +onlyGivenNames x; refine keep_cut (p := P x) ?_ (fun kx => ?_); rotate_left; clear_value x; rotate_right; unfold x; clear x)
    | (extract_lets +onlyGivenNames x; unfold x; clear x)
    | (extract_lets +onlyGivenNames x; clear x)
    | with_reducible apply keep_takeMove h | (with_reducible refine keep_takeMove_eq h ?_ ?_ (by assumption))
    | with_reducible apply keep_ite | split | dsimp only | assumption | rfl)

theorem keep_unitMoveb_eq (hm : 1073741832 ||| m = m) {b : Block} (hb : P b) {a0 : Params} {u : MUnit} {y : Took} {b'
    : Block} (e : unitMoveb a0 b u = (y, b')) : P b' := by
  have := keep_unitMoveb h hm hb a0 u
  rwa [e] at this

theorem keep_unitNop (hm : 0 ||| m = m) {b : Block} (hb : P b) (a0 : Params) (u : MUnit) : P (unitNop a0 b u).2 := by
  unfold unitNop
  repeat' (first
    | with_reducible assumption | intro _ | exact bits_sub (by decide) hm | with_reducible apply keep_ite | split
    | dsimp only | assumption | rfl)

theorem keep_unitNop_eq (hm : 0 ||| m = m) {b : Block} (hb : P b) {a0 : Params} {u : MUnit} {y : Took} {b' : Block} (e
    : unitNop a0 b u = (y, b')) : P b' := by
  have := keep_unitNop h hm hb a0 u
  rwa [e] at this

theorem keep_unitSetx (hm : 1073741832 ||| m = m) {b : Block} (hb : P b) (a0 : Params) (u : MUnit) : P (unitSetx a0 b
    u).2 := by
  unfold unitSetx
  repeat' (first
    | with_reducible assumption | intro _ | exact bits_sub (by decide) hm
    | (extract_lets +onlyGivenNames x; refine keep_cut (p := P x) ?_ (fun kx => ?_); rotate_left; clear_value x; rotate_right; unfold x; clear x)
    | (extract_lets +onlyGivenNames x; unfold x; clear x)
    | (extract_lets +onlyGivenNames x; clear x)
    | with_reducible apply keep_modStrand h | with_reducible apply keep_addOp h | with_reducible apply keep_ite
    | split | dsimp only | assumption | rfl)

theorem keep_unitSetx_eq (hm : 1073741832 ||| m = m) {b : Block} (hb : P b) {a0 : Params} {u : MUnit} {y : Took} {b' :
    Block} (e : unitSetx a0 b u = (y, b')) : P b' := by
  have := keep_unitSetx h hm hb a0 u
  rwa [e] at this

theorem keep_unitSignal (hm : 2129929 ||| m = m) {b : Block} (hb : P b) (p : Params) (u : MUnit) : P (unitSignal p b
    u).2 := by
  unfold unitSignal
  repeat' (first
    | with_reducible assumption | intro _ | exact bits_sub (by decide) hm
    | (extract_lets +onlyGivenNames x; refine keep_cut (p := P x) ?_ (fun kx => ?_); rotate_left; clear_value x; rotate_right; unfold x; clear x)
    | (extract_lets +onlyGivenNames x; unfold x; clear x)
    | (extract_lets +onlyGivenNames x; clear x)
    | with_reducible apply keep_noTally h | (with_reducible refine keep_noTally_eq h ?_ ?_ (by assumption))
    | with_reducible apply keep_modStrand h | with_reducible apply keep_ite | split | dsimp only | assumption | rfl)

theorem keep_unitSignal_eq (hm : 2129929 ||| m = m) {b : Block} (hb : P b) {p : Params} {u : MUnit} {y : Took} {b' :
    Block} (e : unitSignal p b u = (y, b')) : P b' := by
  have := keep_unitSignal h hm hb p u
  rwa [e] at this

theorem keep_unitStat (hm : 1073741832 ||| m = m) {b : Block} (hb : P b) (a0 : Params) (u : MUnit) : P (unitStat a0 b
    u).2 := by
  unfold unitStat
  repeat' (first
    | with_reducible assumption | intro _ | exact bits_sub (by decide) hm
    | (extract_lets +onlyGivenNames x; refine keep_cut (p := P x) ?_ (fun kx => ?_); rotate_left; clear_value x; rotate_right; unfold x; clear x)
    | (extract_lets +onlyGivenNames x; unfold x; clear x)
    | (extract_lets +onlyGivenNames x; clear x)
    | with_reducible apply keep_addOp h | with_reducible apply keep_ite | split | dsimp only | assumption | rfl)

theorem keep_unitStat_eq (hm : 1073741832 ||| m = m) {b : Block} (hb : P b) {a0 : Params} {u : MUnit} {y : Took} {b' :
    Block} (e : unitStat a0 b u = (y, b')) : P b' := by
  have := keep_unitStat h hm hb a0 u
  rwa [e] at this

theorem keep_unitTload (hm : 1073741832 ||| m = m) {b : Block} (hb : P b) (a0 : Params) (u : MUnit) : P (unitTload a0
    b u).2 := by
  unfold unitTload
  repeat' (first
    | with_reducible assumption | intro _ | exact bits_sub (by decide) hm
    | (extract_lets +onlyGivenNames x; refine keep_cut (p := P x) ?_ (fun kx => ?_); rotate_left; clear_value x; rotate_right; unfold x; clear x)
    | (extract_lets +onlyGivenNames x; unfold x; clear x)
    | (extract_lets +onlyGivenNames x; clear x)
    | with_reducible apply keep_addOp h | with_reducible apply keep_ite | split | dsimp only | assumption | rfl)

theorem keep_unitTload_eq (hm : 1073741832 ||| m = m) {b : Block} (hb : P b) {a0 : Params} {u : MUnit} {y : Took} {b'
    : Block} (e : unitTload a0 b u = (y, b')) : P b' := by
  have := keep_unitTload h hm hb a0 u
  rwa [e] at this

theorem keep_unitWait (hm : 19038265 ||| m = m) {b : Block} (hb : P b) (p : Params) (u : MUnit) : P (unitWait p b u).2
    := by
  unfold unitWait
  repeat' (first
    | with_reducible assumption | intro _ | exact bits_sub (by decide) hm
    | (extract_lets +onlyGivenNames x; refine keep_cut (p := P x) ?_ (fun kx => ?_); rotate_left; clear_value x; rotate_right; unfold x; clear x)
    | (extract_lets +onlyGivenNames x; unfold x; clear x)
    | (extract_lets +onlyGivenNames x; clear x)
    | with_reducible apply keep_noTally h | (with_reducible refine keep_noTally_eq h ?_ ?_ (by assumption))
    | with_reducible apply keep_modStrand h | with_reducible apply keep_addWaiter h | with_reducible apply keep_ite
    | split | dsimp only | assumption | rfl)

theorem keep_unitWait_eq (hm : 19038265 ||| m = m) {b : Block} (hb : P b) {p : Params} {u : MUnit} {y : Took} {b' :
    Block} (e : unitWait p b u = (y, b')) : P b' := by
  have := keep_unitWait h hm hb p u
  rwa [e] at this

theorem keep_updateEnd (hm : 8421377 ||| m = m) {b : Block} (hb : P b) (m0 : Msg) (ok : Bool) (ver : Sys2Proof.Word) :
    P (updateEnd b m0 ok ver) := by
  unfold updateEnd
  repeat' (first
    | with_reducible assumption | intro _ | exact bits_sub (by decide) hm
    | (extract_lets +onlyGivenNames x; refine keep_cut (p := P x) ?_ (fun kx => ?_); rotate_left; clear_value x; rotate_right; unfold x; clear x)
    | (extract_lets +onlyGivenNames x; unfold x; clear x)
    | (extract_lets +onlyGivenNames x; clear x)
    | with_reducible apply keep_logAppend h | with_reducible apply keep_reply h | with_reducible apply keep_modMgmt h
    | with_reducible apply keep_ite | split | dsimp only | assumption | rfl)

theorem keep_updateCommit (hm : 12615681 ||| m = m) {b : Block} (hb : P b) (p : Params) (m0 : Msg) : P (updateCommit p
    b m0) := by
  unfold updateCommit
  repeat' (first
    | with_reducible assumption | intro _ | exact bits_sub (by decide) hm
    | (extract_lets +onlyGivenNames x; refine keep_cut (p := P x) ?_ (fun kx => ?_); rotate_left; clear_value x; rotate_right; unfold x; clear x)
    | (extract_lets +onlyGivenNames x; unfold x; clear x)
    | (extract_lets +onlyGivenNames x; clear x)
    | with_reducible apply keep_reply h | with_reducible apply keep_updateEnd h | with_reducible apply keep_runImage h
    | with_reducible apply keep_modMgmt h | with_reducible apply keep_mgmtReset h | with_reducible apply keep_ite
    | split | dsimp only | assumption | rfl)

theorem keep_vaultOrder (hm : 18907577 ||| m = m) {b : Block} (hb : P b) (n : Nat) (w : WrReq) (rewrite : Bool) : P
    (vaultOrder b n w rewrite) := by
  unfold vaultOrder
  repeat' (first
    | with_reducible assumption | intro _ | exact bits_sub (by decide) hm
    | (extract_lets +onlyGivenNames x; refine keep_cut (p := P x) ?_ (fun kx => ?_); rotate_left; clear_value x; rotate_right; unfold x; clear x)
    | (extract_lets +onlyGivenNames x; unfold x; clear x)
    | (extract_lets +onlyGivenNames x; clear x)
    | with_reducible apply keep_rcount h | with_reducible apply keep_tick h | with_reducible apply keep_contentFault h
    | with_reducible apply keep_relHaz h | with_reducible apply keep_ite | split | dsimp only | assumption | rfl)

theorem keep_vaultLine (hm : 19956153 ||| m = m) {b : Block} (hb : P b) (n : Nat) (tag : Nat) : P (vaultLine b n tag)
    := by
  unfold vaultLine
  repeat' (first
    | with_reducible assumption | intro _ | exact bits_sub (by decide) hm
    | (extract_lets +onlyGivenNames x; refine keep_cut (p := P x) ?_ (fun kx => ?_); rotate_left; clear_value x; rotate_right; unfold x; clear x)
    | (extract_lets +onlyGivenNames x; unfold x; clear x)
    | (extract_lets +onlyGivenNames x; clear x)
    | with_reducible apply keep_setStn h | with_reducible apply keep_vaultWrFail h
    | with_reducible apply keep_vaultEv h | with_reducible apply keep_vaultOrder h | with_reducible apply keep_count h
    | with_reducible apply keep_setObj h | with_reducible apply keep_ite | split | dsimp only | assumption | rfl)

theorem keep_vaultRdTmo (hm : 19956153 ||| m = m) {b : Block} (hb : P b) (n : Nat) (tag : Nat) : P (vaultRdTmo b n
    tag) := by
  unfold vaultRdTmo
  repeat' (first
    | with_reducible assumption | intro _ | exact bits_sub (by decide) hm
    | (extract_lets +onlyGivenNames x; refine keep_cut (p := P x) ?_ (fun kx => ?_); rotate_left; clear_value x; rotate_right; unfold x; clear x)
    | (extract_lets +onlyGivenNames x; unfold x; clear x)
    | (extract_lets +onlyGivenNames x; clear x)
    | (with_reducible refine keep_forEach _ _ ?_ ?_) | with_reducible apply keep_vaultAnswer h
    | with_reducible apply keep_vaultServeAll h | with_reducible apply keep_ueCw h | with_reducible apply keep_ite
    | split | dsimp only | assumption | rfl)

theorem keep_vtCmdAcc (hm : 4093634559 ||| m = m) {b : Block} (hb : P b) (p : Params) (op : Nat) (obj : Nat) (m0 :
    Med) (a : Sys2Proof.Attr) : P (vtCmdAcc p b op obj m0 a) := by
  unfold vtCmdAcc
  repeat' (first
    | with_reducible assumption | intro _ | exact bits_sub (by decide) hm | with_reducible apply keep_cfgAccess h
    | with_reducible apply keep_ite | split | dsimp only | assumption | rfl)

theorem keep_wackIn (hm : 18973177 ||| m = m) {b : Block} (hb : P b) (pr : Params) (p : Nat) (bad : Nat) : P (wackIn
    pr b p bad) := by
  unfold wackIn
  repeat' (first
    | with_reducible assumption | intro _ | exact bits_sub (by decide) hm
    | (extract_lets +onlyGivenNames x; refine keep_cut (p := P x) ?_ (fun kx => ?_); rotate_left; clear_value x; rotate_right; unfold x; clear x)
    | (extract_lets +onlyGivenNames x; unfold x; clear x)
    | (extract_lets +onlyGivenNames x; clear x)
    | (with_reducible refine keep_takeIn h ?_ ?_ (by assumption)) | with_reducible apply keep_badHeader h
    | with_reducible apply keep_poolFree h | with_reducible apply keep_dropPkt h
    | with_reducible apply keep_winWriteEnd h | with_reducible apply keep_ite | split | dsimp only | assumption | rfl)

theorem keep_waitExpire (hm : 18907577 ||| m = m) {b : Block} (hb : P b) (n : Nat) (k : Nat) : P (waitExpire b n k) :=
    by
  unfold waitExpire
  repeat' (first
    | with_reducible assumption | intro _ | exact bits_sub (by decide) hm
    | (extract_lets +onlyGivenNames x; refine keep_cut (p := P x) ?_ (fun kx => ?_); rotate_left; clear_value x; rotate_right; unfold x; clear x)
    | (extract_lets +onlyGivenNames x; unfold x; clear x)
    | (extract_lets +onlyGivenNames x; clear x)
    | with_reducible apply keep_tick h | with_reducible apply keep_reqThaw h | with_reducible apply keep_detachOps h
    | with_reducible apply keep_stopAt h | with_reducible apply keep_ite | split | dsimp only | assumption | rfl)

theorem keep_walkDone (hm : 18932157 ||| m = m) {b : Block} (hb : P b) (p : Params) (q : Nat) (va : Nat) (group : List
    Sys2Proof.TabEntry) (err : Bool) : P (walkDone p b q va group err) := by
  unfold walkDone
  repeat' (first
    | with_reducible assumption | intro _ | exact bits_sub (by decide) hm
    | (extract_lets +onlyGivenNames x; refine keep_cut (p := P x) ?_ (fun kx => ?_); rotate_left; clear_value x; rotate_right; unfold x; clear x)
    | (extract_lets +onlyGivenNames x; unfold x; clear x)
    | (extract_lets +onlyGivenNames x; clear x)
    | (with_reducible refine keep_forEach _ _ ?_ ?_) | with_reducible apply keep_startWalkers h
    | with_reducible apply keep_breakPart h | with_reducible apply keep_walkEnd h
    | with_reducible apply keep_giveHit h | with_reducible apply keep_missed h | with_reducible apply keep_ite | split
    | with_reducible apply upd_walks h | dsimp only | assumption | rfl)

theorem keep_windowEnd (hm : 16777216 ||| m = m) {b : Block} (hb : P b) (l : Sys2Proof.CntLoc) (i : Nat) : P
    (windowEnd b l i) := by
  unfold windowEnd
  repeat' (first
    | with_reducible assumption | intro _ | exact bits_sub (by decide) hm
    | (extract_lets +onlyGivenNames x; refine keep_cut (p := P x) ?_ (fun kx => ?_); rotate_left; clear_value x; rotate_right; unfold x; clear x)
    | (extract_lets +onlyGivenNames x; unfold x; clear x)
    | (extract_lets +onlyGivenNames x; clear x)
    | with_reducible apply keep_setCnt h | with_reducible apply keep_ite | split | dsimp only | assumption | rfl)

theorem keep_writeBack (hm : 18975225 ||| m = m) {b : Block} (hb : P b) (p : Params) (n : Nat) (tag : Nat) (ok : Bool)
    : P (writeBack p b n tag ok) := by
  unfold writeBack
  repeat' (first
    | with_reducible assumption | intro _ | exact bits_sub (by decide) hm
    | (extract_lets +onlyGivenNames x; refine keep_cut (p := P x) ?_ (fun kx => ?_); rotate_left; clear_value x; rotate_right; unfold x; clear x)
    | (extract_lets +onlyGivenNames x; unfold x; clear x)
    | (extract_lets +onlyGivenNames x; clear x)
    | with_reducible apply keep_strayRsp h | with_reducible apply keep_setStn h | with_reducible apply keep_wrFailed h
    | with_reducible apply keep_wrLanded h | with_reducible apply keep_ite | split | with_reducible apply upd_invQ h
    | dsimp only | assumption | rfl)

theorem keep_writeIssue (hm : 1092714941 ||| m = m) {b : Block} (hb : P b) (n : Nat) (corrected : Nat) (rows : Nat) :
    P (writeIssue b n corrected rows) := by
  unfold writeIssue
  repeat' (first
    | with_reducible assumption | intro _ | exact bits_sub (by decide) hm
    | (extract_lets +onlyGivenNames x; refine keep_cut (p := P x) ?_ (fun kx => ?_); rotate_left; clear_value x; rotate_right; unfold x; clear x)
    | (extract_lets +onlyGivenNames x; unfold x; clear x)
    | (extract_lets +onlyGivenNames x; clear x)
    | with_reducible apply keep_refillAll h | with_reducible apply keep_count h | with_reducible apply keep_ageAll h
    | with_reducible apply keep_countAged h | with_reducible apply keep_modStn h
    | with_reducible apply keep_issueLink h | with_reducible apply keep_nearCorrected h
    | with_reducible apply keep_issueWrite h | with_reducible apply keep_tick h
    | with_reducible apply keep_bufferFault h | with_reducible apply keep_ite | split | dsimp only | assumption | rfl)

theorem keep_deadSend (hm : 2164326401 ||| m = m) {b : Block} (hb : P b) (p : Nat) : P (deadSend b p) := by
  unfold deadSend
  repeat' (first
    | with_reducible assumption | intro _ | exact bits_sub (by decide) hm
    | (extract_lets +onlyGivenNames x; refine keep_cut (p := P x) ?_ (fun kx => ?_); rotate_left; clear_value x; rotate_right; unfold x; clear x)
    | (extract_lets +onlyGivenNames x; unfold x; clear x)
    | (extract_lets +onlyGivenNames x; clear x)
    | with_reducible apply keep_sendFlit h | with_reducible apply keep_modPort h | with_reducible apply keep_ite
    | split | dsimp only | assumption | rfl)

theorem keep_deadPump (hm : 4093634559 ||| m = m) {b : Block} (hb : P b) (p : Params) (old : Block) : P (deadPump p
    old b) := by
  unfold deadPump
  repeat' (first
    | with_reducible assumption | intro _ | exact bits_sub (by decide) hm | with_reducible apply keep_cfgPump h
    | with_reducible apply keep_ite | split | dsimp only | assumption | rfl)

end

/-- Agreement with a block on the fields outside m is such a property, and so is dead ball. -/
theorem keeps_agree (m : Nat) (b0 : Block) : Keeps m (Agree m b0) := fun b b' h hb =>
  ⟨fun e => (h.regs e).trans (hb.regs e),
   fun e => (h.cfg e).trans (hb.cfg e),
   fun e => (h.chans e).trans (hb.chans e),
   fun e => (h.strands e).trans (hb.strands e),
   fun e => (h.stations e).trans (hb.stations e),
   fun e => (h.tallies e).trans (hb.tallies e),
   fun e => (h.adds e).trans (hb.adds e),
   fun e => (h.walks e).trans (hb.walks e),
   fun e => (h.parts e).trans (hb.parts e),
   fun e => (h.standby e).trans (hb.standby e),
   fun e => (h.commitQ e).trans (hb.commitQ e),
   fun e => (h.invQ e).trans (hb.invQ e),
   fun e => (h.invals e).trans (hb.invals e),
   fun e => (h.hubWr e).trans (hb.hubWr e),
   fun e => (h.hubQ e).trans (hb.hubQ e),
   fun e => (h.irqs e).trans (hb.irqs e),
   fun e => (h.ports e).trans (hb.ports e),
   fun e => (h.gops e).trans (hb.gops e),
   fun e => (h.linkReset e).trans (hb.linkReset e),
   fun e => (h.colour e).trans (hb.colour e),
   fun e => (h.vault e).trans (hb.vault e),
   fun e => (h.ref e).trans (hb.ref e),
   fun e => (h.pwr e).trans (hb.pwr e),
   fun e => (h.mgmt e).trans (hb.mgmt e),
   fun e => (h.counters e).trans (hb.counters e),
   fun e => (h.frzTime e).trans (hb.frzTime e),
   fun e => (h.aoTime e).trans (hb.aoTime e),
   fun e => (h.ponTime e).trans (hb.ponTime e),
   fun e => (h.badRegs e).trans (hb.badRegs e),
   fun e => (h.hazLatch e).trans (hb.hazLatch e),
   fun e => (h.nextId e).trans (hb.nextId e),
   fun e => (h.fresh e).trans (hb.fresh e),
   fun e => h.dead (hb.dead e)⟩

theorem agree_refl (m : Nat) (b : Block) : Agree m b b := by
  constructor <;> intros <;> first | rfl | assumption

theorem keeps_dead (m : Nat) : Keeps m (fun b => isDead b = true) := fun _ _ h hb => h.dead hb

end Sys2Proof.Machine
end

