-- ==== Sys2Proof/Laws/KeepsRows.lean ====
section
/-! SUPPORT. The fields that each command may write: one lemma per command. -/
set_option Elab.async false
set_option linter.all false

namespace Sys2Proof.Machine
section
variable {m : Nat} {P : Block → Prop} (h : Keeps m P)
include h
theorem row_nop (hm : 18907577 ||| m = m) {s t : State} (hb : P s.b) {a0} (e : exec (.nop a0) s = .next t) : P t.b :=
    by
  simp only [exec, execNop, moverRow, effect, onBlock] at e
  repeat' (first | (injection e with e; subst e; dsimp only) | split at e)
  all_goals repeat' (first
    | with_reducible assumption | intro _ | exact bits_sub (by decide) hm | with_reducible apply keep_unitNop h
    | (with_reducible refine keep_unitNop_eq h ?_ ?_ (by assumption)) | with_reducible apply keep_runUnit h
    | with_reducible apply keep_ite | split | dsimp only | assumption | rfl)

theorem row_halt (hm : 18907577 ||| m = m) {s t : State} (hb : P s.b) {a0} (e : exec (.halt a0) s = .next t) : P t.b
    := by
  simp only [exec, execHalt, moverRow, effect, onBlock] at e
  repeat' (first | (injection e with e; subst e; dsimp only) | split at e)
  all_goals repeat' (first
    | with_reducible assumption | intro _ | exact bits_sub (by decide) hm | with_reducible apply keep_unitHalt h
    | (with_reducible refine keep_unitHalt_eq h ?_ ?_ (by assumption)) | with_reducible apply keep_runUnit h
    | with_reducible apply keep_ite | split | dsimp only | assumption | rfl)

theorem row_jump (hm : 18907577 ||| m = m) {s t : State} (hb : P s.b) {a0} (e : exec (.jump a0) s = .next t) : P t.b
    := by
  simp only [exec, execJump, moverRow, effect, onBlock] at e
  repeat' (first | (injection e with e; subst e; dsimp only) | split at e)
  all_goals repeat' (first
    | with_reducible assumption | intro _ | exact bits_sub (by decide) hm | with_reducible apply keep_unitJump h
    | (with_reducible refine keep_unitJump_eq h ?_ ?_ (by assumption)) | with_reducible apply keep_runUnit h
    | with_reducible apply keep_ite | split | dsimp only | assumption | rfl)

theorem row_loop (hm : 18907577 ||| m = m) {s t : State} (hb : P s.b) {a0} (e : exec (.loop a0) s = .next t) : P t.b
    := by
  simp only [exec, execLoop, moverRow, effect, onBlock] at e
  repeat' (first | (injection e with e; subst e; dsimp only) | split at e)
  all_goals repeat' (first
    | with_reducible assumption | intro _ | exact bits_sub (by decide) hm | with_reducible apply keep_unitLoop h
    | (with_reducible refine keep_unitLoop_eq h ?_ ?_ (by assumption)) | with_reducible apply keep_runUnit h
    | with_reducible apply keep_ite | split | dsimp only | assumption | rfl)

theorem row_endl (hm : 18907577 ||| m = m) {s t : State} (hb : P s.b) {a0} (e : exec (.endl a0) s = .next t) : P t.b
    := by
  simp only [exec, execEndl, moverRow, effect, onBlock] at e
  repeat' (first | (injection e with e; subst e; dsimp only) | split at e)
  all_goals repeat' (first
    | with_reducible assumption | intro _ | exact bits_sub (by decide) hm | with_reducible apply keep_unitEndl h
    | (with_reducible refine keep_unitEndl_eq h ?_ ?_ (by assumption)) | with_reducible apply keep_runUnit h
    | with_reducible apply keep_ite | split | dsimp only | assumption | rfl)

theorem row_move (hm : 1092649401 ||| m = m) {s t : State} (hb : P s.b) {a0} (e : exec (.move a0) s = .next t) : P t.b
    := by
  simp only [exec, execMove, moverRow, effect, onBlock] at e
  repeat' (first | (injection e with e; subst e; dsimp only) | split at e)
  all_goals repeat' (first
    | with_reducible assumption | intro _ | exact bits_sub (by decide) hm | with_reducible apply keep_unitMove h
    | (with_reducible refine keep_unitMove_eq h ?_ ?_ (by assumption)) | with_reducible apply keep_runUnit h
    | with_reducible apply keep_ite | split | dsimp only | assumption | rfl)

theorem row_moveb (hm : 1092649401 ||| m = m) {s t : State} (hb : P s.b) {a0} (e : exec (.moveb a0) s = .next t) : P
    t.b := by
  simp only [exec, execMoveb, moverRow, effect, onBlock] at e
  repeat' (first | (injection e with e; subst e; dsimp only) | split at e)
  all_goals repeat' (first
    | with_reducible assumption | intro _ | exact bits_sub (by decide) hm | with_reducible apply keep_unitMoveb h
    | (with_reducible refine keep_unitMoveb_eq h ?_ ?_ (by assumption)) | with_reducible apply keep_runUnit h
    | with_reducible apply keep_ite | split | dsimp only | assumption | rfl)

theorem row_fill (hm : 1092649401 ||| m = m) {s t : State} (hb : P s.b) {a0} (e : exec (.fill a0) s = .next t) : P t.b
    := by
  simp only [exec, execFill, moverRow, effect, onBlock] at e
  repeat' (first | (injection e with e; subst e; dsimp only) | split at e)
  all_goals repeat' (first
    | with_reducible assumption | intro _ | exact bits_sub (by decide) hm | with_reducible apply keep_unitFill h
    | (with_reducible refine keep_unitFill_eq h ?_ ?_ (by assumption)) | with_reducible apply keep_runUnit h
    | with_reducible apply keep_ite | split | dsimp only | assumption | rfl)

theorem row_copy (hm : 1092649401 ||| m = m) {s t : State} (hb : P s.b) {a0} (e : exec (.copy a0) s = .next t) : P t.b
    := by
  simp only [exec, execCopy, moverRow, effect, onBlock] at e
  repeat' (first | (injection e with e; subst e; dsimp only) | split at e)
  all_goals repeat' (first
    | with_reducible assumption | intro _ | exact bits_sub (by decide) hm | with_reducible apply keep_unitCopy h
    | (with_reducible refine keep_unitCopy_eq h ?_ ?_ (by assumption)) | with_reducible apply keep_runUnit h
    | with_reducible apply keep_ite | split | dsimp only | assumption | rfl)

theorem row_setx (hm : 1092649401 ||| m = m) {s t : State} (hb : P s.b) {a0} (e : exec (.setx a0) s = .next t) : P t.b
    := by
  simp only [exec, execSetx, moverRow, effect, onBlock] at e
  repeat' (first | (injection e with e; subst e; dsimp only) | split at e)
  all_goals repeat' (first
    | with_reducible assumption | intro _ | exact bits_sub (by decide) hm | with_reducible apply keep_unitSetx h
    | (with_reducible refine keep_unitSetx_eq h ?_ ?_ (by assumption)) | with_reducible apply keep_runUnit h
    | with_reducible apply keep_ite | split | dsimp only | assumption | rfl)

theorem row_wait (hm : 19038649 ||| m = m) {s t : State} (hb : P s.b) {a0} (e : exec (.wait a0) s = .next t) : P t.b
    := by
  simp only [exec, execWait, moverRow, effect, onBlock] at e
  repeat' (first | (injection e with e; subst e; dsimp only) | split at e)
  all_goals repeat' (first
    | with_reducible assumption | intro _ | exact bits_sub (by decide) hm | with_reducible apply keep_unitWait h
    | (with_reducible refine keep_unitWait_eq h ?_ ?_ (by assumption)) | with_reducible apply keep_runUnit h
    | with_reducible apply keep_ite | split | dsimp only | assumption | rfl)

theorem row_signal (hm : 18907577 ||| m = m) {s t : State} (hb : P s.b) {a0} (e : exec (.signal a0) s = .next t) : P
    t.b := by
  simp only [exec, execSignal, moverRow, effect, onBlock] at e
  repeat' (first | (injection e with e; subst e; dsimp only) | split at e)
  all_goals repeat' (first
    | with_reducible assumption | intro _ | exact bits_sub (by decide) hm | with_reducible apply keep_unitSignal h
    | (with_reducible refine keep_unitSignal_eq h ?_ ?_ (by assumption)) | with_reducible apply keep_runUnit h
    | with_reducible apply keep_ite | split | dsimp only | assumption | rfl)

theorem row_fence (hm : 18907577 ||| m = m) {s t : State} (hb : P s.b) {a0} (e : exec (.fence a0) s = .next t) : P t.b
    := by
  simp only [exec, execFence, moverRow, effect, onBlock] at e
  repeat' (first | (injection e with e; subst e; dsimp only) | split at e)
  all_goals repeat' (first
    | with_reducible assumption | intro _ | exact bits_sub (by decide) hm | with_reducible apply keep_unitFence h
    | (with_reducible refine keep_unitFence_eq h ?_ ?_ (by assumption)) | with_reducible apply keep_runUnit h
    | with_reducible apply keep_ite | split | dsimp only | assumption | rfl)

theorem row_tload (hm : 1092649401 ||| m = m) {s t : State} (hb : P s.b) {a0} (e : exec (.tload a0) s = .next t) : P
    t.b := by
  simp only [exec, execTload, moverRow, effect, onBlock] at e
  repeat' (first | (injection e with e; subst e; dsimp only) | split at e)
  all_goals repeat' (first
    | with_reducible assumption | intro _ | exact bits_sub (by decide) hm | with_reducible apply keep_unitTload h
    | (with_reducible refine keep_unitTload_eq h ?_ ?_ (by assumption)) | with_reducible apply keep_runUnit h
    | with_reducible apply keep_ite | split | dsimp only | assumption | rfl)

theorem row_stat (hm : 1092649401 ||| m = m) {s t : State} (hb : P s.b) {a0} (e : exec (.stat a0) s = .next t) : P t.b
    := by
  simp only [exec, execStat, moverRow, effect, onBlock] at e
  repeat' (first | (injection e with e; subst e; dsimp only) | split at e)
  all_goals repeat' (first
    | with_reducible assumption | intro _ | exact bits_sub (by decide) hm | with_reducible apply keep_unitStat h
    | (with_reducible refine keep_unitStat_eq h ?_ ?_ (by assumption)) | with_reducible apply keep_runUnit h
    | with_reducible apply keep_ite | split | dsimp only | assumption | rfl)

theorem row_advise (hm : 18907577 ||| m = m) {s t : State} (hb : P s.b) {a0} (e : exec (.advise a0) s = .next t) : P
    t.b := by
  simp only [exec, execAdvise, moverRow, effect, onBlock] at e
  repeat' (first | (injection e with e; subst e; dsimp only) | split at e)
  all_goals repeat' (first
    | with_reducible assumption | intro _ | exact bits_sub (by decide) hm | with_reducible apply keep_unitAdvise h
    | (with_reducible refine keep_unitAdvise_eq h ?_ ?_ (by assumption)) | with_reducible apply keep_runUnit h
    | with_reducible apply keep_ite | split | dsimp only | assumption | rfl)

theorem row_doorbellWrite (hm : 4093634559 ||| m = m) {s t : State} (hb : P s.b) {a0 a1 a2 a3} (e : exec
    (.doorbellWrite a0 a1 a2 a3) s = .next t) : P t.b := by
  simp only [exec, execDoorbellWrite, writeIf, effect, onBlock] at e
  repeat' (first | (injection e with e; subst e; dsimp only) | split at e)
  all_goals repeat' (first
    | with_reducible assumption | intro _ | exact bits_sub (by decide) hm | with_reducible apply keep_cfgWrite h
    | with_reducible apply keep_ite | split | dsimp only | assumption | rfl)

theorem row_channelEnable (hm : 4093634559 ||| m = m) {s t : State} (hb : P s.b) {a0 a1 a2 a3} (e : exec
    (.channelEnable a0 a1 a2 a3) s = .next t) : P t.b := by
  simp only [exec, execChannelEnable, writeIf, effect, onBlock] at e
  repeat' (first | (injection e with e; subst e; dsimp only) | split at e)
  all_goals repeat' (first
    | with_reducible assumption | intro _ | exact bits_sub (by decide) hm | with_reducible apply keep_cfgWrite h
    | with_reducible apply keep_ite | split | dsimp only | assumption | rfl)

theorem row_channelDisable (hm : 4093634559 ||| m = m) {s t : State} (hb : P s.b) {a0 a1 a2 a3} (e : exec
    (.channelDisable a0 a1 a2 a3) s = .next t) : P t.b := by
  simp only [exec, execChannelDisable, writeIf, effect, onBlock] at e
  repeat' (first | (injection e with e; subst e; dsimp only) | split at e)
  all_goals repeat' (first
    | with_reducible assumption | intro _ | exact bits_sub (by decide) hm | with_reducible apply keep_cfgWrite h
    | with_reducible apply keep_ite | split | dsimp only | assumption | rfl)

theorem row_resume (hm : 4093634559 ||| m = m) {s t : State} (hb : P s.b) {a0 a1 a2 a3} (e : exec (.resume a0 a1 a2
    a3) s = .next t) : P t.b := by
  simp only [exec, execResume, writeIf, effect, onBlock] at e
  repeat' (first | (injection e with e; subst e; dsimp only) | split at e)
  all_goals repeat' (first
    | with_reducible assumption | intro _ | exact bits_sub (by decide) hm | with_reducible apply keep_cfgWrite h
    | with_reducible apply keep_ite | split | dsimp only | assumption | rfl)

theorem row_entryReadReturn (hm : 18931717 ||| m = m) {s t : State} (hb : P s.b) {a0 a1 a2 a3 a4 a5 a6 a7} (e : exec
    (.entryReadReturn a0 a1 a2 a3 a4 a5 a6 a7) s = .next t) : P t.b := by
  simp only [exec, execEntryReadReturn, effect, onBlock] at e
  repeat' (first | (injection e with e; subst e; dsimp only) | split at e)
  all_goals repeat' (first
    | with_reducible assumption | intro _ | exact bits_sub (by decide) hm | with_reducible apply keep_entryBack h
    | with_reducible apply keep_ite | split | dsimp only | assumption | rfl)

theorem row_entryDispatch (hm : 16777245 ||| m = m) {s t : State} (hb : P s.b) {a0 a1} (e : exec (.entryDispatch a0
    a1) s = .next t) : P t.b := by
  simp only [exec, execEntryDispatch, effect, onBlock] at e
  repeat' (first | (injection e with e; subst e; dsimp only) | split at e)
  all_goals repeat' (first
    | with_reducible assumption | intro _ | exact bits_sub (by decide) hm | with_reducible apply keep_dispatch h
    | with_reducible apply keep_reqThaw h | with_reducible apply keep_ite | split | dsimp only | assumption | rfl)

theorem row_instructionLineReturn (hm : 18932157 ||| m = m) {s t : State} (hb : P s.b) {a0 a1 a2 a3 a4} (e : exec
    (.instructionLineReturn a0 a1 a2 a3 a4) s = .next t) : P t.b := by
  simp only [exec, execInstructionLineReturn, effect, onBlock] at e
  repeat' (first | (injection e with e; subst e; dsimp only) | split at e)
  all_goals repeat' (first
    | with_reducible assumption | intro _ | exact bits_sub (by decide) hm | with_reducible apply keep_lineBack h
    | with_reducible apply keep_ite | split | dsimp only | assumption | rfl)

theorem row_entryComplete (hm : 18932157 ||| m = m) {s t : State} (hb : P s.b) {a0 a1} (e : exec (.entryComplete a0
    a1) s = .next t) : P t.b := by
  simp only [exec, execEntryComplete, effect, onBlock] at e
  repeat' (first | (injection e with e; subst e; dsimp only) | split at e)
  all_goals repeat' (first
    | with_reducible assumption | intro _ | exact bits_sub (by decide) hm | with_reducible apply keep_entryEnd h
    | with_reducible apply keep_tick h | with_reducible apply keep_ite | split | dsimp only | assumption | rfl)

theorem row_statusWriteLanded (hm : 18931781 ||| m = m) {s t : State} (hb : P s.b) {a0 a1 a2} (e : exec
    (.statusWriteLanded a0 a1 a2) s = .next t) : P t.b := by
  simp only [exec, execStatusWriteLanded, effect, onBlock] at e
  repeat' (first | (injection e with e; subst e; dsimp only) | split at e)
  all_goals repeat' (first
    | with_reducible assumption | intro _ | exact bits_sub (by decide) hm | with_reducible apply keep_statusBack h
    | with_reducible apply keep_ite | split | dsimp only | assumption | rfl)

theorem row_interruptSend (hm : 32768 ||| m = m) {s t : State} (hb : P s.b) (e : exec (.interruptSend ) s = .next t) :
    P t.b := by
  simp only [exec, execInterruptSend, effect, onBlock] at e
  repeat' (first | (injection e with e; subst e; dsimp only) | split at e)
  all_goals repeat' (first
    | with_reducible assumption | intro _ | exact bits_sub (by decide) hm | with_reducible apply keep_ite | split
    | with_reducible apply upd_irqs h | dsimp only | assumption | rfl)

theorem row_interruptCauseClear (hm : 4093634559 ||| m = m) {s t : State} (hb : P s.b) {a0 a1 a2} (e : exec
    (.interruptCauseClear a0 a1 a2) s = .next t) : P t.b := by
  simp only [exec, execInterruptCauseClear, effect, onBlock] at e
  repeat' (first | (injection e with e; subst e; dsimp only) | split at e)
  all_goals repeat' (first
    | with_reducible assumption | intro _ | exact bits_sub (by decide) hm | with_reducible apply keep_cfgWrite h
    | with_reducible apply keep_ite | split | dsimp only | assumption | rfl)

theorem row_descriptorArrive (hm : 2167464381 ||| m = m) {s t : State} (hb : P s.b) {a0 a1 a2 a3 a4} (e : exec
    (.descriptorArrive a0 a1 a2 a3 a4) s = .next t) : P t.b := by
  simp only [exec, execDescriptorArrive, effect, onBlock] at e
  repeat' (first | (injection e with e; subst e; dsimp only) | split at e)
  all_goals repeat' (first
    | with_reducible assumption | intro _ | exact bits_sub (by decide) hm | with_reducible apply keep_descBack h
    | with_reducible apply keep_ite | split | dsimp only | assumption | rfl)

theorem row_hazardGrant (hm : 19038649 ||| m = m) {s t : State} (hb : P s.b) {a0 a1} (e : exec (.hazardGrant a0 a1) s
    = .next t) : P t.b := by
  simp only [exec, execHazardGrant, effect, onBlock] at e
  repeat' (first | (injection e with e; subst e; dsimp only) | split at e)
  all_goals repeat' (first
    | with_reducible assumption | intro _ | exact bits_sub (by decide) hm | with_reducible apply keep_tick h
    | with_reducible apply keep_hazStep h | with_reducible apply keep_ite | split | dsimp only | assumption | rfl)

theorem row_guardSatisfied (hm : 18907577 ||| m = m) {s t : State} (hb : P s.b) {a0 a1} (e : exec (.guardSatisfied a0
    a1) s = .next t) : P t.b := by
  simp only [exec, execGuardSatisfied, effect, onBlock] at e
  repeat' (first | (injection e with e; subst e; dsimp only) | split at e)
  all_goals repeat' (first
    | with_reducible assumption | intro _ | exact bits_sub (by decide) hm | with_reducible apply keep_tick h
    | with_reducible apply keep_afterGuards h | with_reducible apply keep_ite | split | dsimp only | assumption | rfl)

theorem row_guardTimeout (hm : 18907577 ||| m = m) {s t : State} (hb : P s.b) {a0 a1} (e : exec (.guardTimeout a0 a1)
    s = .next t) : P t.b := by
  simp only [exec, execGuardTimeout, effect, onBlock] at e
  repeat' (first | (injection e with e; subst e; dsimp only) | split at e)
  all_goals repeat' (first
    | with_reducible assumption | intro _ | exact bits_sub (by decide) hm
    | (extract_lets +onlyGivenNames x; refine keep_cut (p := P x) ?_ (fun kx => ?_); rotate_left; clear_value x; rotate_right; unfold x; clear x)
    | (extract_lets +onlyGivenNames x; unfold x; clear x)
    | (extract_lets +onlyGivenNames x; clear x)
    | with_reducible apply keep_tick h | with_reducible apply keep_guardExpire h | with_reducible apply keep_ite
    | split | dsimp only | assumption | rfl)

theorem row_codecBind (hm : 18907577 ||| m = m) {s t : State} (hb : P s.b) {a0 a1} (e : exec (.codecBind a0 a1) s =
    .next t) : P t.b := by
  simp only [exec, execCodecBind, effect, onBlock] at e
  repeat' (first | (injection e with e; subst e; dsimp only) | split at e)
  all_goals repeat' (first
    | with_reducible assumption | intro _ | exact bits_sub (by decide) hm | with_reducible apply keep_tick h
    | with_reducible apply keep_codecBind h | with_reducible apply keep_ite | split | dsimp only | assumption | rfl)

theorem row_resourceGrant (hm : 18907577 ||| m = m) {s t : State} (hb : P s.b) {a0 a1} (e : exec (.resourceGrant a0
    a1) s = .next t) : P t.b := by
  simp only [exec, execResourceGrant, effect, onBlock] at e
  repeat' (first | (injection e with e; subst e; dsimp only) | split at e)
  all_goals repeat' (first
    | with_reducible assumption | intro _ | exact bits_sub (by decide) hm | with_reducible apply keep_tick h
    | with_reducible apply keep_resGrant h | with_reducible apply keep_ite | split | dsimp only | assumption | rfl)

theorem row_readBurstIssue (hm : 1092714941 ||| m = m) {s t : State} (hb : P s.b) {a0} (e : exec (.readBurstIssue a0)
    s = .next t) : P t.b := by
  simp only [exec, execReadBurstIssue, effect, onBlock] at e
  repeat' (first | (injection e with e; subst e; dsimp only) | split at e)
  all_goals repeat' (first
    | with_reducible assumption | intro _ | exact bits_sub (by decide) hm | with_reducible apply keep_vaultServe h
    | with_reducible apply keep_readIssue h | with_reducible apply keep_tickStn h | with_reducible apply keep_ite
    | split | dsimp only | assumption | rfl)

theorem row_writeBurstIssue (hm : 1092714941 ||| m = m) {s t : State} (hb : P s.b) {a0 a1 a2} (e : exec
    (.writeBurstIssue a0 a1 a2) s = .next t) : P t.b := by
  simp only [exec, execWriteBurstIssue, effect, onBlock] at e
  repeat' (first | (injection e with e; subst e; dsimp only) | split at e)
  all_goals repeat' (first
    | with_reducible assumption | intro _ | exact bits_sub (by decide) hm | with_reducible apply keep_writeIssue h
    | with_reducible apply keep_tickStn h | with_reducible apply keep_ite | split | dsimp only | assumption | rfl)

theorem row_readReturn (hm : 18973113 ||| m = m) {s t : State} (hb : P s.b) {a0 a1 a2 a3} (e : exec (.readReturn a0 a1
    a2 a3) s = .next t) : P t.b := by
  simp only [exec, execReadReturn, effect, onBlock] at e
  repeat' (first | (injection e with e; subst e; dsimp only) | split at e)
  all_goals repeat' (first
    | with_reducible assumption | intro _ | exact bits_sub (by decide) hm | with_reducible apply keep_readBack h
    | with_reducible apply keep_ite | split | dsimp only | assumption | rfl)

theorem row_writeCompletion (hm : 2200955389 ||| m = m) {s t : State} (hb : P s.b) {a0 a1 a2} (e : exec
    (.writeCompletion a0 a1 a2) s = .next t) : P t.b := by
  simp only [exec, execWriteCompletion, effect, onBlock] at e
  repeat' (first | (injection e with e; subst e; dsimp only) | split at e)
  all_goals repeat' (first
    | with_reducible assumption | intro _ | exact bits_sub (by decide) hm | with_reducible apply keep_writeBack h
    | with_reducible apply keep_hubWriteBack h | with_reducible apply keep_ite | split | dsimp only | assumption | rfl)

theorem row_landTimeout (hm : 18973177 ||| m = m) {s t : State} (hb : P s.b) {a0 a1} (e : exec (.landTimeout a0 a1) s
    = .next t) : P t.b := by
  simp only [exec, execLandTimeout, effect, onBlock] at e
  repeat' (first | (injection e with e; subst e; dsimp only) | split at e)
  all_goals repeat' (first
    | with_reducible assumption | intro _ | exact bits_sub (by decide) hm | with_reducible apply keep_landTmo h
    | with_reducible apply keep_ite | split | dsimp only | assumption | rfl)

theorem row_invalidationSend (hm : 16783361 ||| m = m) {s t : State} (hb : P s.b) (e : exec (.invalidationSend ) s =
    .next t) : P t.b := by
  simp only [exec, execInvalidationSend, effect, onBlock] at e
  repeat' (first | (injection e with e; subst e; dsimp only) | split at e)
  all_goals repeat' (first
    | with_reducible assumption | intro _ | exact bits_sub (by decide) hm | with_reducible apply keep_count h
    | with_reducible apply keep_rcount h | with_reducible apply keep_ite | split
    | with_reducible apply upd_invQ_invals h | dsimp only | assumption | rfl)

theorem row_invalidationAck (hm : 18977273 ||| m = m) {s t : State} (hb : P s.b) {a0} (e : exec (.invalidationAck a0)
    s = .next t) : P t.b := by
  simp only [exec, execInvalidationAck, effect, onBlock] at e
  repeat' (first | (injection e with e; subst e; dsimp only) | split at e)
  all_goals repeat' (first
    | with_reducible assumption | intro _ | exact bits_sub (by decide) hm | with_reducible apply keep_invalAck h
    | with_reducible apply keep_ite | split | dsimp only | assumption | rfl)

theorem row_invalidationTimeout (hm : 18977273 ||| m = m) {s t : State} (hb : P s.b) {a0} (e : exec
    (.invalidationTimeout a0) s = .next t) : P t.b := by
  simp only [exec, execInvalidationTimeout, effect, onBlock] at e
  repeat' (first | (injection e with e; subst e; dsimp only) | split at e)
  all_goals repeat' (first
    | with_reducible assumption | intro _ | exact bits_sub (by decide) hm | with_reducible apply keep_invalTmo h
    | with_reducible apply keep_ite | split | dsimp only | assumption | rfl)

theorem row_blockDecode (hm : 18907577 ||| m = m) {s t : State} (hb : P s.b) {a0 a1} (e : exec (.blockDecode a0 a1) s
    = .next t) : P t.b := by
  simp only [exec, execBlockDecode, effect, onBlock] at e
  repeat' (first | (injection e with e; subst e; dsimp only) | split at e)
  all_goals repeat' (first
    | with_reducible assumption | intro _ | exact bits_sub (by decide) hm | with_reducible apply keep_decodeOne h
    | with_reducible apply keep_tick h | with_reducible apply keep_ite | split | dsimp only | assumption | rfl)

theorem row_blockEncode (hm : 18907577 ||| m = m) {s t : State} (hb : P s.b) {a0 a1} (e : exec (.blockEncode a0 a1) s
    = .next t) : P t.b := by
  simp only [exec, execBlockEncode, effect, onBlock] at e
  repeat' (first | (injection e with e; subst e; dsimp only) | split at e)
  all_goals repeat' (first
    | with_reducible assumption | intro _ | exact bits_sub (by decide) hm | with_reducible apply keep_encodeOne h
    | with_reducible apply keep_tick h | with_reducible apply keep_ite | split | dsimp only | assumption | rfl)

theorem row_tloadMarkLoading (hm : 18907577 ||| m = m) {s t : State} (hb : P s.b) {a0 a1} (e : exec (.tloadMarkLoading
    a0 a1) s = .next t) : P t.b := by
  simp only [exec, execTloadMarkLoading, effect, onBlock] at e
  repeat' (first | (injection e with e; subst e; dsimp only) | split at e)
  all_goals repeat' (first
    | with_reducible assumption | intro _ | exact bits_sub (by decide) hm | with_reducible apply keep_tick h
    | with_reducible apply keep_tloadMark h | with_reducible apply keep_ite | split | dsimp only | assumption | rfl)

theorem row_tloadTableBuilt (hm : 18907577 ||| m = m) {s t : State} (hb : P s.b) {a0 a1} (e : exec (.tloadTableBuilt
    a0 a1) s = .next t) : P t.b := by
  simp only [exec, execTloadTableBuilt, effect, onBlock] at e
  repeat' (first | (injection e with e; subst e; dsimp only) | split at e)
  all_goals repeat' (first
    | with_reducible assumption | intro _ | exact bits_sub (by decide) hm | with_reducible apply keep_tick h
    | with_reducible apply keep_tloadBuild h | with_reducible apply keep_ite | split | dsimp only | assumption | rfl)

theorem row_statRecord (hm : 18907577 ||| m = m) {s t : State} (hb : P s.b) {a0 a1} (e : exec (.statRecord a0 a1) s =
    .next t) : P t.b := by
  simp only [exec, execStatRecord, effect, onBlock] at e
  repeat' (first | (injection e with e; subst e; dsimp only) | split at e)
  all_goals repeat' (first
    | with_reducible assumption | intro _ | exact bits_sub (by decide) hm | with_reducible apply keep_tick h
    | with_reducible apply keep_statTake h | with_reducible apply keep_ite | split | dsimp only | assumption | rfl)

theorem row_frameSync (hm : 2097168 ||| m = m) {s t : State} (hb : P s.b) {a0 a1} (e : exec (.frameSync a0 a1) s =
    .next t) : P t.b := by
  simp only [exec, execFrameSync, effect, onBlock] at e
  repeat' (first | (injection e with e; subst e; dsimp only) | split at e)
  all_goals repeat' (first
    | with_reducible assumption | intro _ | exact bits_sub (by decide) hm
    | (extract_lets +onlyGivenNames x; refine keep_cut (p := P x) ?_ (fun kx => ?_); rotate_left; clear_value x; rotate_right; unfold x; clear x)
    | (extract_lets +onlyGivenNames x; unfold x; clear x)
    | (extract_lets +onlyGivenNames x; clear x)
    | with_reducible apply keep_modStn h | with_reducible apply keep_senseEv h | with_reducible apply keep_ite | split
    | dsimp only | assumption | rfl)

theorem row_nearSlot (hm : 1092714941 ||| m = m) {s t : State} (hb : P s.b) {a0 a1 a2} (e : exec (.nearSlot a0 a1 a2)
    s = .next t) : P t.b := by
  simp only [exec, execNearSlot, effect, onBlock] at e
  repeat' (first | (injection e with e; subst e; dsimp only) | split at e)
  all_goals repeat' (first
    | with_reducible assumption | intro _ | exact bits_sub (by decide) hm | with_reducible apply keep_nearSlotStep h
    | with_reducible apply keep_ite | split | dsimp only | assumption | rfl)

theorem row_lineStaged (hm : 18907577 ||| m = m) {s t : State} (hb : P s.b) {a0} (e : exec (.lineStaged a0) s = .next
    t) : P t.b := by
  simp only [exec, execLineStaged, effect, onBlock] at e
  repeat' (first | (injection e with e; subst e; dsimp only) | split at e)
  all_goals repeat' (first
    | with_reducible assumption | intro _ | exact bits_sub (by decide) hm | with_reducible apply keep_stageLine h
    | with_reducible apply keep_tickStn h | with_reducible apply keep_ite | split | dsimp only | assumption | rfl)

theorem row_nearReadData (hm : 18973113 ||| m = m) {s t : State} (hb : P s.b) {a0 a1 a2 a3 a4} (e : exec
    (.nearReadData a0 a1 a2 a3 a4) s = .next t) : P t.b := by
  simp only [exec, execNearReadData, effect, onBlock] at e
  repeat' (first | (injection e with e; subst e; dsimp only) | split at e)
  all_goals repeat' (first
    | with_reducible assumption | intro _ | exact bits_sub (by decide) hm | with_reducible apply keep_nearReadBack h
    | with_reducible apply keep_ite | split | dsimp only | assumption | rfl)

theorem row_nearWriteAck (hm : 18973177 ||| m = m) {s t : State} (hb : P s.b) {a0 a1} (e : exec (.nearWriteAck a0 a1)
    s = .next t) : P t.b := by
  simp only [exec, execNearWriteAck, effect, onBlock] at e
  repeat' (first | (injection e with e; subst e; dsimp only) | split at e)
  all_goals repeat' (first
    | with_reducible assumption | intro _ | exact bits_sub (by decide) hm | with_reducible apply keep_nearWrDone h
    | with_reducible apply keep_ite | split | dsimp only | assumption | rfl)

theorem row_nearAckMissing (hm : 18973177 ||| m = m) {s t : State} (hb : P s.b) {a0} (e : exec (.nearAckMissing a0) s
    = .next t) : P t.b := by
  simp only [exec, execNearAckMissing, effect, onBlock] at e
  repeat' (first | (injection e with e; subst e; dsimp only) | split at e)
  all_goals repeat' (first
    | with_reducible assumption | intro _ | exact bits_sub (by decide) hm | with_reducible apply keep_nearWrDone h
    | with_reducible apply keep_ite | split | dsimp only | assumption | rfl)

theorem row_signalFire (hm : 18907641 ||| m = m) {s t : State} (hb : P s.b) {a0 a1} (e : exec (.signalFire a0 a1) s =
    .next t) : P t.b := by
  simp only [exec, execSignalFire, effect, onBlock] at e
  repeat' (first | (injection e with e; subst e; dsimp only) | split at e)
  all_goals repeat' (first
    | with_reducible assumption | intro _ | exact bits_sub (by decide) hm | with_reducible apply keep_sigFire h
    | with_reducible apply keep_tick h | with_reducible apply keep_ite | split | dsimp only | assumption | rfl)

theorem row_tallyAddition (hm : 1097039993 ||| m = m) {s t : State} (hb : P s.b) {a0} (e : exec (.tallyAddition a0) s
    = .next t) : P t.b := by
  simp only [exec, execTallyAddition, effect, onBlock] at e
  repeat' (first | (injection e with e; subst e; dsimp only) | split at e)
  all_goals repeat' (first
    | with_reducible assumption | intro _ | exact bits_sub (by decide) hm | with_reducible apply keep_tallyAdd h
    | with_reducible apply keep_ite | split | dsimp only | assumption | rfl)

theorem row_landingBarrier (hm : 16777233 ||| m = m) {s t : State} (hb : P s.b) {a0} (e : exec (.landingBarrier a0) s
    = .next t) : P t.b := by
  simp only [exec, execLandingBarrier, effect, onBlock] at e
  repeat' (first | (injection e with e; subst e; dsimp only) | split at e)
  all_goals repeat' (first
    | with_reducible assumption | intro _ | exact bits_sub (by decide) hm | with_reducible apply keep_beginBarrier h
    | with_reducible apply keep_ite | split | dsimp only | assumption | rfl)

theorem row_barrierReport (hm : 48 ||| m = m) {s t : State} (hb : P s.b) {a0} (e : exec (.barrierReport a0) s = .next
    t) : P t.b := by
  simp only [exec, execBarrierReport, effect, onBlock] at e
  repeat' (first | (injection e with e; subst e; dsimp only) | split at e)
  all_goals repeat' (first
    | with_reducible assumption | intro _ | exact bits_sub (by decide) hm | with_reducible apply keep_reportBarrier h
    | with_reducible apply keep_ite | split | dsimp only | assumption | rfl)

theorem row_acquireComplete (hm : 8 ||| m = m) {s t : State} (hb : P s.b) {a0 a1} (e : exec (.acquireComplete a0 a1) s
    = .next t) : P t.b := by
  simp only [exec, execAcquireComplete, effect, onBlock] at e
  repeat' (first | (injection e with e; subst e; dsimp only) | split at e)
  all_goals repeat' (first
    | with_reducible assumption | intro _ | exact bits_sub (by decide) hm | with_reducible apply keep_acqDone h
    | with_reducible apply keep_ite | split | dsimp only | assumption | rfl)

theorem row_waitTimeout (hm : 18907577 ||| m = m) {s t : State} (hb : P s.b) {a0 a1} (e : exec (.waitTimeout a0 a1) s
    = .next t) : P t.b := by
  simp only [exec, execWaitTimeout, effect, onBlock] at e
  repeat' (first | (injection e with e; subst e; dsimp only) | split at e)
  all_goals repeat' (first
    | with_reducible assumption | intro _ | exact bits_sub (by decide) hm | with_reducible apply keep_waitExpire h
    | with_reducible apply keep_ite | split | dsimp only | assumption | rfl)

theorem row_talAdd (hm : 4093634559 ||| m = m) {s t : State} (hb : P s.b) {a0 a1 a2} (e : exec (.talAdd a0 a1 a2) s =
    .next t) : P t.b := by
  simp only [exec, execTalAdd, writeIf, effect, onBlock] at e
  repeat' (first | (injection e with e; subst e; dsimp only) | split at e)
  all_goals repeat' (first
    | with_reducible assumption | intro _ | exact bits_sub (by decide) hm | with_reducible apply keep_cfgWrite h
    | with_reducible apply keep_ite | split | dsimp only | assumption | rfl)

theorem row_talVal (hm : 4093634559 ||| m = m) {s t : State} (hb : P s.b) {a0 a1 a2} (e : exec (.talVal a0 a1 a2) s =
    .next t) : P t.b := by
  simp only [exec, execTalVal, effect, onBlock] at e
  repeat' (first | (injection e with e; subst e; dsimp only) | split at e)
  all_goals repeat' (first
    | with_reducible assumption | intro _ | exact bits_sub (by decide) hm | with_reducible apply keep_cfgWrite h
    | with_reducible apply keep_ite | split | dsimp only | assumption | rfl)

theorem row_tallyPoison (hm : 19104185 ||| m = m) {s t : State} (hb : P s.b) {a0} (e : exec (.tallyPoison a0) s =
    .next t) : P t.b := by
  simp only [exec, execTallyPoison, effect, onBlock] at e
  repeat' (first | (injection e with e; subst e; dsimp only) | split at e)
  all_goals repeat' (first
    | with_reducible assumption | intro _ | exact bits_sub (by decide) hm | with_reducible apply keep_talPoison h
    | with_reducible apply keep_ite | split | dsimp only | assumption | rfl)

theorem row_walkRequest (hm : 18932157 ||| m = m) {s t : State} (hb : P s.b) {a0 a1} (e : exec (.walkRequest a0 a1) s
    = .next t) : P t.b := by
  simp only [exec, execWalkRequest, effect, onBlock] at e
  repeat' (first | (injection e with e; subst e; dsimp only) | split at e)
  all_goals repeat' (first
    | with_reducible assumption | intro _ | exact bits_sub (by decide) hm
    | (with_reducible refine keep_forEach _ _ ?_ ?_) | with_reducible apply keep_startWalkers h
    | with_reducible apply keep_addNeed h | with_reducible apply keep_ite | split | dsimp only | assumption | rfl)

theorem row_walkDone (hm : 18932157 ||| m = m) {s t : State} (hb : P s.b) {a0 a1 a2 a3} (e : exec (.walkDone a0 a1 a2
    a3) s = .next t) : P t.b := by
  simp only [exec, execWalkDone, effect, onBlock] at e
  repeat' (first | (injection e with e; subst e; dsimp only) | split at e)
  all_goals repeat' (first
    | with_reducible assumption | intro _ | exact bits_sub (by decide) hm | with_reducible apply keep_walkDone h
    | with_reducible apply keep_ite | split | dsimp only | assumption | rfl)

theorem row_batchClose (hm : 16777473 ||| m = m) {s t : State} (hb : P s.b) {a0} (e : exec (.batchClose a0) s = .next
    t) : P t.b := by
  simp only [exec, execBatchClose, effect, onBlock] at e
  repeat' (first | (injection e with e; subst e; dsimp only) | split at e)
  all_goals repeat' (first
    | with_reducible assumption | intro _ | exact bits_sub (by decide) hm | with_reducible apply keep_batchClose h
    | with_reducible apply keep_ite | split | dsimp only | assumption | rfl)

theorem row_batchLanded (hm : 18907393 ||| m = m) {s t : State} (hb : P s.b) {a0 a1} (e : exec (.batchLanded a0 a1) s
    = .next t) : P t.b := by
  simp only [exec, execBatchLanded, effect, onBlock] at e
  repeat' (first | (injection e with e; subst e; dsimp only) | split at e)
  all_goals repeat' (first
    | with_reducible assumption | intro _ | exact bits_sub (by decide) hm | with_reducible apply keep_batchLanded h
    | with_reducible apply keep_ite | split | dsimp only | assumption | rfl)

theorem row_faultResolve (hm : 4093634559 ||| m = m) {s t : State} (hb : P s.b) {a0 a1 a2} (e : exec (.faultResolve a0
    a1 a2) s = .next t) : P t.b := by
  simp only [exec, execFaultResolve, writeIf, effect, onBlock] at e
  repeat' (first | (injection e with e; subst e; dsimp only) | split at e)
  all_goals repeat' (first
    | with_reducible assumption | intro _ | exact bits_sub (by decide) hm | with_reducible apply keep_cfgWrite h
    | with_reducible apply keep_ite | split | dsimp only | assumption | rfl)

theorem row_retryWalk (hm : 18932157 ||| m = m) {s t : State} (hb : P s.b) {a0 a1 a2 a3} (e : exec (.retryWalk a0 a1
    a2 a3) s = .next t) : P t.b := by
  simp only [exec, execRetryWalk, effect, onBlock] at e
  repeat' (first | (injection e with e; subst e; dsimp only) | split at e)
  all_goals repeat' (first
    | with_reducible assumption | intro _ | exact bits_sub (by decide) hm | with_reducible apply keep_retryWalk h
    | with_reducible apply keep_ite | split | dsimp only | assumption | rfl)

theorem row_commit (hm : 4093634559 ||| m = m) {s t : State} (hb : P s.b) {a0 a1 a2} (e : exec (.commit a0 a1 a2) s =
    .next t) : P t.b := by
  simp only [exec, execCommit, writeIf, effect, onBlock] at e
  repeat' (first | (injection e with e; subst e; dsimp only) | split at e)
  all_goals repeat' (first
    | with_reducible assumption | intro _ | exact bits_sub (by decide) hm | with_reducible apply keep_cfgWrite h
    | with_reducible apply keep_ite | split | dsimp only | assumption | rfl)

theorem row_revokingCommit (hm : 4093634559 ||| m = m) {s t : State} (hb : P s.b) {a0 a1 a2} (e : exec
    (.revokingCommit a0 a1 a2) s = .next t) : P t.b := by
  simp only [exec, execRevokingCommit, writeIf, effect, onBlock] at e
  repeat' (first | (injection e with e; subst e; dsimp only) | split at e)
  all_goals repeat' (first
    | with_reducible assumption | intro _ | exact bits_sub (by decide) hm | with_reducible apply keep_cfgWrite h
    | with_reducible apply keep_ite | split | dsimp only | assumption | rfl)

theorem row_commitStart (hm : 18908929 ||| m = m) {s t : State} (hb : P s.b) {a0 a1 a2} (e : exec (.commitStart a0 a1
    a2) s = .next t) : P t.b := by
  simp only [exec, execCommitStart, effect, onBlock] at e
  repeat' (first | (injection e with e; subst e; dsimp only) | split at e)
  all_goals repeat' (first
    | with_reducible assumption | intro _ | exact bits_sub (by decide) hm | with_reducible apply keep_commitStart h
    | with_reducible apply keep_ite | split | dsimp only | assumption | rfl)

theorem row_commitSwitch (hm : 34701 ||| m = m) {s t : State} (hb : P s.b) {a0} (e : exec (.commitSwitch a0) s = .next
    t) : P t.b := by
  simp only [exec, execCommitSwitch, effect, onBlock] at e
  repeat' (first | (injection e with e; subst e; dsimp only) | split at e)
  all_goals repeat' (first
    | with_reducible assumption | intro _ | exact bits_sub (by decide) hm | with_reducible apply keep_commitSwitch h
    | with_reducible apply keep_ite | split | dsimp only | assumption | rfl)

theorem row_commitDrained (hm : 34561 ||| m = m) {s t : State} (hb : P s.b) {a0} (e : exec (.commitDrained a0) s =
    .next t) : P t.b := by
  simp only [exec, execCommitDrained, effect, onBlock] at e
  repeat' (first | (injection e with e; subst e; dsimp only) | split at e)
  all_goals repeat' (first
    | with_reducible assumption | intro _ | exact bits_sub (by decide) hm | with_reducible apply keep_commitDrained h
    | with_reducible apply keep_ite | split | dsimp only | assumption | rfl)

theorem row_xlatDisable (hm : 4093634559 ||| m = m) {s t : State} (hb : P s.b) {a0 a1 a2} (e : exec (.xlatDisable a0
    a1 a2) s = .next t) : P t.b := by
  simp only [exec, execXlatDisable, writeIf, effect, onBlock] at e
  repeat' (first | (injection e with e; subst e; dsimp only) | split at e)
  all_goals repeat' (first
    | with_reducible assumption | intro _ | exact bits_sub (by decide) hm | with_reducible apply keep_cfgWrite h
    | with_reducible apply keep_ite | split | dsimp only | assumption | rfl)

theorem row_padvPost (hm : 4093634559 ||| m = m) {s t : State} (hb : P s.b) {a0 a1 a2} (e : exec (.padvPost a0 a1 a2)
    s = .next t) : P t.b := by
  simp only [exec, execPadvPost, writeIf, effect, onBlock] at e
  repeat' (first | (injection e with e; subst e; dsimp only) | split at e)
  all_goals repeat' (first
    | with_reducible assumption | intro _ | exact bits_sub (by decide) hm | with_reducible apply keep_cfgWrite h
    | with_reducible apply keep_ite | split | dsimp only | assumption | rfl)

theorem row_forecastLanded (hm : 2130177 ||| m = m) {s t : State} (hb : P s.b) {a0 a1} (e : exec (.forecastLanded a0
    a1) s = .next t) : P t.b := by
  simp only [exec, execForecastLanded, effect, onBlock] at e
  repeat' (first | (injection e with e; subst e; dsimp only) | split at e)
  all_goals repeat' (first
    | with_reducible assumption | intro _ | exact bits_sub (by decide) hm | with_reducible apply keep_fcLanded h
    | with_reducible apply keep_ite | split | dsimp only | assumption | rfl)

theorem row_portEnable (hm : 4093634559 ||| m = m) {s t : State} (hb : P s.b) {a0 a1} (e : exec (.portEnable a0 a1) s
    = .next t) : P t.b := by
  simp only [exec, execPortEnable, effect, onBlock] at e
  repeat' (first | (injection e with e; subst e; dsimp only) | split at e)
  all_goals repeat' (first
    | with_reducible assumption | intro _ | exact bits_sub (by decide) hm | with_reducible apply keep_cfgWrite h
    | with_reducible apply keep_ite | split | dsimp only | assumption | rfl)

theorem row_portDisable (hm : 4093634559 ||| m = m) {s t : State} (hb : P s.b) {a0 a1} (e : exec (.portDisable a0 a1)
    s = .next t) : P t.b := by
  simp only [exec, execPortDisable, effect, onBlock] at e
  repeat' (first | (injection e with e; subst e; dsimp only) | split at e)
  all_goals repeat' (first
    | with_reducible assumption | intro _ | exact bits_sub (by decide) hm | with_reducible apply keep_cfgWrite h
    | with_reducible apply keep_ite | split | dsimp only | assumption | rfl)

theorem row_portDrained (hm : 65536 ||| m = m) {s t : State} (hb : P s.b) {a0} (e : exec (.portDrained a0) s = .next
    t) : P t.b := by
  simp only [exec, execPortDrained, effect, onBlock] at e
  repeat' (first | (injection e with e; subst e; dsimp only) | split at e)
  all_goals repeat' (first
    | with_reducible assumption | intro _ | exact bits_sub (by decide) hm | with_reducible apply keep_portDrained h
    | with_reducible apply keep_ite | split | dsimp only | assumption | rfl)

theorem row_linkUp (hm : 65552 ||| m = m) {s t : State} (hb : P s.b) {a0} (e : exec (.linkUp a0) s = .next t) : P t.b
    := by
  simp only [exec, execLinkUp, effect, onBlock] at e
  repeat' (first | (injection e with e; subst e; dsimp only) | split at e)
  all_goals repeat' (first
    | with_reducible assumption | intro _ | exact bits_sub (by decide) hm | with_reducible apply keep_portSync h
    | with_reducible apply keep_ite | split | dsimp only | assumption | rfl)

theorem row_linkDown (hm : 2195457 ||| m = m) {s t : State} (hb : P s.b) {a0} (e : exec (.linkDown a0) s = .next t) :
    P t.b := by
  simp only [exec, execLinkDown, effect, onBlock] at e
  repeat' (first | (injection e with e; subst e; dsimp only) | split at e)
  all_goals repeat' (first
    | with_reducible assumption | intro _ | exact bits_sub (by decide) hm | with_reducible apply keep_portDown h
    | with_reducible apply keep_ite | split | dsimp only | assumption | rfl)

theorem row_trainTimeout (hm : 2195457 ||| m = m) {s t : State} (hb : P s.b) {a0} (e : exec (.trainTimeout a0) s =
    .next t) : P t.b := by
  simp only [exec, execTrainTimeout, effect, onBlock] at e
  repeat' (first | (injection e with e; subst e; dsimp only) | split at e)
  all_goals repeat' (first
    | with_reducible assumption | intro _ | exact bits_sub (by decide) hm | with_reducible apply keep_portDown h
    | with_reducible apply keep_ite | split | dsimp only | assumption | rfl)

theorem row_hello (hm : 2195457 ||| m = m) {s t : State} (hb : P s.b) {a0 a1} (e : exec (.hello a0 a1) s = .next t) :
    P t.b := by
  simp only [exec, execHello, effect, onBlock] at e
  repeat' (first | (injection e with e; subst e; dsimp only) | split at e)
  all_goals repeat' (first
    | with_reducible assumption | intro _ | exact bits_sub (by decide) hm | with_reducible apply keep_helloIn h
    | with_reducible apply keep_ite | split | dsimp only | assumption | rfl)

theorem row_flitReceive (hm : 2200953337 ||| m = m) {s t : State} (hb : P s.b) {a0 a1 a2 a3} (e : exec (.flitReceive
    a0 a1 a2 a3) s = .next t) : P t.b := by
  simp only [exec, execFlitReceive, effect, onBlock] at e
  repeat' (first | (injection e with e; subst e; dsimp only) | split at e)
  all_goals repeat' (first
    | with_reducible assumption | intro _ | exact bits_sub (by decide) hm | with_reducible apply keep_rcount h
    | with_reducible apply keep_flitIn h | with_reducible apply keep_ite | split | dsimp only | assumption | rfl)

theorem row_replayTimeout (hm : 18972673 ||| m = m) {s t : State} (hb : P s.b) {a0} (e : exec (.replayTimeout a0) s =
    .next t) : P t.b := by
  simp only [exec, execReplayTimeout, effect, onBlock] at e
  repeat' (first | (injection e with e; subst e; dsimp only) | split at e)
  all_goals repeat' (first
    | with_reducible assumption | intro _ | exact bits_sub (by decide) hm | with_reducible apply keep_resend h
    | with_reducible apply keep_modPort h | with_reducible apply keep_ite | split | dsimp only | assumption | rfl)

theorem row_packetForward (hm : 2166423553 ||| m = m) {s t : State} (hb : P s.b) {a0 a1} (e : exec (.packetForward a0
    a1) s = .next t) : P t.b := by
  simp only [exec, execPacketForward, effect, onBlock] at e
  repeat' (first | (injection e with e; subst e; dsimp only) | split at e)
  all_goals repeat' (first
    | with_reducible assumption | intro _ | exact bits_sub (by decide) hm
    | (extract_lets +onlyGivenNames x; refine keep_cut (p := P x) ?_ (fun kx => ?_); rotate_left; clear_value x; rotate_right; unfold x; clear x)
    | (extract_lets +onlyGivenNames x; unfold x; clear x)
    | (extract_lets +onlyGivenNames x; clear x)
    | with_reducible apply keep_deadSend h | with_reducible apply keep_portSend h | with_reducible apply keep_ite
    | split | dsimp only | assumption | rfl)

theorem row_wr (hm : 18939921 ||| m = m) {s t : State} (hb : P s.b) {a0 a1} (e : exec (.wr a0 a1) s = .next t) : P t.b
    := by
  simp only [exec, execWr, effect, onBlock] at e
  repeat' (first | (injection e with e; subst e; dsimp only) | split at e)
  all_goals repeat' (first
    | with_reducible assumption | intro _ | exact bits_sub (by decide) hm | with_reducible apply keep_requestIn h
    | with_reducible apply keep_ite | split | dsimp only | assumption | rfl)

theorem row_rd (hm : 18939921 ||| m = m) {s t : State} (hb : P s.b) {a0 a1} (e : exec (.rd a0 a1) s = .next t) : P t.b
    := by
  simp only [exec, execRd, effect, onBlock] at e
  repeat' (first | (injection e with e; subst e; dsimp only) | split at e)
  all_goals repeat' (first
    | with_reducible assumption | intro _ | exact bits_sub (by decide) hm | with_reducible apply keep_requestIn h
    | with_reducible apply keep_ite | split | dsimp only | assumption | rfl)

theorem row_wack (hm : 18973177 ||| m = m) {s t : State} (hb : P s.b) {a0 a1} (e : exec (.wack a0 a1) s = .next t) : P
    t.b := by
  simp only [exec, execWack, effect, onBlock] at e
  repeat' (first | (injection e with e; subst e; dsimp only) | split at e)
  all_goals repeat' (first
    | with_reducible assumption | intro _ | exact bits_sub (by decide) hm | with_reducible apply keep_wackIn h
    | with_reducible apply keep_ite | split | dsimp only | assumption | rfl)

theorem row_rdata (hm : 18973113 ||| m = m) {s t : State} (hb : P s.b) {a0 a1} (e : exec (.rdata a0 a1) s = .next t) :
    P t.b := by
  simp only [exec, execRdata, effect, onBlock] at e
  repeat' (first | (injection e with e; subst e; dsimp only) | split at e)
  all_goals repeat' (first
    | with_reducible assumption | intro _ | exact bits_sub (by decide) hm | with_reducible apply keep_rdataIn h
    | with_reducible apply keep_ite | split | dsimp only | assumption | rfl)

theorem row_rdTimeout (hm : 18907577 ||| m = m) {s t : State} (hb : P s.b) {a0 a1} (e : exec (.rdTimeout a0 a1) s =
    .next t) : P t.b := by
  simp only [exec, execRdTimeout, effect, onBlock] at e
  repeat' (first | (injection e with e; subst e; dsimp only) | split at e)
  all_goals repeat' (first
    | with_reducible assumption | intro _ | exact bits_sub (by decide) hm | with_reducible apply keep_winReadEnd h
    | with_reducible apply keep_ite | split | dsimp only | assumption | rfl)

theorem row_stop (hm : 2195457 ||| m = m) {s t : State} (hb : P s.b) {a0} (e : exec (.stop a0) s = .next t) : P t.b :=
    by
  simp only [exec, execStop, effect, onBlock] at e
  repeat' (first | (injection e with e; subst e; dsimp only) | split at e)
  all_goals repeat' (first
    | with_reducible assumption | intro _ | exact bits_sub (by decide) hm | with_reducible apply keep_stopIn h
    | with_reducible apply keep_ite | split | dsimp only | assumption | rfl)

theorem row_gup (hm : 2200953337 ||| m = m) {s t : State} (hb : P s.b) {a0 a1 a2} (e : exec (.gup a0 a1 a2) s = .next
    t) : P t.b := by
  simp only [exec, execGup, effect, onBlock] at e
  repeat' (first | (injection e with e; subst e; dsimp only) | split at e)
  all_goals repeat' (first
    | with_reducible assumption | intro _ | exact bits_sub (by decide) hm | with_reducible apply keep_gupIn h
    | with_reducible apply keep_ite | split | dsimp only | assumption | rfl)

theorem row_gdown (hm : 2200953337 ||| m = m) {s t : State} (hb : P s.b) {a0 a1 a2} (e : exec (.gdown a0 a1 a2) s =
    .next t) : P t.b := by
  simp only [exec, execGdown, effect, onBlock] at e
  repeat' (first | (injection e with e; subst e; dsimp only) | split at e)
  all_goals repeat' (first
    | with_reducible assumption | intro _ | exact bits_sub (by decide) hm | with_reducible apply keep_gdownIn h
    | with_reducible apply keep_ite | split | dsimp only | assumption | rfl)

theorem row_gopEnable (hm : 4093634559 ||| m = m) {s t : State} (hb : P s.b) {a0 a1 a2} (e : exec (.gopEnable a0 a1
    a2) s = .next t) : P t.b := by
  simp only [exec, execGopEnable, writeIf, effect, onBlock] at e
  repeat' (first | (injection e with e; subst e; dsimp only) | split at e)
  all_goals repeat' (first
    | with_reducible assumption | intro _ | exact bits_sub (by decide) hm | with_reducible apply keep_cfgWrite h
    | with_reducible apply keep_ite | split | dsimp only | assumption | rfl)

theorem row_gopArrive (hm : 2200953337 ||| m = m) {s t : State} (hb : P s.b) {a0} (e : exec (.gopArrive a0) s = .next
    t) : P t.b := by
  simp only [exec, execGopArrive, effect, onBlock] at e
  repeat' (first | (injection e with e; subst e; dsimp only) | split at e)
  all_goals repeat' (first
    | with_reducible assumption | intro _ | exact bits_sub (by decide) hm | with_reducible apply keep_gopArrive h
    | with_reducible apply keep_ite | split | dsimp only | assumption | rfl)

theorem row_broadcastReadDone (hm : 2200953337 ||| m = m) {s t : State} (hb : P s.b) {a0 a1 a2} (e : exec
    (.broadcastReadDone a0 a1 a2) s = .next t) : P t.b := by
  simp only [exec, execBroadcastReadDone, effect, onBlock] at e
  repeat' (first | (injection e with e; subst e; dsimp only) | split at e)
  all_goals repeat' (first
    | with_reducible assumption | intro _ | exact bits_sub (by decide) hm | with_reducible apply keep_gopRun h
    | with_reducible apply keep_castRead h | with_reducible apply keep_ite | split | dsimp only | assumption | rfl)

theorem row_gopResetSettled (hm : 2200953337 ||| m = m) {s t : State} (hb : P s.b) {a0} (e : exec (.gopResetSettled
    a0) s = .next t) : P t.b := by
  simp only [exec, execGopResetSettled, effect, onBlock] at e
  repeat' (first | (injection e with e; subst e; dsimp only) | split at e)
  all_goals repeat' (first
    | with_reducible assumption | intro _ | exact bits_sub (by decide) hm | with_reducible apply keep_gopRun h
    | with_reducible apply keep_modGop h | with_reducible apply keep_ite | split | dsimp only | assumption | rfl)

theorem row_gopTimeout (hm : 2293792 ||| m = m) {s t : State} (hb : P s.b) {a0} (e : exec (.gopTimeout a0) s = .next
    t) : P t.b := by
  simp only [exec, execGopTimeout, effect, onBlock] at e
  repeat' (first | (injection e with e; subst e; dsimp only) | split at e)
  all_goals repeat' (first
    | with_reducible assumption | intro _ | exact bits_sub (by decide) hm | with_reducible apply keep_gopFail h
    | with_reducible apply keep_ite | split | dsimp only | assumption | rfl)

theorem row_create (hm : 4093634559 ||| m = m) {s t : State} (hb : P s.b) {a0 a1} (e : exec (.create a0 a1) s = .next
    t) : P t.b := by
  simp only [exec, execCreate, effect, onBlock] at e
  repeat' (first | (injection e with e; subst e; dsimp only) | split at e)
  all_goals repeat' (first
    | with_reducible assumption | intro _ | exact bits_sub (by decide) hm | with_reducible apply keep_vtCmdAcc h
    | with_reducible apply keep_ite | split | dsimp only | assumption | rfl)

theorem row_close (hm : 4093634559 ||| m = m) {s t : State} (hb : P s.b) {a0 a1 a2} (e : exec (.close a0 a1 a2) s =
    .next t) : P t.b := by
  simp only [exec, execClose, effect, onBlock] at e
  repeat' (first | (injection e with e; subst e; dsimp only) | split at e)
  all_goals repeat' (first
    | with_reducible assumption | intro _ | exact bits_sub (by decide) hm | with_reducible apply keep_vtCmdAcc h
    | with_reducible apply keep_ite | split | dsimp only | assumption | rfl)

theorem row_closeComplete (hm : 1081345 ||| m = m) {s t : State} (hb : P s.b) (e : exec (.closeComplete ) s = .next t)
    : P t.b := by
  simp only [exec, execCloseComplete, effect, onBlock] at e
  repeat' (first | (injection e with e; subst e; dsimp only) | split at e)
  all_goals repeat' (first
    | with_reducible assumption | intro _ | exact bits_sub (by decide) hm | with_reducible apply keep_closeEnd h
    | with_reducible apply keep_ite | split | dsimp only | assumption | rfl)

theorem row_delete (hm : 4093634559 ||| m = m) {s t : State} (hb : P s.b) {a0 a1} (e : exec (.delete a0 a1) s = .next
    t) : P t.b := by
  simp only [exec, execDelete, effect, onBlock] at e
  repeat' (first | (injection e with e; subst e; dsimp only) | split at e)
  all_goals repeat' (first
    | with_reducible assumption | intro _ | exact bits_sub (by decide) hm | with_reducible apply keep_vtCmdAcc h
    | with_reducible apply keep_ite | split | dsimp only | assumption | rfl)

theorem row_deleteDrained (hm : 1081345 ||| m = m) {s t : State} (hb : P s.b) (e : exec (.deleteDrained ) s = .next t)
    : P t.b := by
  simp only [exec, execDeleteDrained, effect, onBlock] at e
  repeat' (first | (injection e with e; subst e; dsimp only) | split at e)
  all_goals repeat' (first
    | with_reducible assumption | intro _ | exact bits_sub (by decide) hm | with_reducible apply keep_deleteEnd h
    | with_reducible apply keep_ite | split | dsimp only | assumption | rfl)

theorem row_format (hm : 4093634559 ||| m = m) {s t : State} (hb : P s.b) {a0 a1 a2} (e : exec (.format a0 a1 a2) s =
    .next t) : P t.b := by
  simp only [exec, execFormat, effect, onBlock] at e
  repeat' (first | (injection e with e; subst e; dsimp only) | split at e)
  all_goals repeat' (first
    | with_reducible assumption | intro _ | exact bits_sub (by decide) hm | with_reducible apply keep_vtCmdAcc h
    | with_reducible apply keep_ite | split | dsimp only | assumption | rfl)

theorem row_mount (hm : 19956153 ||| m = m) {s t : State} (hb : P s.b) {a0 a1} (e : exec (.mount a0 a1) s = .next t) :
    P t.b := by
  simp only [exec, execMount, effect, onBlock] at e
  repeat' (first | (injection e with e; subst e; dsimp only) | split at e)
  all_goals repeat' (first
    | with_reducible assumption | intro _ | exact bits_sub (by decide) hm | with_reducible apply keep_vaultSettle h
    | with_reducible apply keep_mountEnd h | with_reducible apply keep_ite | split | dsimp only | assumption | rfl)

theorem row_codewordDecoded (hm : 19956153 ||| m = m) {s t : State} (hb : P s.b) {a0 a1 a2 a3 a4} (e : exec
    (.codewordDecoded a0 a1 a2 a3 a4) s = .next t) : P t.b := by
  simp only [exec, execCodewordDecoded, effect, onBlock] at e
  repeat' (first | (injection e with e; subst e; dsimp only) | split at e)
  all_goals repeat' (first
    | with_reducible assumption | intro _ | exact bits_sub (by decide) hm | with_reducible apply keep_firstDecode h
    | with_reducible apply keep_ite | split | dsimp only | assumption | rfl)

theorem row_rallyStep (hm : 19956153 ||| m = m) {s t : State} (hb : P s.b) {a0 a1 a2 a3 a4} (e : exec (.rallyStep a0
    a1 a2 a3 a4) s = .next t) : P t.b := by
  simp only [exec, execRallyStep, effect, onBlock] at e
  repeat' (first | (injection e with e; subst e; dsimp only) | split at e)
  all_goals repeat' (first
    | with_reducible assumption | intro _ | exact bits_sub (by decide) hm | with_reducible apply keep_rally h
    | with_reducible apply keep_ite | split | dsimp only | assumption | rfl)

theorem row_vaultReadTimeout (hm : 19956153 ||| m = m) {s t : State} (hb : P s.b) {a0 a1} (e : exec (.vaultReadTimeout
    a0 a1) s = .next t) : P t.b := by
  simp only [exec, execVaultReadTimeout, effect, onBlock] at e
  repeat' (first | (injection e with e; subst e; dsimp only) | split at e)
  all_goals repeat' (first
    | with_reducible assumption | intro _ | exact bits_sub (by decide) hm | with_reducible apply keep_vaultRdTmo h
    | with_reducible apply keep_ite | split | dsimp only | assumption | rfl)

theorem row_vaultWriteLine (hm : 19956153 ||| m = m) {s t : State} (hb : P s.b) {a0 a1} (e : exec (.vaultWriteLine a0
    a1) s = .next t) : P t.b := by
  simp only [exec, execVaultWriteLine, effect, onBlock] at e
  repeat' (first | (injection e with e; subst e; dsimp only) | split at e)
  all_goals repeat' (first
    | with_reducible assumption | intro _ | exact bits_sub (by decide) hm | with_reducible apply keep_vaultLine h
    | with_reducible apply keep_ite | split | dsimp only | assumption | rfl)

theorem row_pageProgrammed (hm : 20021753 ||| m = m) {s t : State} (hb : P s.b) {a0 a1} (e : exec (.pageProgrammed a0
    a1) s = .next t) : P t.b := by
  simp only [exec, execPageProgrammed, effect, onBlock] at e
  repeat' (first | (injection e with e; subst e; dsimp only) | split at e)
  all_goals repeat' (first
    | with_reducible assumption | intro _ | exact bits_sub (by decide) hm | with_reducible apply keep_pageProg h
    | with_reducible apply keep_ite | split | dsimp only | assumption | rfl)

theorem row_vaultPadTimeout (hm : 1048576 ||| m = m) {s t : State} (hb : P s.b) {a0} (e : exec (.vaultPadTimeout a0) s
    = .next t) : P t.b := by
  simp only [exec, execVaultPadTimeout, effect, onBlock] at e
  repeat' (first | (injection e with e; subst e; dsimp only) | split at e)
  all_goals repeat' (first
    | with_reducible assumption | intro _ | exact bits_sub (by decide) hm | with_reducible apply keep_modObj h
    | with_reducible apply keep_ite | split | dsimp only | assumption | rfl)

theorem row_programFail (hm : 20021753 ||| m = m) {s t : State} (hb : P s.b) {a0 a1 a2} (e : exec (.programFail a0 a1
    a2) s = .next t) : P t.b := by
  simp only [exec, execProgramFail, effect, onBlock] at e
  repeat' (first | (injection e with e; subst e; dsimp only) | split at e)
  all_goals repeat' (first
    | with_reducible assumption | intro _ | exact bits_sub (by decide) hm | with_reducible apply keep_progFail h
    | with_reducible apply keep_ite | split | dsimp only | assumption | rfl)

theorem row_eraseFail (hm : 11567105 ||| m = m) {s t : State} (hb : P s.b) {a0 a1} (e : exec (.eraseFail a0 a1) s =
    .next t) : P t.b := by
  simp only [exec, execEraseFail, effect, onBlock] at e
  repeat' (first | (injection e with e; subst e; dsimp only) | split at e)
  all_goals repeat' (first
    | with_reducible assumption | intro _ | exact bits_sub (by decide) hm | with_reducible apply keep_logErased h
    | with_reducible apply keep_fmtStep h | with_reducible apply keep_blkFails h | with_reducible apply keep_ite
    | split | dsimp only | assumption | rfl)

theorem row_scrubRead (hm : 19955713 ||| m = m) {s t : State} (hb : P s.b) {a0 a1 a2 a3 a4} (e : exec (.scrubRead a0
    a1 a2 a3 a4) s = .next t) : P t.b := by
  simp only [exec, execScrubRead, effect, onBlock] at e
  repeat' (first | (injection e with e; subst e; dsimp only) | split at e)
  all_goals repeat' (first
    | with_reducible assumption | intro _ | exact bits_sub (by decide) hm | with_reducible apply keep_scrub h
    | with_reducible apply keep_ite | split | dsimp only | assumption | rfl)

theorem row_refresh (hm : 17825793 ||| m = m) {s t : State} (hb : P s.b) {a0 a1} (e : exec (.refresh a0 a1) s = .next
    t) : P t.b := by
  simp only [exec, execRefresh, effect, onBlock] at e
  repeat' (first | (injection e with e; subst e; dsimp only) | split at e)
  all_goals repeat' (first
    | with_reducible assumption | intro _ | exact bits_sub (by decide) hm | with_reducible apply keep_refreshSeg h
    | with_reducible apply keep_ite | split | dsimp only | assumption | rfl)

theorem row_wearLevel (hm : 1048576 ||| m = m) {s t : State} (hb : P s.b) (e : exec (.wearLevel ) s = .next t) : P t.b
    := by
  simp only [exec, execWearLevel, effect, onBlock] at e
  repeat' (first | (injection e with e; subst e; dsimp only) | split at e)
  all_goals repeat' (first
    | with_reducible assumption | intro _ | exact bits_sub (by decide) hm | with_reducible apply keep_levelWear h
    | with_reducible apply keep_ite | split | dsimp only | assumption | rfl)

theorem row_logQueueCommand (hm : 11567105 ||| m = m) {s t : State} (hb : P s.b) {a0 a1 a2 a3 a4 a5 a6} (e : exec
    (.logQueueCommand a0 a1 a2 a3 a4 a5 a6) s = .next t) : P t.b := by
  simp only [exec, execLogQueueCommand, effect, onBlock] at e
  repeat' (first | (injection e with e; subst e; dsimp only) | split at e)
  all_goals repeat' (first
    | with_reducible assumption | intro _ | exact bits_sub (by decide) hm | with_reducible apply keep_logQueue h
    | with_reducible apply keep_ite | split | dsimp only | assumption | rfl)

theorem row_sourceEvent (hm : 4093634559 ||| m = m) {s t : State} (hb : P s.b) {a0 a1} (e : exec (.sourceEvent a0 a1)
    s = .next t) : P t.b := by
  simp only [exec, execSourceEvent, effect, onBlock] at e
  repeat' (first | (injection e with e; subst e; dsimp only) | split at e)
  all_goals repeat' (first
    | with_reducible assumption | intro _ | exact bits_sub (by decide) hm | with_reducible apply keep_deadPump h
    | with_reducible apply keep_sample h | with_reducible apply keep_extPin h | with_reducible apply keep_ite | split
    | dsimp only | assumption | rfl)

theorem row_recordQueue (hm : 18907137 ||| m = m) {s t : State} (hb : P s.b) (e : exec (.recordQueue ) s = .next t) :
    P t.b := by
  simp only [exec, execRecordQueue, effect, onBlock] at e
  repeat' (first | (injection e with e; subst e; dsimp only) | split at e)
  all_goals repeat' (first
    | with_reducible assumption | intro _ | exact bits_sub (by decide) hm | with_reducible apply keep_queueOne h
    | with_reducible apply keep_ite | split | dsimp only | assumption | rfl)

theorem row_escalationWindowEnd (hm : 2097152 ||| m = m) {s t : State} (hb : P s.b) {a0} (e : exec
    (.escalationWindowEnd a0) s = .next t) : P t.b := by
  simp only [exec, execEscalationWindowEnd, effect, onBlock] at e
  repeat' (first | (injection e with e; subst e; dsimp only) | split at e)
  all_goals repeat' (first
    | with_reducible assumption | intro _ | exact bits_sub (by decide) hm | with_reducible apply keep_modSrc h
    | with_reducible apply keep_ite | split | dsimp only | assumption | rfl)

theorem row_fenceComplete (hm : 2129921 ||| m = m) {s t : State} (hb : P s.b) {a0 a1} (e : exec (.fenceComplete a0 a1)
    s = .next t) : P t.b := by
  simp only [exec, execFenceComplete, effect, onBlock] at e
  repeat' (first | (injection e with e; subst e; dsimp only) | split at e)
  all_goals repeat' (first
    | with_reducible assumption | intro _ | exact bits_sub (by decide) hm | with_reducible apply keep_fenceDone h
    | with_reducible apply keep_ite | split | dsimp only | assumption | rfl)

theorem row_fenceTimeout (hm : 4093634559 ||| m = m) {s t : State} (hb : P s.b) {a0} (e : exec (.fenceTimeout a0) s =
    .next t) : P t.b := by
  simp only [exec, execFenceTimeout, effect, onBlock] at e
  repeat' (first | (injection e with e; subst e; dsimp only) | split at e)
  all_goals repeat' (first
    | with_reducible assumption | intro _ | exact bits_sub (by decide) hm | with_reducible apply keep_deadPump h
    | with_reducible apply keep_srcEvent h | with_reducible apply keep_ite | split | dsimp only | assumption | rfl)

theorem row_haltReport (hm : 2097168 ||| m = m) {s t : State} (hb : P s.b) {a0} (e : exec (.haltReport a0) s = .next
    t) : P t.b := by
  simp only [exec, execHaltReport, effect, onBlock] at e
  repeat' (first | (injection e with e; subst e; dsimp only) | split at e)
  all_goals repeat' (first
    | with_reducible assumption | intro _ | exact bits_sub (by decide) hm | with_reducible apply keep_haltReport h
    | with_reducible apply keep_ite | split | dsimp only | assumption | rfl)

theorem row_safeTimeout (hm : 2097152 ||| m = m) {s t : State} (hb : P s.b) (e : exec (.safeTimeout ) s = .next t) : P
    t.b := by
  simp only [exec, execSafeTimeout, effect, onBlock] at e
  repeat' (first | (injection e with e; subst e; dsimp only) | split at e)
  all_goals repeat' (first
    | with_reducible assumption | intro _ | exact bits_sub (by decide) hm | with_reducible apply keep_modRef h
    | with_reducible apply keep_ite | split | dsimp only | assumption | rfl)

theorem row_fcStatusClear (hm : 4093634559 ||| m = m) {s t : State} (hb : P s.b) {a0 a1} (e : exec (.fcStatusClear a0
    a1) s = .next t) : P t.b := by
  simp only [exec, execFcStatusClear, effect, onBlock] at e
  repeat' (first | (injection e with e; subst e; dsimp only) | split at e)
  all_goals repeat' (first
    | with_reducible assumption | intro _ | exact bits_sub (by decide) hm | with_reducible apply keep_cfgWrite h
    | with_reducible apply keep_ite | split | dsimp only | assumption | rfl)

theorem row_fcPop (hm : 4093634559 ||| m = m) {s t : State} (hb : P s.b) {a0 a1} (e : exec (.fcPop a0 a1) s = .next t)
    : P t.b := by
  simp only [exec, execFcPop, writeIf, effect, onBlock] at e
  repeat' (first | (injection e with e; subst e; dsimp only) | split at e)
  all_goals repeat' (first
    | with_reducible assumption | intro _ | exact bits_sub (by decide) hm | with_reducible apply keep_cfgWrite h
    | with_reducible apply keep_ite | split | dsimp only | assumption | rfl)

theorem row_fcRecLatch (hm : 4093634559 ||| m = m) {s t : State} (hb : P s.b) {a0} (e : exec (.fcRecLatch a0) s =
    .next t) : P t.b := by
  simp only [exec, execFcRecLatch, readIf, effect, onBlock] at e
  repeat' (first | (injection e with e; subst e; dsimp only) | split at e)
  all_goals repeat' (first
    | with_reducible assumption | intro _ | exact bits_sub (by decide) hm | with_reducible apply keep_cfgRead h
    | with_reducible apply keep_ite | split | dsimp only | assumption | rfl)

theorem row_driverDb (hm : 4093634559 ||| m = m) {s t : State} (hb : P s.b) {a0} (e : exec (.driverDb a0) s = .next t)
    : P t.b := by
  simp only [exec, execDriverDb, ctrlCmd, writeIf, effect, onBlock] at e
  repeat' (first | (injection e with e; subst e; dsimp only) | split at e)
  all_goals repeat' (first
    | with_reducible assumption | intro _ | exact bits_sub (by decide) hm | with_reducible apply keep_cfgWrite h
    | with_reducible apply keep_ite | split | dsimp only | assumption | rfl)

theorem row_softReset (hm : 4093634559 ||| m = m) {s t : State} (hb : P s.b) {a0 a1} (e : exec (.softReset a0 a1) s =
    .next t) : P t.b := by
  simp only [exec, execSoftReset, ctrlCmd, writeIf, effect, onBlock] at e
  repeat' (first | (injection e with e; subst e; dsimp only) | split at e)
  all_goals repeat' (first
    | with_reducible assumption | intro _ | exact bits_sub (by decide) hm | with_reducible apply keep_cfgWrite h
    | with_reducible apply keep_ite | split | dsimp only | assumption | rfl)

theorem row_softResetBegin (hm : 16 ||| m = m) {s t : State} (hb : P s.b) {a0} (e : exec (.softResetBegin a0) s =
    .next t) : P t.b := by
  simp only [exec, execSoftResetBegin, effect, onBlock] at e
  repeat' (first | (injection e with e; subst e; dsimp only) | split at e)
  all_goals repeat' (first
    | with_reducible assumption | intro _ | exact bits_sub (by decide) hm | with_reducible apply keep_resetBegin h
    | with_reducible apply keep_ite | split | dsimp only | assumption | rfl)

theorem row_softResetDone (hm : 4093634559 ||| m = m) {s t : State} (hb : P s.b) {a0} (e : exec (.softResetDone a0) s
    = .next t) : P t.b := by
  simp only [exec, execSoftResetDone, effect, onBlock] at e
  repeat' (first | (injection e with e; subst e; dsimp only) | split at e)
  all_goals repeat' (first
    | with_reducible assumption | intro _ | exact bits_sub (by decide) hm | with_reducible apply keep_resetDone h
    | with_reducible apply keep_ite | split | dsimp only | assumption | rfl)

theorem row_fenceSet (hm : 4093634559 ||| m = m) {s t : State} (hb : P s.b) {a0 a1} (e : exec (.fenceSet a0 a1) s =
    .next t) : P t.b := by
  simp only [exec, execFenceSet, ctrlCmd, writeIf, effect, onBlock] at e
  repeat' (first | (injection e with e; subst e; dsimp only) | split at e)
  all_goals repeat' (first
    | with_reducible assumption | intro _ | exact bits_sub (by decide) hm | with_reducible apply keep_cfgWrite h
    | with_reducible apply keep_ite | split | dsimp only | assumption | rfl)

theorem row_fenceClear (hm : 4093634559 ||| m = m) {s t : State} (hb : P s.b) {a0 a1} (e : exec (.fenceClear a0 a1) s
    = .next t) : P t.b := by
  simp only [exec, execFenceClear, ctrlCmd, writeIf, effect, onBlock] at e
  repeat' (first | (injection e with e; subst e; dsimp only) | split at e)
  all_goals repeat' (first
    | with_reducible assumption | intro _ | exact bits_sub (by decide) hm | with_reducible apply keep_cfgWrite h
    | with_reducible apply keep_ite | split | dsimp only | assumption | rfl)

theorem row_lock (hm : 4093634559 ||| m = m) {s t : State} (hb : P s.b) {a0 a1} (e : exec (.lock a0 a1) s = .next t) :
    P t.b := by
  simp only [exec, execLock, ctrlCmd, writeIf, effect, onBlock] at e
  repeat' (first | (injection e with e; subst e; dsimp only) | split at e)
  all_goals repeat' (first
    | with_reducible assumption | intro _ | exact bits_sub (by decide) hm | with_reducible apply keep_cfgWrite h
    | with_reducible apply keep_ite | split | dsimp only | assumption | rfl)

theorem row_pageErrClear (hm : 4093634559 ||| m = m) {s t : State} (hb : P s.b) {a0 a1 a2} (e : exec (.pageErrClear a0
    a1 a2) s = .next t) : P t.b := by
  simp only [exec, execPageErrClear, writeIf, effect, onBlock] at e
  repeat' (first | (injection e with e; subst e; dsimp only) | split at e)
  all_goals repeat' (first
    | with_reducible assumption | intro _ | exact bits_sub (by decide) hm | with_reducible apply keep_cfgWrite h
    | with_reducible apply keep_ite | split | dsimp only | assumption | rfl)

theorem row_registerWrite (hm : 4093634559 ||| m = m) {s t : State} (hb : P s.b) {a0 a1 a2} (e : exec (.registerWrite
    a0 a1 a2) s = .next t) : P t.b := by
  simp only [exec, execRegisterWrite, writeIf, effect, onBlock] at e
  repeat' (first | (injection e with e; subst e; dsimp only) | split at e)
  all_goals repeat' (first
    | with_reducible assumption | intro _ | exact bits_sub (by decide) hm | with_reducible apply keep_cfgWrite h
    | with_reducible apply keep_ite | split | dsimp only | assumption | rfl)

theorem row_wideReadLatch (hm : 4093634559 ||| m = m) {s t : State} (hb : P s.b) {a0 a1} (e : exec (.wideReadLatch a0
    a1) s = .next t) : P t.b := by
  simp only [exec, execWideReadLatch, readIf, effect, onBlock] at e
  repeat' (first | (injection e with e; subst e; dsimp only) | split at e)
  all_goals repeat' (first
    | with_reducible assumption | intro _ | exact bits_sub (by decide) hm | with_reducible apply keep_cfgRead h
    | with_reducible apply keep_ite | split | dsimp only | assumption | rfl)

theorem row_wideWriteShadow (hm : 4093634559 ||| m = m) {s t : State} (hb : P s.b) {a0 a1 a2} (e : exec
    (.wideWriteShadow a0 a1 a2) s = .next t) : P t.b := by
  simp only [exec, execWideWriteShadow, effect, onBlock] at e
  repeat' (first | (injection e with e; subst e; dsimp only) | split at e)
  all_goals repeat' (first
    | with_reducible assumption | intro _ | exact bits_sub (by decide) hm | with_reducible apply keep_cfgWrite h
    | with_reducible apply keep_ite | split | dsimp only | assumption | rfl)

theorem row_hazInfoLatch (hm : 4093634559 ||| m = m) {s t : State} (hb : P s.b) {a0 a1} (e : exec (.hazInfoLatch a0
    a1) s = .next t) : P t.b := by
  simp only [exec, execHazInfoLatch, readIf, effect, onBlock] at e
  repeat' (first | (injection e with e; subst e; dsimp only) | split at e)
  all_goals repeat' (first
    | with_reducible assumption | intro _ | exact bits_sub (by decide) hm | with_reducible apply keep_cfgRead h
    | with_reducible apply keep_ite | split | dsimp only | assumption | rfl)

theorem row_configAccessThaw (hm : 4093634559 ||| m = m) {s t : State} (hb : P s.b) {a0} (e : exec (.configAccessThaw
    a0) s = .next t) : P t.b := by
  simp only [exec, execConfigAccessThaw, effect, onBlock] at e
  repeat' (first | (injection e with e; subst e; dsimp only) | split at e)
  all_goals repeat' (first
    | with_reducible assumption | intro _ | exact bits_sub (by decide) hm | with_reducible apply keep_cfgAccess h
    | with_reducible apply keep_ite | split | dsimp only | assumption | rfl)

theorem row_registerCodeError (hm : 4093634559 ||| m = m) {s t : State} (hb : P s.b) {a0 a1} (e : exec
    (.registerCodeError a0 a1) s = .next t) : P t.b := by
  simp only [exec, execRegisterCodeError, effect, onBlock] at e
  repeat' (first | (injection e with e; subst e; dsimp only) | split at e)
  all_goals repeat' (first
    | with_reducible assumption | intro _ | exact bits_sub (by decide) hm
    | (extract_lets +onlyGivenNames x; refine keep_cut (p := P x) ?_ (fun kx => ?_); rotate_left; clear_value x; rotate_right; unfold x; clear x)
    | (extract_lets +onlyGivenNames x; unfold x; clear x)
    | (extract_lets +onlyGivenNames x; clear x)
    | with_reducible apply keep_codeCorrected h | with_reducible apply keep_deadPump h
    | with_reducible apply keep_codeError h | with_reducible apply keep_ite | split | dsimp only | assumption | rfl)

theorem row_stationWake (hm : 4093634559 ||| m = m) {s t : State} (hb : P s.b) {a0 a1} (e : exec (.stationWake a0 a1)
    s = .next t) : P t.b := by
  simp only [exec, execStationWake, writeIf, effect, onBlock] at e
  repeat' (first | (injection e with e; subst e; dsimp only) | split at e)
  all_goals repeat' (first
    | with_reducible assumption | intro _ | exact bits_sub (by decide) hm | with_reducible apply keep_cfgWrite h
    | with_reducible apply keep_ite | split | dsimp only | assumption | rfl)

theorem row_lullEntry (hm : 16 ||| m = m) {s t : State} (hb : P s.b) {a0} (e : exec (.lullEntry a0) s = .next t) : P
    t.b := by
  simp only [exec, execLullEntry, effect, onBlock] at e
  repeat' (first | (injection e with e; subst e; dsimp only) | split at e)
  all_goals repeat' (first
    | with_reducible assumption | intro _ | exact bits_sub (by decide) hm | with_reducible apply keep_lullEntry h
    | with_reducible apply keep_ite | split | dsimp only | assumption | rfl)

theorem row_offEntry (hm : 16 ||| m = m) {s t : State} (hb : P s.b) {a0} (e : exec (.offEntry a0) s = .next t) : P t.b
    := by
  simp only [exec, execOffEntry, effect, onBlock] at e
  repeat' (first | (injection e with e; subst e; dsimp only) | split at e)
  all_goals repeat' (first
    | with_reducible assumption | intro _ | exact bits_sub (by decide) hm | with_reducible apply keep_offEntry h
    | with_reducible apply keep_ite | split | dsimp only | assumption | rfl)

theorem row_transitionDone (hm : 4093634559 ||| m = m) {s t : State} (hb : P s.b) {a0} (e : exec (.transitionDone a0)
    s = .next t) : P t.b := by
  simp only [exec, execTransitionDone, effect, onBlock] at e
  repeat' (first | (injection e with e; subst e; dsimp only) | split at e)
  all_goals repeat' (first
    | with_reducible assumption | intro _ | exact bits_sub (by decide) hm | with_reducible apply keep_cfgPump h
    | with_reducible apply keep_transDone h | with_reducible apply keep_ite | split | dsimp only | assumption | rfl)

theorem row_thaw (hm : 24 ||| m = m) {s t : State} (hb : P s.b) {a0} (e : exec (.thaw a0) s = .next t) : P t.b := by
  simp only [exec, execThaw, effect, onBlock] at e
  repeat' (first | (injection e with e; subst e; dsimp only) | split at e)
  all_goals repeat' (first
    | with_reducible assumption | intro _ | exact bits_sub (by decide) hm | with_reducible apply keep_thaw h
    | with_reducible apply keep_ite | split | dsimp only | assumption | rfl)

theorem row_thawDone (hm : 4093634559 ||| m = m) {s t : State} (hb : P s.b) {a0} (e : exec (.thawDone a0) s = .next t)
    : P t.b := by
  simp only [exec, execThawDone, effect, onBlock] at e
  repeat' (first | (injection e with e; subst e; dsimp only) | split at e)
  all_goals repeat' (first
    | with_reducible assumption | intro _ | exact bits_sub (by decide) hm | with_reducible apply keep_cfgPump h
    | with_reducible apply keep_thawEnd h | with_reducible apply keep_ite | split | dsimp only | assumption | rfl)

theorem row_hubPowerDown (hm : 4194304 ||| m = m) {s t : State} (hb : P s.b) (e : exec (.hubPowerDown ) s = .next t) :
    P t.b := by
  simp only [exec, execHubPowerDown, effect, onBlock] at e
  repeat' (first | (injection e with e; subst e; dsimp only) | split at e)
  all_goals repeat' (first
    | with_reducible assumption | intro _ | exact bits_sub (by decide) hm | with_reducible apply keep_modPwr h
    | with_reducible apply keep_ite | split | dsimp only | assumption | rfl)

theorem row_hubPowerUp (hm : 4194304 ||| m = m) {s t : State} (hb : P s.b) (e : exec (.hubPowerUp ) s = .next t) : P
    t.b := by
  simp only [exec, execHubPowerUp, effect, onBlock] at e
  repeat' (first | (injection e with e; subst e; dsimp only) | split at e)
  all_goals repeat' (first
    | with_reducible assumption | intro _ | exact bits_sub (by decide) hm | with_reducible apply keep_modPwr h
    | with_reducible apply keep_ite | split | dsimp only | assumption | rfl)

theorem row_opPointChange (hm : 2160066560 ||| m = m) {s t : State} (hb : P s.b) {a0} (e : exec (.opPointChange a0) s
    = .next t) : P t.b := by
  simp only [exec, execOpPointChange, effect, onBlock] at e
  repeat' (first | (injection e with e; subst e; dsimp only) | split at e)
  all_goals repeat' (first
    | with_reducible assumption | intro _ | exact bits_sub (by decide) hm | with_reducible apply keep_opChange h
    | with_reducible apply keep_ite | split | dsimp only | assumption | rfl)

theorem row_railGood (hm : 2160066560 ||| m = m) {s t : State} (hb : P s.b) {a0} (e : exec (.railGood a0) s = .next t)
    : P t.b := by
  simp only [exec, execRailGood, effect, onBlock] at e
  repeat' (first | (injection e with e; subst e; dsimp only) | split at e)
  all_goals repeat' (first
    | with_reducible assumption | intro _ | exact bits_sub (by decide) hm | with_reducible apply keep_railGood h
    | with_reducible apply keep_ite | split | dsimp only | assumption | rfl)

theorem row_railTimeout (hm : 14712833 ||| m = m) {s t : State} (hb : P s.b) {a0} (e : exec (.railTimeout a0) s =
    .next t) : P t.b := by
  simp only [exec, execRailTimeout, effect, onBlock] at e
  repeat' (first | (injection e with e; subst e; dsimp only) | split at e)
  all_goals repeat' (first
    | with_reducible assumption | intro _ | exact bits_sub (by decide) hm | with_reducible apply keep_railTimeout h
    | with_reducible apply keep_ite | split | dsimp only | assumption | rfl)

theorem row_thermalSample (hm : 14712833 ||| m = m) {s t : State} (hb : P s.b) {a0 a1} (e : exec (.thermalSample a0
    a1) s = .next t) : P t.b := by
  simp only [exec, execThermalSample, effect, onBlock] at e
  repeat' (first | (injection e with e; subst e; dsimp only) | split at e)
  all_goals repeat' (first
    | with_reducible assumption | intro _ | exact bits_sub (by decide) hm | with_reducible apply keep_thermal h
    | with_reducible apply keep_ite | split | dsimp only | assumption | rfl)

theorem row_droopTrip (hm : 14712833 ||| m = m) {s t : State} (hb : P s.b) {a0} (e : exec (.droopTrip a0) s = .next t)
    : P t.b := by
  simp only [exec, execDroopTrip, effect, onBlock] at e
  repeat' (first | (injection e with e; subst e; dsimp only) | split at e)
  all_goals repeat' (first
    | with_reducible assumption | intro _ | exact bits_sub (by decide) hm | with_reducible apply keep_droop h
    | with_reducible apply keep_ite | split | dsimp only | assumption | rfl)

theorem row_clockMonitorTrip (hm : 2097152 ||| m = m) {s t : State} (hb : P s.b) {a0} (e : exec (.clockMonitorTrip a0)
    s = .next t) : P t.b := by
  simp only [exec, execClockMonitorTrip, effect, onBlock] at e
  repeat' (first | (injection e with e; subst e; dsimp only) | split at e)
  all_goals repeat' (first
    | with_reducible assumption | intro _ | exact bits_sub (by decide) hm | with_reducible apply keep_senseEv h
    | with_reducible apply keep_ite | split | dsimp only | assumption | rfl)

theorem row_aoRefclkLoss (hm : 4093634559 ||| m = m) {s t : State} (hb : P s.b) (e : exec (.aoRefclkLoss ) s = .next
    t) : P t.b := by
  simp only [exec, execAoRefclkLoss, effect, onBlock] at e
  repeat' (first | (injection e with e; subst e; dsimp only) | split at e)
  all_goals repeat' (first
    | with_reducible assumption | intro _ | exact bits_sub (by decide) hm | with_reducible apply keep_deadPump h
    | with_reducible apply keep_srcEvent h | with_reducible apply keep_modRef h | with_reducible apply keep_ite
    | split | dsimp only | assumption | rfl)

theorem row_capRaise (hm : 4194304 ||| m = m) {s t : State} (hb : P s.b) {a0} (e : exec (.capRaise a0) s = .next t) :
    P t.b := by
  simp only [exec, execCapRaise, effect, onBlock] at e
  repeat' (first | (injection e with e; subst e; dsimp only) | split at e)
  all_goals repeat' (first
    | with_reducible assumption | intro _ | exact bits_sub (by decide) hm | with_reducible apply keep_capRaise h
    | with_reducible apply keep_ite | split | dsimp only | assumption | rfl)

theorem row_ping (hm : 8421377 ||| m = m) {s t : State} (hb : P s.b) (e : exec (.ping ) s = .next t) : P t.b := by
  simp only [exec, execPing, effect, onBlock] at e
  repeat' (first | (injection e with e; subst e; dsimp only) | split at e)
  all_goals repeat' (first
    | with_reducible assumption | intro _ | exact bits_sub (by decide) hm | with_reducible apply keep_serve h
    | with_reducible apply keep_reply h | with_reducible apply keep_ite | split | dsimp only | assumption | rfl)

theorem row_getInfo (hm : 8421377 ||| m = m) {s t : State} (hb : P s.b) (e : exec (.getInfo ) s = .next t) : P t.b :=
    by
  simp only [exec, execGetInfo, effect, onBlock] at e
  repeat' (first | (injection e with e; subst e; dsimp only) | split at e)
  all_goals repeat' (first
    | with_reducible assumption | intro _ | exact bits_sub (by decide) hm | with_reducible apply keep_serve h
    | with_reducible apply keep_reply h | with_reducible apply keep_ite | split | dsimp only | assumption | rfl)

theorem row_powerRead (hm : 2155905025 ||| m = m) {s t : State} (hb : P s.b) (e : exec (.powerRead ) s = .next t) : P
    t.b := by
  simp only [exec, execPowerRead, effect, onBlock] at e
  repeat' (first | (injection e with e; subst e; dsimp only) | split at e)
  all_goals repeat' (first
    | with_reducible assumption | intro _ | exact bits_sub (by decide) hm | with_reducible apply keep_serve h
    | with_reducible apply keep_draw h | (with_reducible refine keep_draw_eq h ?_ ?_ (by assumption))
    | with_reducible apply keep_reply h | with_reducible apply keep_ite | split | dsimp only | assumption | rfl)

theorem row_logRead (hm : 10518529 ||| m = m) {s t : State} (hb : P s.b) {a0} (e : exec (.logRead a0) s = .next t) : P
    t.b := by
  simp only [exec, execLogRead, effect, onBlock] at e
  repeat' (first | (injection e with e; subst e; dsimp only) | split at e)
  all_goals repeat' (first
    | with_reducible assumption | intro _ | exact bits_sub (by decide) hm | with_reducible apply keep_serve h
    | with_reducible apply keep_logRead h | with_reducible apply keep_ite | split | dsimp only | assumption | rfl)

theorem row_logMark (hm : 8421377 ||| m = m) {s t : State} (hb : P s.b) (e : exec (.logMark ) s = .next t) : P t.b :=
    by
  simp only [exec, execLogMark, effect, onBlock] at e
  repeat' (first | (injection e with e; subst e; dsimp only) | split at e)
  all_goals repeat' (first
    | with_reducible assumption | intro _ | exact bits_sub (by decide) hm
    | (extract_lets +onlyGivenNames x; refine keep_cut (p := P x) ?_ (fun kx => ?_); rotate_left; clear_value x; rotate_right; unfold x; clear x)
    | (extract_lets +onlyGivenNames x; unfold x; clear x)
    | (extract_lets +onlyGivenNames x; clear x)
    | with_reducible apply keep_serve h | with_reducible apply keep_reply h | with_reducible apply keep_logAppend h
    | with_reducible apply keep_ite | split | dsimp only | assumption | rfl)

theorem row_setBudget (hm : 8421377 ||| m = m) {s t : State} (hb : P s.b) (e : exec (.setBudget ) s = .next t) : P t.b
    := by
  simp only [exec, execSetBudget, effect, onBlock] at e
  repeat' (first | (injection e with e; subst e; dsimp only) | split at e)
  all_goals repeat' (first
    | with_reducible assumption | intro _ | exact bits_sub (by decide) hm | with_reducible apply keep_serve h
    | with_reducible apply keep_reply h | with_reducible apply keep_modMgmt h | with_reducible apply keep_ite | split
    | dsimp only | assumption | rfl)

theorem row_updateBegin (hm : 8421377 ||| m = m) {s t : State} (hb : P s.b) (e : exec (.updateBegin ) s = .next t) : P
    t.b := by
  simp only [exec, execUpdateBegin, effect, onBlock] at e
  repeat' (first | (injection e with e; subst e; dsimp only) | split at e)
  all_goals repeat' (first
    | with_reducible assumption | intro _ | exact bits_sub (by decide) hm | with_reducible apply keep_serve h
    | with_reducible apply keep_reply h | with_reducible apply keep_modMgmt h | with_reducible apply keep_ite | split
    | dsimp only | assumption | rfl)

theorem row_updateData (hm : 8421377 ||| m = m) {s t : State} (hb : P s.b) (e : exec (.updateData ) s = .next t) : P
    t.b := by
  simp only [exec, execUpdateData, effect, onBlock] at e
  repeat' (first | (injection e with e; subst e; dsimp only) | split at e)
  all_goals repeat' (first
    | with_reducible assumption | intro _ | exact bits_sub (by decide) hm
    | (extract_lets +onlyGivenNames x; refine keep_cut (p := P x) ?_ (fun kx => ?_); rotate_left; clear_value x; rotate_right; unfold x; clear x)
    | (extract_lets +onlyGivenNames x; unfold x; clear x)
    | (extract_lets +onlyGivenNames x; clear x)
    | with_reducible apply keep_serve h | with_reducible apply keep_reply h | with_reducible apply keep_modMgmt h
    | with_reducible apply keep_ite | split | dsimp only | assumption | rfl)

theorem row_updateCommit (hm : 12615681 ||| m = m) {s t : State} (hb : P s.b) (e : exec (.updateCommit ) s = .next t)
    : P t.b := by
  simp only [exec, execUpdateCommit, effect, onBlock] at e
  repeat' (first | (injection e with e; subst e; dsimp only) | split at e)
  all_goals repeat' (first
    | with_reducible assumption | intro _ | exact bits_sub (by decide) hm | with_reducible apply keep_serve h
    | with_reducible apply keep_updateCommit h | with_reducible apply keep_ite | split | dsimp only | assumption | rfl)

theorem row_resetMgmt (hm : 12615681 ||| m = m) {s t : State} (hb : P s.b) (e : exec (.resetMgmt ) s = .next t) : P
    t.b := by
  simp only [exec, execResetMgmt, effect, onBlock] at e
  repeat' (first | (injection e with e; subst e; dsimp only) | split at e)
  all_goals repeat' (first
    | with_reducible assumption | intro _ | exact bits_sub (by decide) hm
    | (extract_lets +onlyGivenNames x; refine keep_cut (p := P x) ?_ (fun kx => ?_); rotate_left; clear_value x; rotate_right; unfold x; clear x)
    | (extract_lets +onlyGivenNames x; unfold x; clear x)
    | (extract_lets +onlyGivenNames x; clear x)
    | with_reducible apply keep_serve h | with_reducible apply keep_modMgmt h | with_reducible apply keep_mgmtReset h
    | with_reducible apply keep_reply h | with_reducible apply keep_ite | split | dsimp only | assumption | rfl)

theorem row_logFlush (hm : 9469953 ||| m = m) {s t : State} (hb : P s.b) (e : exec (.logFlush ) s = .next t) : P t.b
    := by
  simp only [exec, execLogFlush, effect, onBlock] at e
  repeat' (first | (injection e with e; subst e; dsimp only) | split at e)
  all_goals repeat' (first
    | with_reducible assumption | intro _ | exact bits_sub (by decide) hm | with_reducible apply keep_serve h
    | with_reducible apply keep_reply h | with_reducible apply keep_logCopyAll h | with_reducible apply keep_ite
    | split | dsimp only | assumption | rfl)

theorem row_getStats (hm : 8421377 ||| m = m) {s t : State} (hb : P s.b) (e : exec (.getStats ) s = .next t) : P t.b
    := by
  simp only [exec, execGetStats, effect, onBlock] at e
  repeat' (first | (injection e with e; subst e; dsimp only) | split at e)
  all_goals repeat' (first
    | with_reducible assumption | intro _ | exact bits_sub (by decide) hm | with_reducible apply keep_serve h
    | with_reducible apply keep_reply h | with_reducible apply keep_ite | split | dsimp only | assumption | rfl)

theorem row_timeSync (hm : 8421377 ||| m = m) {s t : State} (hb : P s.b) (e : exec (.timeSync ) s = .next t) : P t.b
    := by
  simp only [exec, execTimeSync, effect, onBlock] at e
  repeat' (first | (injection e with e; subst e; dsimp only) | split at e)
  all_goals repeat' (first
    | with_reducible assumption | intro _ | exact bits_sub (by decide) hm
    | (extract_lets +onlyGivenNames x; refine keep_cut (p := P x) ?_ (fun kx => ?_); rotate_left; clear_value x; rotate_right; unfold x; clear x)
    | (extract_lets +onlyGivenNames x; unfold x; clear x)
    | (extract_lets +onlyGivenNames x; clear x)
    | with_reducible apply keep_serve h | with_reducible apply keep_reply h | with_reducible apply keep_logAppend h
    | with_reducible apply keep_ite | split | dsimp only | assumption | rfl)

theorem row_ready (hm : 8421377 ||| m = m) {s t : State} (hb : P s.b) {a0} (e : exec (.ready a0) s = .next t) : P t.b
    := by
  simp only [exec, execReady, effect, onBlock] at e
  repeat' (first | (injection e with e; subst e; dsimp only) | split at e)
  all_goals repeat' (first
    | with_reducible assumption | intro _ | exact bits_sub (by decide) hm | with_reducible apply keep_sendDue h
    | with_reducible apply keep_ite | split | dsimp only | assumption | rfl)

theorem row_alert (hm : 8421377 ||| m = m) {s t : State} (hb : P s.b) {a0} (e : exec (.alert a0) s = .next t) : P t.b
    := by
  simp only [exec, execAlert, effect, onBlock] at e
  repeat' (first | (injection e with e; subst e; dsimp only) | split at e)
  all_goals repeat' (first
    | with_reducible assumption | intro _ | exact bits_sub (by decide) hm | with_reducible apply keep_alertOf h
    | with_reducible apply keep_ite | split | dsimp only | assumption | rfl)

theorem row_recovery (hm : 8421377 ||| m = m) {s t : State} (hb : P s.b) {a0} (e : exec (.recovery a0) s = .next t) :
    P t.b := by
  simp only [exec, execRecovery, effect, onBlock] at e
  repeat' (first | (injection e with e; subst e; dsimp only) | split at e)
  all_goals repeat' (first
    | with_reducible assumption | intro _ | exact bits_sub (by decide) hm | with_reducible apply keep_sendDue h
    | with_reducible apply keep_ite | split | dsimp only | assumption | rfl)

theorem row_mailboxTake (hm : 8421377 ||| m = m) {s t : State} (hb : P s.b) (e : exec (.mailboxTake ) s = .next t) : P
    t.b := by
  simp only [exec, execMailboxTake, effect, onBlock] at e
  repeat' (first | (injection e with e; subst e; dsimp only) | split at e)
  all_goals repeat' (first
    | with_reducible assumption | intro _ | exact bits_sub (by decide) hm | with_reducible apply keep_mailboxTake h
    | with_reducible apply keep_ite | split | dsimp only | assumption | rfl)

theorem row_m2hAck (hm : 4093634559 ||| m = m) {s t : State} (hb : P s.b) {a0} (e : exec (.m2hAck a0) s = .next t) : P
    t.b := by
  simp only [exec, execM2hAck, writeIf, effect, onBlock] at e
  repeat' (first | (injection e with e; subst e; dsimp only) | split at e)
  all_goals repeat' (first
    | with_reducible assumption | intro _ | exact bits_sub (by decide) hm | with_reducible apply keep_cfgWrite h
    | with_reducible apply keep_ite | split | dsimp only | assumption | rfl)

theorem row_watchdogExpiry (hm : 14680065 ||| m = m) {s t : State} (hb : P s.b) (e : exec (.watchdogExpiry ) s = .next
    t) : P t.b := by
  simp only [exec, execWatchdogExpiry, effect, onBlock] at e
  repeat' (first | (injection e with e; subst e; dsimp only) | split at e)
  all_goals repeat' (first
    | with_reducible assumption | intro _ | exact bits_sub (by decide) hm | with_reducible apply keep_mgmtReset h
    | with_reducible apply keep_signalEv h | with_reducible apply keep_rcount h | with_reducible apply keep_ite
    | split | dsimp only | assumption | rfl)

theorem row_mgmtRestart (hm : 9437184 ||| m = m) {s t : State} (hb : P s.b) (e : exec (.mgmtRestart ) s = .next t) : P
    t.b := by
  simp only [exec, execMgmtRestart, effect, onBlock] at e
  repeat' (first | (injection e with e; subst e; dsimp only) | split at e)
  all_goals repeat' (first
    | with_reducible assumption | intro _ | exact bits_sub (by decide) hm | with_reducible apply keep_mgmtLoad h
    | with_reducible apply keep_ite | split | dsimp only | assumption | rfl)

theorem row_mgmtMemoryError (hm : 14680064 ||| m = m) {s t : State} (hb : P s.b) {a0} (e : exec (.mgmtMemoryError a0)
    s = .next t) : P t.b := by
  simp only [exec, execMgmtMemoryError, effect, onBlock] at e
  repeat' (first | (injection e with e; subst e; dsimp only) | split at e)
  all_goals repeat' (first
    | with_reducible assumption | intro _ | exact bits_sub (by decide) hm | with_reducible apply keep_mgmtReset h
    | with_reducible apply keep_signalEv h | with_reducible apply keep_modMgmt h | with_reducible apply keep_ite
    | split | dsimp only | assumption | rfl)

theorem row_logAppend (hm : 8388608 ||| m = m) {s t : State} (hb : P s.b) {a0 a1} (e : exec (.logAppend a0 a1) s =
    .next t) : P t.b := by
  simp only [exec, execLogAppend, effect, onBlock] at e
  repeat' (first | (injection e with e; subst e; dsimp only) | split at e)
  all_goals repeat' (first
    | with_reducible assumption | intro _ | exact bits_sub (by decide) hm | with_reducible apply keep_logAppend h
    | with_reducible apply keep_ite | split | dsimp only | assumption | rfl)

theorem row_logCopy (hm : 9437184 ||| m = m) {s t : State} (hb : P s.b) (e : exec (.logCopy ) s = .next t) : P t.b :=
    by
  simp only [exec, execLogCopy, effect, onBlock] at e
  repeat' (first | (injection e with e; subst e; dsimp only) | split at e)
  all_goals repeat' (first
    | with_reducible assumption | intro _ | exact bits_sub (by decide) hm | with_reducible apply keep_logCopyAll h
    | with_reducible apply keep_ite | split | dsimp only | assumption | rfl)

theorem row_budgetEvaluate (hm : 2151677952 ||| m = m) {s t : State} (hb : P s.b) (e : exec (.budgetEvaluate ) s =
    .next t) : P t.b := by
  simp only [exec, execBudgetEvaluate, effect, onBlock] at e
  repeat' (first | (injection e with e; subst e; dsimp only) | split at e)
  all_goals repeat' (first
    | with_reducible assumption | intro _ | exact bits_sub (by decide) hm
    | (with_reducible refine keep_forEach _ _ ?_ ?_) | with_reducible apply keep_draw h
    | (with_reducible refine keep_draw_eq h ?_ ?_ (by assumption)) | with_reducible apply keep_setCapM h
    | with_reducible apply keep_ite | split | dsimp only | assumption | rfl)

theorem row_counterFreeze (hm : 4093634559 ||| m = m) {s t : State} (hb : P s.b) {a0} (e : exec (.counterFreeze a0) s
    = .next t) : P t.b := by
  simp only [exec, execCounterFreeze, writeIf, effect, onBlock] at e
  repeat' (first | (injection e with e; subst e; dsimp only) | split at e)
  all_goals repeat' (first
    | with_reducible assumption | intro _ | exact bits_sub (by decide) hm | with_reducible apply keep_cfgWrite h
    | with_reducible apply keep_ite | split | dsimp only | assumption | rfl)

theorem row_counterRelease (hm : 4093634559 ||| m = m) {s t : State} (hb : P s.b) {a0} (e : exec (.counterRelease a0)
    s = .next t) : P t.b := by
  simp only [exec, execCounterRelease, writeIf, effect, onBlock] at e
  repeat' (first | (injection e with e; subst e; dsimp only) | split at e)
  all_goals repeat' (first
    | with_reducible assumption | intro _ | exact bits_sub (by decide) hm | with_reducible apply keep_cfgWrite h
    | with_reducible apply keep_ite | split | dsimp only | assumption | rfl)

theorem row_windowBoundary (hm : 16777216 ||| m = m) {s t : State} (hb : P s.b) {a0 a1} (e : exec (.windowBoundary a0
    a1) s = .next t) : P t.b := by
  simp only [exec, execWindowBoundary, effect, onBlock] at e
  repeat' (first | (injection e with e; subst e; dsimp only) | split at e)
  all_goals repeat' (first
    | with_reducible assumption | intro _ | exact bits_sub (by decide) hm | with_reducible apply keep_windowEnd h
    | with_reducible apply keep_ite | split | dsimp only | assumption | rfl)

theorem row_aoReady (hm : 4093634559 ||| m = m) {s t : State} (hb : P s.b) (e : exec (.aoReady ) s = .next t) : P t.b
    := by
  simp only [exec] at e
  unfold execAoReady at e
  split at e
  · injection e with e
    subst e
    show P (aoReady s.par s.b)
    unfold aoReady
    repeat' (first
      | with_reducible assumption | intro _ | exact bits_sub (by decide) hm | with_reducible apply keep_cfgPump h
      | with_reducible apply keep_modPwr h | rfl)
  · injection e with e
    subst e
    exact hb

theorem row_hubReady (hm : 4093634559 ||| m = m) {s t : State} (hb : P s.b) (e : exec (.hubReady ) s = .next t) : P
    t.b := by
  simp only [exec, execHubReady, effect, onBlock] at e
  repeat' (first | (injection e with e; subst e; dsimp only) | split at e)
  all_goals repeat' (first
    | with_reducible assumption | intro _ | exact bits_sub (by decide) hm
    | (extract_lets +onlyGivenNames x; refine keep_cut (p := P x) ?_ (fun kx => ?_); rotate_left; clear_value x; rotate_right; unfold x; clear x)
    | (extract_lets +onlyGivenNames x; unfold x; clear x)
    | (extract_lets +onlyGivenNames x; clear x)
    | with_reducible apply keep_modPwr h | with_reducible apply keep_modMgmt h | with_reducible apply keep_cfgPump h
    | with_reducible apply keep_ite | split | dsimp only | assumption | rfl)

theorem row_vgoodFall (hm : 14712833 ||| m = m) {s t : State} (hb : P s.b) {a0} (e : exec (.vgoodFall a0) s = .next t)
    : P t.b := by
  simp only [exec, execVgoodFall, effect, onBlock] at e
  repeat' (first | (injection e with e; subst e; dsimp only) | split at e)
  all_goals repeat' (first
    | with_reducible assumption | intro _ | exact bits_sub (by decide) hm
    | (with_reducible refine keep_forEach _ _ ?_ ?_) | with_reducible apply keep_droop h
    | with_reducible apply keep_ite | split | dsimp only | assumption | rfl)

theorem row_vaultChannelFailed (hm : 3178497 ||| m = m) {s t : State} (hb : P s.b) {a0} (e : exec (.vaultChannelFailed
    a0) s = .next t) : P t.b := by
  simp only [exec, execVaultChannelFailed, effect, onBlock] at e
  repeat' (first | (injection e with e; subst e; dsimp only) | split at e)
  all_goals repeat' (first
    | with_reducible assumption | intro _ | exact bits_sub (by decide) hm | with_reducible apply keep_vaultEv h
    | with_reducible apply keep_modVCh h | with_reducible apply keep_ite | split | dsimp only | assumption | rfl)

theorem row_blockErased (hm : 28344321 ||| m = m) {s t : State} (hb : P s.b) {a0 a1} (e : exec (.blockErased a0 a1) s
    = .next t) : P t.b := by
  simp only [exec, execBlockErased, effect, onBlock] at e
  repeat' (first | (injection e with e; subst e; dsimp only) | split at e)
  all_goals repeat' (first
    | with_reducible assumption | intro _ | exact bits_sub (by decide) hm | with_reducible apply keep_blkErased h
    | with_reducible apply keep_ite | split | dsimp only | assumption | rfl)

theorem row_hubPowerUpDone (hm : 4093634559 ||| m = m) {s t : State} (hb : P s.b) (e : exec (.hubPowerUpDone ) s =
    .next t) : P t.b := by
  simp only [exec, execHubPowerUpDone, effect, onBlock] at e
  repeat' (first | (injection e with e; subst e; dsimp only) | split at e)
  all_goals repeat' (first
    | with_reducible assumption | intro _ | exact bits_sub (by decide) hm | with_reducible apply keep_cfgPump h
    | with_reducible apply keep_modPwr h | with_reducible apply keep_ite | split | dsimp only | assumption | rfl)

theorem row_mgmtAccessFault (hm : 12582912 ||| m = m) {s t : State} (hb : P s.b) (e : exec (.mgmtAccessFault ) s =
    .next t) : P t.b := by
  simp only [exec, execMgmtAccessFault, effect, onBlock] at e
  repeat' (first | (injection e with e; subst e; dsimp only) | split at e)
  all_goals repeat' (first
    | with_reducible assumption | intro _ | exact bits_sub (by decide) hm | with_reducible apply keep_mgmtReset h
    | with_reducible apply keep_ite | split | dsimp only | assumption | rfl)

theorem row_watchdogRestart (hm : 8388608 ||| m = m) {s t : State} (hb : P s.b) (e : exec (.watchdogRestart ) s =
    .next t) : P t.b := by
  simp only [exec, execWatchdogRestart, effect, onBlock] at e
  repeat' (first | (injection e with e; subst e; dsimp only) | split at e)
  all_goals repeat' (first
    | with_reducible assumption | intro _ | exact bits_sub (by decide) hm | with_reducible apply keep_modMgmt h
    | with_reducible apply keep_ite | split | dsimp only | assumption | rfl)

theorem row_wrapperInstructionLoad (hm : 0 ||| m = m) {s t : State} (hb : P s.b) {a0} (e : exec
    (.wrapperInstructionLoad a0) s = .next t) : P t.b := by
  simp only [exec, execWrapperInstructionLoad, effect, onBlock] at e
  repeat' (first | (injection e with e; subst e; dsimp only) | split at e)
  all_goals repeat' (first
    | with_reducible assumption | intro _ | exact bits_sub (by decide) hm
    | (extract_lets +onlyGivenNames x; refine keep_cut (p := P x) ?_ (fun kx => ?_); rotate_left; clear_value x; rotate_right; unfold x; clear x)
    | (extract_lets +onlyGivenNames x; unfold x; clear x)
    | (extract_lets +onlyGivenNames x; clear x)
    | with_reducible apply keep_ite | split | dsimp only | assumption | rfl)

end
end Sys2Proof.Machine
end

