-- ==== Sys2Proof/Tests/Slice0.lean ====
section
/-! SUPPORT. Tests: ill-formed commands that the check refuses, worked examples of the spec, and for every statement a small
state and operands that meet its hypotheses. -/
set_option Elab.async false

namespace Sys2Proof.Tests
open Machine

/-! ## Small states -/

/-- A running hub with station 0 active. -/
def blk : Block := { Block.reset with
  pwr := { Pwr.reset with boot := .hubReady, hubOn := true }
  stations := [(0, { Station.reset with power := .active })] }

/-- The state with a block, after a reset of the rest. -/
def stt (b : Block) : State := { State.reset with b := b }

def entry0 : Entry :=
  { idx := 5, va := 0x1000, len := 64, cmode := false, irq := false, tsig := false, scope := 0, tally := 0, tadd := 0,
    arg := 0x40, xl := [⟨0, 2 ^ 40, 0, false⟩] }

/-- A strand that runs entry0 at the first unit of its range, with one unit in its buffer. -/
def strand0 (w0 w1 : Nat) : Strand := { Strand.reset with
  st := .run, entry := some entry0, pc := 0x1000, arg := 0x40, lines := [(0x1000, BitVec.ofNat 1024 (w0 + w1 * 2 ^ 64))] }

def prog (w0 w1 : Nat) : Block := { blk with strands := [(0, strand0 w0 w1)] }

/-- The same with open loops, which end at the unit itself, and a value in X0. -/
def progL (w0 w1 : Nat) (loops : List Loop) (x0 : Option DWord) : Block :=
  { blk with strands := [(0, { strand0 w0 w1 with loops := loops, x := x0 :: List.replicate 7 none })] }

def loop0 : Loop := { i := 0, count := 3, body := 0x1010, endl := 0x1000 }

/-- The sequencer takes the next unit of station 0, an instruction with the opcode given, and more holds of it. -/
def ready (b : Block) (op : Nat) (more : MUnit → Bool) : Bool :=
  match nextUnit b 0 with
  | some (c, u) => takes b 0 op c u && more u
  | none => false

/-! ## Mover programs -/

theorem test_nop_ready : ready (prog 0x01 0) 0x01 (fun _ => true) = true := by decide +kernel
theorem test_halt_ready : ready (prog 0x02 0) 0x02 (fun _ => true) = true := by decide +kernel
/-- A JUMP by the largest pop that is taken, and one that tests X0 = 0 against 7 and is not. -/
theorem test_jump_ready :
    ready (progL (0x03 + 8 * 2 ^ 16 + 2 ^ 32) 0 (List.replicate 8 loop0) none) 0x03 (fun u =>
      decide (sgn 32 (bits u.w0 63 32) ≠ 0) && decide (bits u.w0 19 16 = 8) && decide (8 ≤ u.s.loops.length) &&
      decide (bits u.w0 9 8 = 0) && decide ((u.e.va : Int) ≤ u.s.pc + 16 * 1) && decide (u.s.pc + 16 < u.e.va + 16 * u.e.len)) = true ∧
    ready (progL (0x03 + 1 * 2 ^ 8 + 2 ^ 32) 0 [] (some 7)) 0x03 (fun u =>
      decide (bits u.w0 9 8 = 1) && decide (u.s.x.getD (bits u.w0 12 10) none = some 7) &&
      decide (sgn 32 (bits u.w0 63 32) ≠ 0)) = true := by decide +kernel
/-- Loops of 0, of the argument's and of an extent register's iterations. -/
theorem test_loop_ready :
    ready (prog (0x04 + 2 ^ 24) 0) 0x04 (fun u => decide (bits u.w0 9 8 = 0 ∧ u.w1 = 0 ∧ bits u.w0 47 24 ≠ 0 ∧
      u.s.loops.length < 8 ∧ u.e.va ≤ u.s.pc + 16 ∧ u.s.pc + 16 < u.e.va + 16 * u.e.len)) = true ∧
    ready (prog (0x04 + 2 ^ 8 + 63 * 2 ^ 24) 0) 0x04 (fun u => decide (bits u.w0 9 8 = 1 ∧ u.s.arg.toNat = 64 ∧
      bits u.w0 47 24 = 63 ∧ u.s.pc + 16 * 63 < u.e.va + 16 * u.e.len)) = true ∧
    ready (progL (0x04 + 2 * 2 ^ 8 + 2 ^ 24) 0 [] (some 9)) 0x04 (fun u => decide (bits u.w0 9 8 = 2 ∧
      u.s.x.getD (bits u.w0 12 10) none = some (BitVec.ofNat 64 9))) = true := by decide +kernel
theorem test_endl_ready :
    ready (progL 0x05 0 [loop0] none) 0x05 (fun u => decide (u.w0 / 256 = 0 ∧ u.w1 = 0 ∧ u.s.loops.getLast? = some loop0 ∧
      loop0.endl = u.s.pc ∧ loop0.i + 1 < loop0.count ∧ u.e.va ≤ loop0.body ∧ loop0.body < u.e.va + 16 * u.e.len)) = true ∧
    ready (progL 0x05 0 [{ loop0 with i := 2 }] none) 0x05 (fun u => decide (u.s.loops.getLast? = some { loop0 with i := 2 } ∧
      loop0.endl = u.s.pc ∧ loop0.count ≤ 3)) = true ∧
    (nextUnit (progL (0x05 + 2 ^ 8) 0 [loop0] none) 0).isSome = true ∧
    ready (progL 0x05 0 [] none) 0x05 (fun u => decide (u.s.loops = [])) = true ∧
    ready (progL 0x05 0 [{ loop0 with endl := 0x1010 }] none) 0x05 (fun u => decide (u.s.pc = 0x1000)) = true := by
  decide +kernel
/-- A LOOP of 2^64 − 1 iterations (R89). -/
theorem test_loop_longest : (nextUnit (prog (0x04 + 2 ^ 24) (2 ^ 64 - 1)) 0).any (fun x => decide (opcode x.2.w0 = 4 ∧
    unitIllegal x.2.w0 x.2.w1 = false ∧ bits x.2.w0 9 8 = 0 ∧ x.2.w1 = 2 ^ 64 - 1 ∧ bits x.2.w0 21 16 = 0 ∧ x.2.e.va ≤ x.2.s.pc ∧
    x.2.s.pc + 16 < x.2.e.va + 16 * x.2.e.len)) = true := by decide +kernel

theorem test_move_ready : ready (prog (0x10 + 8 * 2 ^ 16) 0) 0x10 (fun u =>
    let a := u.e.va + 16 * bits u.w0 39 16
    decide (a % 128 = 0 ∧ a + 128 ≤ u.e.va + 16 * u.e.len)) = true := by decide +kernel
/-- MOVEB, not in list mode, and in list mode with a list of the argument in an open loop. -/
theorem test_moveb_ready :
    ready (prog (0x11 + 8 * 2 ^ 16) 0) 0x11 (fun u => decide (bits u.w0 9 8 = 0 ∧ bit u.w0 14 = false)) = true ∧
    ready (progL (0x11 + 2 * 2 ^ 8 + 8 * 2 ^ 16) 0 [loop0] none) 0x11 (fun u => decide (bits u.w0 12 10 < u.s.loops.length ∧
      bits u.w0 9 8 = 2 ∧ u.s.arg.toNat % 4 = 0 ∧ u.s.loops[bits u.w0 12 10]? = some loop0)) = true := by decide +kernel
/-- A FILL and a COPY up to the tile's last byte. -/
theorem test_fill_ready : ready (prog (0x12 + 4096 * 2 ^ 16) 0) 0x12 (fun u =>
    decide (bits u.w1 31 0 % 256 = 0 ∧ bits u.w1 31 0 + 256 * bits u.w0 39 16 ≤ Params.reset.tileSize.getD 0 0)) = true := by
  decide +kernel
theorem test_copy_ready : ready (prog (0x13 + 2 ^ 16) (256 * 2 ^ 32)) 0x13 (fun u =>
    decide (bits u.w1 31 0 % 256 = 0 ∧ bits u.w1 63 32 % 256 = 0 ∧ bits u.w0 39 16 ≠ 0 ∧
      bits u.w1 31 0 + 256 ≤ Params.reset.tileSize.getD 0 0 ∧ bits u.w1 63 32 + 256 ≤ Params.reset.tileSize.getD 0 0)) = true := by
  decide +kernel
/-- SETX from VAL, from the argument, CLEAR, and from memory. -/
theorem test_setx_ready :
    ready (prog 0x14 100) 0x14 (fun u => decide (bits u.w0 12 11 = 0)) = true ∧
    ready (prog (0x14 + 2 ^ 11) 0) 0x14 (fun u => decide (bits u.w0 12 11 = 1)) = true ∧
    ready (prog (0x14 + 2 * 2 ^ 11) 0) 0x14 (fun u => decide (bits u.w0 12 11 = 2 ∧ bits u.w0 21 16 = 0)) = true ∧
    ready (prog (0x14 + 3 * 2 ^ 11) 8) 0x14 (fun u => decide (bits u.w0 12 11 = 3 ∧ (u.s.arg.toNat + u.w1) % 8 = 0)) = true := by
  decide +kernel
theorem test_tload_ready : ready (prog (0x30 + 2 ^ 16) 0x40) 0x30 (fun u => decide (bits u.w1 56 0 % 64 = 0) &&
    !(codecSlot (getStn (prog (0x30 + 2 ^ 16) 0x40) 0) (bits u.w0 9 8)).valid) = true := by decide +kernel
theorem test_stat_ready : ready (prog 0x31 0) 0x31 (fun u => decide (bits u.w1 56 0 = 0)) = true ∧
    ready (prog (0x31 + 2 ^ 10) 0x40) 0x31 (fun u => decide (bit u.w0 10 = true ∧ bits u.w1 56 0 % 64 = 0)) = true := by
  decide +kernel
/-- A WAIT on the last local tally of station 0, one with a per-iteration threshold, and one on the last global tally. -/
theorem test_wait_ready :
    ready (prog (0x20 + 8703 * 2 ^ 8) 5) 0x20 (fun u => decide (bits u.w0 22 8 = 8703 ∧ (8703 - 8192) / 512 = 0 ∧
      8703 < 8192 + 512 * 48 ∧ (getTal (prog (0x20 + 8703 * 2 ^ 8) 5) 8703).poison = false ∧ bit u.w0 27 = false)) = true ∧
    ready (progL (0x20 + 8191 * 2 ^ 8 + 2 ^ 27) (5 + 2 ^ 48) [loop0] none) 0x20 (fun u => decide (bits u.w0 22 8 = 8191 ∧
      bit u.w0 27 = true ∧ u.s.loops[bits u.w0 26 24]? = some loop0)) = true := by decide +kernel
theorem test_signal_ready : ready (prog (0x21 + 7 * 2 ^ 8 + 3 * 2 ^ 32) 0) 0x21 (fun u =>
    decide (bits u.w0 22 8 < 8192 + 512 * 48 ∧ bits u.w0 47 32 ≠ 0)) = true := by decide +kernel
theorem test_fence_ready : ready (prog (0x22 + 3 * 2 ^ 8) 0) 0x22 (fun _ => true) = true := by decide +kernel
theorem test_advise_ready : ready (prog (0x32 + 2 ^ 16) 0) 0x32 (fun _ => true) = true := by decide +kernel
/-- R76 and R86: a unit of no instruction, a JUMP past the range, a LOOP whose ENDL lies past it, an ENDL whose body lies
outside, and the last unit of the range. -/
theorem test_bounds_ready :
    ((nextUnit (prog 0 0) 0).any (fun x => unitRows.all (fun r => r.1 ≠ opcode x.2.w0))) = true ∧
    ready (prog (0x03 + 64 * 2 ^ 32) 0) 0x03 (fun u => decide ((u.e.va : Int) + 16 * u.e.len ≤ u.s.pc + 16 * sgn 32 (bits u.w0 63 32))) = true ∧
    ready (prog (0x04 + 64 * 2 ^ 24) 1) 0x04 (fun u => decide (u.e.va + 16 * u.e.len ≤ u.s.pc + 16 * bits u.w0 47 24)) = true ∧
    ready (progL 0x05 0 [{ loop0 with body := 0x1400 }] none) 0x05 (fun u => decide (u.e.va + 16 * u.e.len ≤ 0x1400)) = true ∧
    (getStrand (prog 1 0) 0 0).st = .run ∧ entry0.va + 16 * entry0.len ≤ 0x13F0 + 16 := by decide +kernel

/-! ## Channels and strands -/

def chan0 : Chan := { Chan.reset with tail := 3, head := 2, done := 1, st := .running }

/-- Channel 0 of station 0 enabled, with a ring of 2^6 entries; the pages of its station enabled. -/
def chBlk (x : Chan) : Block := { blk with
  chans := [(0, x)], regs := [(stnB 0 + 8, 1), (chanB 0 + 8, 1), (chR 0 0 0, 1), (chR 0 0 0x0C, 6)] }

def line0 : Fetch := { k := 0, part := 0, va := 0x1080, pa := 0x1080, live := true }

/-- An entry read, and its error; a line for a strand that wants it and one of before a soft reset; a status write; an
interrupt message. -/
theorem test_channelReturns_meets :
    (7 : Word) ∈ (getChan (chBlk { chan0 with reading := [7] }) 0 0).reading ∧ chan0.cancelFrom = chan0.cancelTo ∧
    (let b : Block := { prog 1 0 with stations := [(0, { Station.reset with
        power := .active, pfOut := [line0], oldPf := [{ line0 with va := 0x2000 }] })] }
     (getStn b 0).oldPf.find? (fun f => f.k = 0 && f.va = 0x1080) = none ∧
       (getStn b 0).pfOut.find? (fun f => f.k = 0 && f.va = 0x1080) = some line0 ∧
       (getStn b 0).stopCode = 0 ∧ stnActive b 0 = true ∧ (getStn b 0).oldPf.find? (fun f => f.k = 0 && f.va = 0x2000) = some { line0 with va := 0x2000 }) ∧
    (let b : Block := { blk with hubWr := [(4, .status 0 0 7)], irqs := [3, 1] }
     hubOn b = true ∧ hubTag b (.status 0 0 7) = some 4 ∧ isDead b = false ∧ b.irqs = 3 :: [1]) := by decide +kernel

/-- The strand granted is the lowest that is free (R53). -/
theorem test_dispatch_meets :
    let b := chBlk { chan0 with accepted := [entry0] }
    stnRuns b 0 = true ∧ hubWorks b = true ∧ grantPick b 0 = some (0, 0) ∧ (getChan b 0 0).accepted = entry0 :: [] ∧
      entry0.xl.any (·.stale) = false := by decide +kernel

/-- A strand in DRAIN with nothing outstanding, and a strand that has stopped. -/
theorem test_entryComplete_meets :
    (let b : Block := { blk with strands := [(0, { strand0 2 0 with st := .drain })] }
     stnFenced b 0 = false ∧ isDead b = false ∧ (getStrand (tick b 0 0) 0 0).entry = some entry0 ∧
       entryDone (getStn (tick b 0 0) 0) 0 (getStrand (tick b 0 0) 0 0) = true) ∧
    (let b : Block := { blk with strands := [(0, { strand0 2 0 with st := .stopped, err := 0x14 })] }
     (getStrand (tick b 0 0) 0 0).entry = some entry0 ∧
       entryDone (getStn (tick b 0 0) 0) 0 (getStrand (tick b 0 0) 0 0) = true) := by decide +kernel

/-! ## Operations -/

/-- An operation of a strand, with nothing done yet. -/
def op0 (kind : OpKind) (ph : Phase) : Op :=
  { id := 1, kind := kind, phase := ph, pc := 0x1000, desc := 0x1080, x := List.replicate 8 none, w0 := 0x10, w1 := 0,
    loops := [], listVa := none, elem := none, ord := 0, foots := [], mv := none, gsrc := none, gdst := none,
    hazWaited := false, rIss := 0, wIss := 0, got := [], decoded := [], encoded := [], cfaults := [], shaped := false,
    histN := 0, marked := false, stopAfter := false, offRec := false, offside := [], offOpds := [], walked := [] }

/-- A MOVE of 128 bytes from 0x10000 to 0x30000 with the W0 of its descriptor given. -/
def mv0 (w0 side : Nat) : Mv :=
  { d := w0 + 0x10000 * 2 ^ 64 + 0x30000 * 2 ^ 128, side := side, sb := 0x10000, db := 0x30000, dims := [{ ss := 1, ds := 1, ext := 128, pad := 0, val := 128 }],
    k := 0, hist := none, bound := [], pack := none, wins := [], seed := 0 }

def foot0 : Foot := { opd := 1, space := .mem, write := true, lo := 0x30000, hi := 0x3007F }

/-- Strand 0 of station 0 with one operation in progress. -/
def opBlk (o : Op) : Block := { blk with strands := [(0, { strand0 1 0 with ops := [o], ranges := [⟨0, 2 ^ 40, 0, false⟩] })] }

def opBlkS (o : Op) (st : Station) : Block := { opBlk o with stations := [(0, { st with power := .active })] }

theorem test_descriptor_meets :
    let o := op0 .move .desc
    let b := opBlkS o { Station.reset with pfOut := [{ line0 with va := 0x1080 + 2 ^ 60 }] }
    (getStn b 0).oldPf.find? (fun f => f.k = 0 && f.va ≥ 2 ^ 60) = none ∧
      (getStn b 0).pfOut.find? (fun f => f.k = 0 && f.va ≥ 2 ^ 60) = some { line0 with va := 0x1080 + 2 ^ 60 } ∧
      (getStn b 0).stopCode = 0 ∧ stnActive b 0 = true := by decide +kernel

def par1 : Params :=
  { Params.reset with stations := 1, vaultCh := 1, luns := 1, tileSize := [1048576], rdLat := [4], wrAckLat := [3] }

/-- A descriptor of a MOVE of 128 bytes that names a side block 24 units on, and a station whose cache holds lines. -/
def c1 : Line :=
  BitVec.ofNat 1024 (2 ^ 25 + 24 * 2 ^ 32 + 0x10000 * 2 ^ 64 + 0x30000 * 2 ^ 128 + (1 + 2 ^ 32) * 2 ^ 256 + 127 * 2 ^ 768)
def dcBlk (l : List (Nat × Line)) : Block :=
  opBlkS (op0 .move .desc) { Station.reset with dcache := l.foldl (fun t e => dcachePut t e.1 e.2 0) [] }

/-- The front MOVE with its descriptor in the cache: one that names no side block, and one whose side block at 0x1200 is
fetched first and then stands in the cache. -/
theorem test_descTry_meets :
    let o := op0 .move .desc
    frontOp (getStrand (dcBlk []) 0 0) = some o ∧ o.kind = .move ∧ o.phase = .desc ∧ (getStrand (dcBlk []) 0 0).entry = some entry0 ∧
      xlPa entry0.xl o.desc = some 0x1080 ∧ dcacheGet (getStn (dcBlk [(0x1080, 0)]) 0) (some 0x1080) = some 0 ∧
      sideAddr o entry0 0 = none ∧
      headIllegal par1 0 (getStrand (dcBlk []) 0 0) o c1.toNat = false ∧ sideAddr o entry0 c1.toNat = some 0x1200 ∧
      dcacheGet (getStn (dcBlk [(0x1080, c1)]) 0) (some 0x1080) = some c1 ∧
      dcacheGet (getStn (dcBlk [(0x1080, c1)]) 0) (xlPa entry0.xl 0x1200) = none ∧
      dcacheGet (getStn (dcBlk [(0x1080, c1), (0x1200, 7)]) 0) (some 0x1200) = some 7 := by decide +kernel

def hazOp : Op := { op0 .move .haz with foots := [foot0] }
def haz63 : Haz := { strand := 1, op := 1, ord := 0, space := .mem, write := false, lo := 0, hi := 0, part := 0, opd := 0, done := false, landing := false }
def hazBlk : Block := { blk with
  stations := [(0, { Station.reset with power := .active, haz := List.replicate 63 haz63 })]
  strands := [(0, { strand0 1 0 with ops := [hazOp] }), (1, { strand0 1 0 with ops := [op0 .move .conflict] })] }

/-- The 64th hazard entry of a station is granted (R222). -/
theorem test_hazardGrant_meets :
    stnRuns hazBlk 0 = true ∧ hazWaiter (tick hazBlk 0 0) 0 0 = some hazOp ∧ hazTurn (tick hazBlk 0 0) 0 0 hazOp = true ∧
      hazUsed (getStn (tick hazBlk 0 0) 0) + hazOp.foots.length = 64 := by decide +kernel

theorem test_guard_meets :
    let o := op0 .move .guard
    guardOp (getStrand (opBlk o) 0 0) = some o ∧ stnRuns (opBlk o) 0 = true ∧ guardsOver (getStrand (opBlk o) 0 0) = true ∧
    (let b : Block := { blk with regs := [(nearB 0 + 0x50, 1)],
                                 strands := [(0, { strand0 1 0 with ops := [o], guardS := .armed 3 4 0 })] }
     guardOp (getStrand b 0 0) = some o ∧ rbits b (nearB 0 + 0x50) 15 0 ≠ 0 ∧ waitArmed (getStrand b 0 0).guardS = true ∧
       stnFenced b 0 = false ∧ isDead b = false) ∧
    waitArmed (.acquiring { tally := 3, scope := .chip, waits := [1] }) = false := by decide +kernel

/-- A delta decode that uses slot 2 binds it (R178). -/
theorem test_codecBind_meets :
    let o := { op0 .move .bind with mv := some (mv0 (2 ^ 26) (4 * 2 ^ 960)) }
    stnRuns (opBlk o) 0 = true ∧ (getStrand (opBlk o) 0 0).ops.find? (fun o => bindReady (opBlk o) 0 0 o) = some o ∧
      bindSlots o = [2] ∧ (bindSlots o).all (fun i => !(codecSlot (getStn (opBlk o) 0) i).loading) = true := by decide +kernel

def resOp : Op := { op0 .move .res with mv := some (mv0 (2 ^ 26) 0) }
def resBlk : Block := opBlkS resOp { Station.reset with resQ := [(0, 1)] }

theorem test_resourceGrant_meets :
    stnRuns resBlk 0 = true ∧ (getStn (tick resBlk 0 0) 0).resQ = (0, 1) :: [] ∧ findOp (tick resBlk 0 0) 0 0 1 = some resOp := by
  decide +kernel
theorem test_resources_free : resOp.mv = some (mv0 (2 ^ 26) 0) ∧
    resFree (getStn (tick resBlk 0 0) 0) (mv0 (2 ^ 26) 0) = true ∧ burstNext (tick resBlk 0 0) 0 0 resOp = true ∧
    burstNext { tick resBlk 0 0 with regs := [(codecB 0 + 8, 2)] } 0 0 resOp = false := by decide +kernel

/-! ## Bursts -/

def burst0 : Burst := { opd := 0, space := .mem, line := 0x200, mask := 2 ^ 128 - 1 }

def rq0 : RdReq := { agent := .op 0 1 0, part := 0, va := 0, line := 0, mask := 1 }
def tagBlk : Block := opBlkS (op0 .move .issue) { Station.reset with rdTags := [(0, rq0), (1, rq0)] }

/-- The lowest free read tag and write tag (R424). -/
theorem test_burstsIssue_meets :
    stnRuns tagBlk 0 = true ∧ burst0.space = .mem ∧ xlPa (getStrand tagBlk 0 0).ranges (burstVa burst0) = some 0x10000 ∧
      rdTagNew (getStn tagBlk 0) = some 2 ∧ tfree (getStn tagBlk 0).wrTags 0 1024 = some 0 := by decide +kernel

def wr0 (inval : List Nat) : WrReq :=
  { agent := .op 0 1 1, part := 0, wid := 8, va := 0x30000, line := 0x600, mask := 1, data := 0, poison := 0, acked := false, inval := inval,
    failed := false }

theorem test_burstsEnd_meets :
    let rq : RdReq := { rq0 with va := 0x10000, line := 0x200 }
    (let b := opBlkS (op0 .move .issue) { Station.reset with rdTags := [(1023, rq)], oldRd := [(5, rq)], wrTags := [(0, wr0 []), (1023, wr0 [0x600])] }
     tget (getStn b 0).rdTags 1023 = some rq ∧ rq.agent = .op 0 1 0 ∧ (getStn b 0).stopCode = 0 ∧ stnActive b 0 = true ∧
       tget (getStn b 0).rdTags 5 = none ∧ (tget (getStn b 0).oldRd 5).isSome = true ∧
       tget (getStn b 0).wrTags 0 = some (wr0 []) ∧ tget (getStn b 0).wrTags 1023 = some (wr0 [0x600]) ∧
       (wr0 []).inval = [] ∧ (wr0 [0x600]).inval ≠ [] ∧ (wr0 []).acked = false ∧ (wr0 []).failed = false ∧ (1 : BitVec 2) ≠ 0) ∧
    (let b : Block := { opBlkS (op0 .move .issue) { Station.reset with wrTags := [(3, { wr0 [0x600] with acked := true })] } with
        invQ := [(0, 8, 0x600)], invals := [(255, ⟨0, 8, 0x600, false⟩)] }
     b.invQ = (0, 8, 0x600) :: [] ∧ tfree b.invals 0 256 = some 0 ∧ hubOn b = true ∧
       tget b.invals 255 = some ⟨0, 8, 0x600, false⟩ ∧
       wrByWid (getStn b 0) 8 = some (3, { wr0 [0x600] with acked := true })) := by decide +kernel

/-! ## Codec and statistics -/

def decOp : Op := { op0 .move .issue with
  mv := some (mv0 (2 ^ 26) (0x20000 * 2 ^ 768)), got := [(gotKey 7 0x20000, { mask := 0xFF, data := 3 + 4 + 2 ^ 17, pois := 0 })] }
def encOp : Op := { op0 .move .issue with
  mv := some (mv0 (2 * 2 ^ 26) (0x20000 * 2 ^ 768)), got := [(gotKey 0 0x10000, { mask := 2 ^ 128 - 1, data := 0, pois := 0 })] }

/-- A ZEROS block of 128 bytes whose header has arrived (R169, R184), and an encode whose source line has. -/
theorem test_codec_meets :
    stnRuns (opBlk decOp) 0 = true ∧ ((getStrand (tick (opBlk decOp) 0 0) 0 0).ops.findSome? (fun o =>
       if (o.phase = .issue ∨ o.phase = .issued) ∧ !opHeld (tick (opBlk decOp) 0 0) 0 0 o then (nextDecode o).map (fun x => (o, x)) else none)).isSome = true ∧
    stnRuns (opBlk encOp) 0 = true ∧ ((getStrand (tick (opBlk encOp) 0 0) 0 0).ops.findSome? (fun o =>
       if o.phase = .issue ∧ !opHeld (tick (opBlk encOp) 0 0) 0 0 o then (nextEncode o).map (fun x => (o, x)) else none)).isSome = true := by
  decide +kernel

/-- A table of one symbol of length 1 (R174 to R176): 16 bytes of head, 16 of lengths and 16 of values. -/
def table0 : Nat := 48 + 2 ^ 16 + 2 ^ 128

theorem test_tload_meets :
    (let o := { op0 .tload .bind with w0 := 0x30 + 2 ^ 16 }
     let b := opBlkS o { Station.reset with tloads := [(0, 0, 1)] }
     stnRuns b 0 = true ∧ (getStrand b 0 0).ops.find? (fun o => o.kind = .tload && o.phase = .bind) = some o ∧
       earlierBound (getStrand b 0 0) o = true ∧ opHeld b 0 0 o = false ∧ (getStn b 0).tloads = [(tloadSlot o, 0, o.id)] ∧
       (codecSlot (getStn b 0) (tloadSlot o)).loading = false ∧ bindersHeld b 0 (tloadSlot o) = false ∧
       tloadSlot o < (getStn b 0).slots.length) ∧
    (let o := { op0 .tload .issue with w0 := 0x30 + 2 ^ 16, rIss := 8, desc := 0x1000,
                                       got := [(gotKey 9 0x1000, { mask := 2 ^ 128 - 1, data := table0, pois := 0 })] }
     let b := opBlk o
     (getStrand b 0 0).ops.find? (fun o => o.kind = .tload && tableHere (getStn b 0) 0 o && !opHeld b 0 0 o) = some o ∧
       (gotNum o.got 9 o.desc 8).map (·.1) = some (48 + 2 ^ 16) ∧ (gotNum o.got 9 (o.desc + 8) 8).map (·.1) = some 0 ∧
       tabValid (48 + 2 ^ 16) 0 (fun j => ((gotByte o.got 9 (o.desc + j)).map (·.1)).getD 0) = true) ∧
    (let o := { op0 .stat .res with w0 := 0x31 + 2 ^ 10 }
     let t := getStrand (opBlk o) 0 0
     t.ops.find? (fun o => o.kind = .stat && o.phase = .res) = some o ∧
       (t.ops.takeWhile (fun x => x.id ≠ o.id)).all shaperOver = true ∧ opHeld (opBlk o) 0 0 o = false ∧ bit o.w0.toNat 8 = false ∧ bit o.w0.toNat 9 = false ∧
       bit o.w0.toNat 10 = true) := by decide +kernel

/-! ## The near port -/

def nl0 : NearLine :=
  { strand := 256, op := 0, chan := 32, write := true, line := 1, mask := 1, data := 0, poison := 0, opd := 1, wid := 0, link := none }

/-- Slots 0, 1 and 2 owned; slot 1 writes; slot 2 locked to channel 0. -/
def nearBlk : Block := { blk with
  regs := [(nearB 0 + 8, 1), (nearB 0 + 0x40, BitVec.ofNat 32 (7 + 2 * 2 ^ 8 + 4 * 2 ^ 16 + 2 ^ 29))] }

def atSlot (k : Nat) : Block := setStn nearBlk 0 { getStn nearBlk 0 with slot := k }

theorem test_nearPort_meets :
    nearRuns (atSlot 0) 0 = true ∧ bit (nearOwn (atSlot 0) 0) 0 = true ∧
    bit (nearLock (tickStn (atSlot 0) 0) 0) 0 = false ∧ bit (nearWrs (tickStn (atSlot 0) 0) 0) 0 = false ∧
    bit (nearOwn (atSlot 1) 0) 1 = true ∧ bit (nearLock (tickStn (atSlot 1) 0) 0) 1 = false ∧
    bit (nearWrs (tickStn (atSlot 1) 0) 0) 1 = true ∧
    bit (nearLock (tickStn (atSlot 2) 0) 0) 2 = true ∧ (lockChan (tickStn (atSlot 2) 0) 0).isSome = true ∧
    bit (nearOwn (atSlot 3) 0) 3 = false ∧ nearRuns blk 0 = false ∧
    (let b := setStn nearBlk 0 { getStn nearBlk 0 with staged := [nl0] }
     (getStn b 0).staged = nl0 :: [] ∧ nl0.strand = 256 ∧ nl0.chan = 32 ∧ streamLive b 0 = true) := by decide +kernel

/-- A locked slot that finds no line staged while the stream still holds one. -/
theorem test_lockedLate_meets :
    let o := { op0 .move .issue with mv := some { mv0 (2 ^ 6) 0 with db := 0 }, rIss := 9
                                     got := [(gotKey 0 0x10000, { mask := 2 ^ 128 - 1, data := 0, pois := 0 })] }
    let b : Block := { nearBlk with strands := [(0, { strand0 1 0 with ops := [o], ranges := [⟨0, 2 ^ 40, 0, false⟩] })] }
    (getStn b 0).staged = [] ∧ streamLive b 0 = true := by decide +kernel

theorem test_tileAnswers_meets :
    let b := setStn blk 0 { getStn blk 0 with nearRd := [{ nl0 with write := false }], nearWr := [nl0] }
    (getStn b 0).nearRd = { nl0 with write := false } :: [] ∧ stnDiscards b 0 = false ∧ (getStn b 0).nearWr = nl0 :: [] ∧
      nl0.link = none := by decide +kernel

/-! ## Tallies -/

def relSig : Sig := { tally := 3, cond := 0, scope := 0, amount := 2, upTo := 9, lastOp := none }

theorem test_signalFires_meets :
    let b : Block := { blk with strands := [(0, { strand0 1 0 with sigs := [relSig] })] }
    stnRuns b 0 = true ∧ (getStrand (tick b 0 0) 0 0).sigs = relSig :: [] ∧
      sigMet (getStn (tick b 0 0) 0) 0 (getStrand (tick b 0 0) 0 0) relSig = true := by decide +kernel

def add0 : Add :=
  { src := .gop, tally := 8191, amount := 1, stn := none, declared := .chip, settled := .chip, ack := none }

/-- An addition that takes the last global tally to its largest value. -/
theorem test_tallyAdditions_meets :
    let b : Block := { blk with adds := [add0], tallies := [(8191, { Tally.reset with value := BitVec.ofNat 48 (2 ^ 48 - 2) })] }
    takeAdds 8191 [] b.adds = ([add0], []) ∧ isDead b = false ∧ hubOn b = true ∧ (getTal b 8191).poison = false ∧
      talStn 8191 = none ∧ hubOn { blk with pwr := { blk.pwr with hubOn := false } } = false := by decide +kernel

/-- An addition to a local tally of a station that is active, of one that sleeps, and of one whose wake queue holds 64
tallies; a sum of the wake queue that meets a waiter (R251). -/
theorem test_localAdditions_meets :
    let a := { add0 with tally := 8192 }
    let st : Station := { Station.reset with power := .lull }
    takeAdds 8192 [] [a] = ([a], []) ∧ talStn 8192 = some 0 ∧ stnActive blk 0 = true ∧
      stnActive (setStn blk 0 st) 0 = false ∧ wakeFull st 8192 = false ∧
      wakeFull { st with wakeQ := (List.range 64).map (fun (i : Nat) => (9000 + i, [a])) } 8192 = true ∧
      wakeMeets { Tally.reset with waiters := [{ kind := .wait, stn := 0, strand := 0, thr := 1, scope := .station }] }
        (addSum (tgetD st.wakeQ 8192 [] ++ [a])) = true := by decide +kernel

/-- An addition of a source stays behind an earlier one of it to another tally of the hub (R248). -/
theorem test_addition_order :
    takeAdds 8191 [] [{ add0 with tally := 3 }, add0, { add0 with src := .station 1, stn := some 1 }] =
      ([{ add0 with src := .station 1, stn := some 1 }], [{ add0 with tally := 3 }, add0]) := by decide +kernel

/-- A poisoned tally with a waiter of each kind (R255). -/
theorem test_poison_meets :
    let w : Waiter := { kind := .gsrc, stn := 0, strand := 0, thr := 1, scope := .chip }
    let b := { opBlk (op0 .move .guard) with tallies := [(5, { Tally.reset with waiters := [w] })] }
    talExists Params.reset 32767 = true ∧ (getTal b 5).waiters = [w] ∧ guardOp (getStrand b w.stn w.strand) = some (op0 .move .guard) ∧
      rget b (talPage 5 + 0x44) < 0xFFFFFFFF ∧ (getTal { b with tallies := [(5, { Tally.reset with poison := true })] } 5).poison = true := by
  decide +kernel

/-- The last value that meets a threshold and the first that does not (R97). -/
theorem test_threshold : talMet (2 ^ 47 + 4) 5 = true ∧ talMet (2 ^ 47 + 5) 5 = false ∧ talMet 4 5 = false ∧
    talMet 1 (2 ^ 48 - 1) = true := by decide +kernel

theorem test_barriers_meets :
    (let b : Block := { blk with strands := [(0, { strand0 1 0 with
        wait := .acquiring { tally := 3, scope := .station, waits := [1] }, blocked := .wait })] }
     isDead b = false ∧ (getStrand b 0 0).entry.isSome = true ∧ stnFenced b 0 = false ∧
       (getStrand b 0 0).wait = .acquiring { tally := 3, scope := .station, waits := [1] } ∧
       acqSettled b { tally := 3, scope := .station, waits := [1] } = true ∧ (getStrand b 0 0).blocked = .wait) ∧
    (let b : Block := { blk with strands := [(0, { strand0 1 0 with wait := .armed 3 4 0, waitTmo := 1 })] }
     (getStrand b 0 0).wait = .armed 3 4 0 ∧ (getStrand b 0 0).waitTmo ≠ 0) ∧
    (let b := setStn blk 0 { getStn blk 0 with barReq := [(3, .chip)], wrTags := [(2, wr0 [])], wWrTags := [(1, { wr0 [] with wid := 9 })] }
     (getStn b 0).barReq ≠ [] ∧ (2, wr0 []) ∈ (getStn b 0).wrTags ∧ (wr0 []).failed = false) := by decide +kernel

/-! ## Range translation -/

/-- A mapped range of 64 KiB at 2^57 − 64 KiB, the last of the address space (R258). -/
def te0 : TabEntry := { e0 := BitVec.ofNat 64 (2 ^ 57 - 65536 + 1), e1 := 65536, e2 := 0x100000, e3 := 0 }

/-- A chip of one station and one vault channel with one LUN. -/
def stt1 (b : Block) : State := { State.reset with par := par1, b := b }

/-- Partition 0 on, with a table in force and what else is given. -/
def xlBlk (x : Part) : Block := { blk with
  parts := [(0, { x with st := .ready, table := some (512, 1), keys := [2 ^ 57 - 65536] })]
  regs := [(xlatB + 8, 1), (xlatB + 0x44, 16), (xpR 0 0, 1)] }

/-- An entry at the last unit of the address space waits for its translation. -/
def xlChan : Chan := { chan0 with accepting := some { entry0 with va := 2 ^ 57 - 16, len := 1, xl := [] } }

theorem test_walkRequest_meets :
    let b := { xlBlk Part.reset with chans := [(0, xlChan)] }
    hubOn b = true ∧ hubWorks b = true ∧ partOn b 0 = true ∧ b.walks = [] ∧
      (partNeeds par1 b 0).map (fun x => (x.va, x.req)) = [(2 ^ 57 - 16, .chan 0 0)] ∧
      ((partNeeds par1 b 0).filter (fun y => y.va / 65536 = (2 ^ 57 - 16) / 65536)).length = 1 := by decide +kernel

def walk0 : Walk :=
  { addr := some 512, part := 0, va := 2 ^ 57 - 16, hi := 2 ^ 57 - 1, write := false, cause := 0, reqs := [.chan 0 0], running := true, stale := false }
def wBlk : Block := { xlBlk Part.reset with walks := [walk0] }

/-- A walk that hits the last byte's range, and one that misses a group without it. -/
theorem test_walkDone_meets :
    walksRun wBlk = true ∧
    wBlk.walks.find? (fun w => w.running && w.part = 0 && w.va / 65536 = (2 ^ 57 - 16) / 65536) = some walk0 ∧
    walk0.stale = false ∧ walk0.addr.isNone = false ∧ { walk0 with stale := true }.stale = true ∧
    walkFind false walk0.va walk0.hi [te0] = .hit [⟨2 ^ 57 - 65536, 65536, 0x100000, false⟩] ∧
    walkFind false walk0.va walk0.hi [] = .miss false := by decide +kernel

def frec0 (ph : FPhase) : FRec :=
  { idx := 2, va := 2 ^ 57 - 16, write := false, absent := false, cause := 0, stn := 0, req := 0, batch := 1, merged := 0, gen := 0,
    reqs := [.chan 0 0], phase := ph }

theorem test_faultRecords_meets :
    (let b := xlBlk { Part.reset with recs := [frec0 .closed] }
     hubOn b = true ∧ (getPart b 0).recs.find? (fun r => r.phase = .closed) = some (frec0 .closed)) ∧
    (let b := xlBlk { Part.reset with recs := [frec0 .retry] }
     walksRun b = true ∧ (getPart b 0).recs.find? (fun f => f.phase = .retry && f.idx = (frec0 .retry).idx) = some (frec0 .retry) ∧
       (getPart b 0).cur = none ∧ (getPart b 0).pend = none ∧ (getPart b 0).st ≠ .broken ∧ partOn b 0 = true ∧
       (walkAddr (getPart b 0) (2 ^ 57 - 16)).isNone = false ∧
       walkFind false (2 ^ 57 - 16) (2 ^ 57 - 16 + 65535) [te0] = .hit [⟨2 ^ 57 - 65536, 65536, 0x100000, false⟩]) ∧
    (let f : FcRec := { seq := 2 ^ 32 - 1, va := 0, len := 1, kind := 0, host := false, chan := 0, strand := 0 }
     let b := xlBlk { Part.reset with fcQ := [f] }
     hubOn b = true ∧ (getPart b 0).fcQ = f :: []) := by decide +kernel

def commit0 (stage : Nat) (revoke : Bool) : Commit :=
  { revoke := revoke, tbase := 1024, tcount := 1, stage := stage, keys := [2 ^ 57 - 65536], before := .ready }
def cmBlk (c : Commit) : Block := { xlBlk { Part.reset with cur := some c } with commitQ := [0] }

theorem test_commits_meets :
    hubWorks (cmBlk (commit0 0 false)) = true ∧ pageFence (cmBlk (commit0 0 false)) xlatB = false ∧
    (getPart (cmBlk (commit0 0 false)) 0).cur = some (commit0 0 false) ∧ (cmBlk (commit0 0 false)).standby = none ∧
    (cmBlk (commit0 0 false)).commitQ.head? = some 0 ∧ (commit0 0 false).tbase % 512 = 0 ∧ [te0].length = (commit0 0 false).tcount ∧
    tableErr 0 [te0] = 0 ∧ (getPart (cmBlk (commit0 1 false)) 0).cur = some (commit0 1 false) ∧
    (getPart (cmBlk (commit0 1 true)) 0).cur = some (commit0 1 true) ∧ (commit0 1 true).revoke = true ∧
    (getPart (cmBlk (commit0 2 true)) 0).cur = some (commit0 2 true) ∧ (getPart (cmBlk (commit0 2 true)) 0).drain = [] ∧
    (getPart (cmBlk (commit0 2 true)) 0).pend = none := by decide +kernel

/-! ## The configuration port -/

/-- A supervisor access with all strobes. -/
def su : Attr := { priv := true, part := 0, req := 0, strb := 15 }

/-- The port performs a write of w at an address of a page, and more holds of the register's row. -/
def writes (b : Block) (a w : Nat) (pg : Page) (more : RegRow → Bool) : Bool :=
  (pageRow pg (a % 0x1000)).any (fun r => takesWrite Params.reset b (wacc a w su) pg r && more r)

/-- A write of PAGE_CTRL, a write of a 64-bit pair, and a read. -/
def ctrls (b : Block) (a w : Nat) (pg : Page) : Bool :=
  (pageRow pg (a % 0x1000)).any (fun r => takesCtrl Params.reset b (wacc a w su) pg r)
def pairs (b : Block) (a lo hi : Nat) (pg : Page) : Bool :=
  (pageRow pg (a % 0x1000)).any (fun rl => (pageRow pg (a % 0x1000 + 4)).any (fun rh => takesPair Params.reset b a lo hi su pg rl rh))
def reads (b : Block) (a : Nat) (pg : Page) (more : RegRow → Bool) : Bool :=
  (pageRow pg (a % 0x1000)).any (fun r => takesRead Params.reset b (racc a su) pg r && more r)

/-- Doorbells of the last channel of the last station; ENABLE, disable and RESUME of a channel. -/
theorem test_channelWrites_meets :
    writes blk (dbellB 47 31 + 0x40) 1 (.dbell 47 31) (fun _ => true) = true ∧
    writes (chBlk chan0) (dbellB 0 0 + 0x40) 4 (.dbell 0 0) (fun _ => true) = true ∧
    writes blk (chR 0 0 0) 1 (.chan 0) (fun _ => true) = true ∧ chEnable (counted blk) 0 0 = false ∧
    writes (chBlk chan0) (chR 0 0 0) 0 (.chan 0) (fun _ => true) = true ∧ chEnable (counted (chBlk chan0)) 0 0 = true ∧
    writes (chBlk { chan0 with st := .stopped }) (chR 0 0 0) 3 (.chan 0) (fun _ => true) = true ∧
    (getChan (counted (chBlk { chan0 with st := .stopped })) 0 0).st = .stopped := by decide +kernel

/-- Tails at the edge of the ring and of the window, and one past each (R46, R47). -/
theorem test_doorbell_meets :
    let x : Chan := { Chan.reset with tail := 3, done := 1 }
    2 ^ chLog2 (chBlk x) 0 0 = 64 ∧ ((65 : Word) ≠ x.tail ∧ ((65 : Word) - x.tail).toNat ≤ 64 ∧ ((65 : Word) - x.done).toNat ≤ 64) ∧
      64 < ((66 : Word) - x.done).toNat ∧ 64 < ((2 : Word) - x.tail).toNat ∧ x.st = .disabled ∧ chan0.st ≠ .disabled ∧
      chAccepts (setChan blk 0 0 { chan0 with tail := 65 }) 0 0 = false := by decide +kernel

/-- A cause register, TAL_ADD of the last global and the first local tally, and TAL_VAL. -/
theorem test_causeAndTally_meets :
    writes blk (fcB + 0x58) 1 .fc (fun _ => true) = true ∧ causeVec .fc 0x58 = some 1557 ∧ (fcB + 0x58) % 4 = 0 ∧
    writes blk (talAddAt 8191) 5 (talPg 8191) (fun _ => true) = true ∧
    writes blk (talAddAt 8192) 5 (talPg 8192) (fun _ => true) = true ∧
    pairs blk (talValAt 8191) 5 7 (talPg 8191) = true := by decide +kernel

theorem test_partitionAndLink_meets :
    writes (xlBlk Part.reset) (xpR 0 0x24) 1 .xlat (fun _ => true) = true ∧
    writes (xlBlk Part.reset) (xpR 0 0) 3 .xlat (fun _ => true) = true ∧ partOn (counted (xlBlk Part.reset)) 0 = bit 3 0 ∧
    writes (xlBlk Part.reset) (xpR 0 0) 7 .xlat (fun _ => true) = true ∧ partOn (counted (xlBlk Part.reset)) 0 = bit 7 0 ∧
    writes (xlBlk Part.reset) (xpR 0 0) 0 .xlat (fun _ => true) = true ∧ partOn (counted (xlBlk Part.reset)) 0 = true ∧
    writes blk (partB 15 + 0x4C) 1 (.part 15) (fun _ => true) = true ∧
    ctrls blk (lportB 3 + 8) 1 (.lport 3) = true ∧ rget blk (lportB 3 + 8) = 0 ∧
    ctrls { blk with regs := [(lportB 3 + 8, 1)] } (lportB 3 + 8) 0 (.lport 3) = true ∧
    writes blk (gopR 7 0) 1 .link (fun _ => true) = true ∧ writes blk (gopR 7 0) 0 .link (fun _ => true) = true := by
  decide +kernel

theorem test_vaultCommandWrites_meets :
    writes blk (vaultB + 0x48) (1 + 4095 * 2 ^ 8) .vault (fun _ => true) = true ∧
    writes blk (vaultB + 0x48) (2 + 4095 * 2 ^ 8) .vault (fun _ => true) = true ∧
    writes blk (vaultB + 0x48) (3 + 4095 * 2 ^ 8) .vault (fun _ => true) = true ∧
    writes blk (vaultB + 0x48) 4 .vault (fun _ => true) = true ∧ blk.vault.busy = 0 := by decide +kernel

theorem test_collector_meets :
    pairs blk (fcB + 0x40) 1 0 .fc = true ∧ writes blk (fcB + 0xA0) 1 .fc (fun _ => true) = true ∧
    reads blk (fcB + 0x80) .fc (fun r => r.pair = 0) = true ∧ ctrls blk (fcB + 8) 2 .fc = true := by decide +kernel

/-- PAGE_CTRL: a soft reset and a clearing of a fenced station, a fence, a lock; PAGE_ERR. -/
theorem test_pageControl_meets :
    (let b : Block := { blk with regs := [(stnB 0 + 8, 3)] }
     ctrls b (stnB 0 + 8) 7 (.stn 0) = true ∧ rget b (stnB 0 + 8) = 3) ∧
    ctrls blk (stnB 0 + 8) 2 (.stn 0) = true ∧ ctrls blk (stnB 0 + 8) 8 (.stn 0) = true ∧
    ctrls blk (stnB 0 + 8) 0 (.stn 0) = true ∧
    (pageRow .cfg 0x10).any (fun r => meetsWrite Params.reset blk (wacc (cfgB + 0x10) 1 su) .cfg r) = true := by decide +kernel

theorem test_registers_meets :
    writes blk (pwrB + 0x40) 5 .pwr (fun r => match regWrite Params.reset (counted blk) .pwr 0x40 r 5 none with
      | (.ok _, _) => true
      | _ => false) = true ∧
    (pageRow .pwr 0x60).any (fun r => meetsWrite Params.reset blk (wacc (pwrB + 0x60) 5 su) .pwr r && decide (r.pair = 1)) = true ∧
    reads blk (pwrB + 0x60) .pwr (fun r => r.pair = 1 && decide (readLatch (counted blk) .pwr 0x60 = counted blk)) = true := by
  decide +kernel

/-- Station 47 sleeps: its wake waits for a thaw. -/
theorem test_unitAccesses_meets :
    reads blk (ordB 0 + 0x5C) (.ord 0) (fun r => r.pair = 0) = true ∧
    writes blk (stnB 0 + 0x40) 1 (.stn 0) (fun r => rowMask r = 1) = true ∧
    blk.cfg.held = [] ∧ accFate Params.reset blk (wacc (stnB 47 + 0x40) 1 su) = .thaw ∧ (getStn blk 47).power ≠ .active ∧
    (getStn blk 47).wakeReq = false ∧ accStn (wacc (stnB 47 + 0x40) 1 su) = some 47 ∧
    writes { blk with mgmt := { Mgmt.reset with m2hValid := true } } (mboxB + 0xB4) 0 .mbox (fun _ => true) = true ∧
    writes blk (hcntB + 0x40) 1 .hcnt (fun _ => true) = true ∧ bit (rget (counted blk) (hcntB + 0x40)) 0 = false ∧
    writes blk (hcntB + 0x40) 0 .hcnt (fun _ => true) = true := by decide +kernel

/-- Each reason to refuse an access (R26, R31 to R33, R40). -/
theorem test_refused_meets :
    accFate Params.reset blk (wacc 0xFFF000 1 su) = .perform ∧ pageAt Params.reset 0xFFF000 = none ∧
    accFate Params.reset blk (wacc (pwrB + 0x40) 1 su) = .perform ∧ pageAt Params.reset (pwrB + 0x40) = some .pwr ∧
    (let b := counted { blk with ref := { Referee.reset with dead := true } }
     isDead b = true ∧ deadWrite .pwr 0x40 = false) ∧
    isDead (counted blk) = false ∧ admits (counted blk) (wacc (pwrB + 0x40) 1 { su with priv := false }) .pwr = false ∧
    admits (counted blk) (wacc (pwrB + 0x40) 1 { su with strb := 0 }) .pwr = true ∧
    admits (counted blk) (wacc (pwrB + 0x40) 1 { su with strb := 7 }) .pwr = true ∧
    pageRow .pwr 0xFFC = none ∧ (pageRow .pwr 0).any (·.roAll) = true ∧
    (pageRow (.chan 0) 0x80C).any (fun r => !r.roAll && r.pair = 0 &&
      (judge Params.reset (counted (chBlk chan0)) (.chan 0) [(0x80C, r, 7)]).isSome) = true := by
  decide +kernel

/-! ## Links -/

def ptBlk (x : Port) : Block := { blk with
  ports := [(3, x)], regs := [(linkB + 8, 1), (lportB 3 + 8, 1), (linkB + 0x40, BitVec.ofNat 32 (1 + 2 ^ 5))] }
def up0 : Port := { Port.reset with st := .up }

/-- A HELLO of the partner on a torus of 2 × 2 chips that is right, and one with another version (R289, R301). -/
theorem test_portStates_meets :
    linkOk (ptBlk up0) = true ∧ (getPort (ptBlk { up0 with closing := true }) 3).closing = true ∧ up0.replay = [] ∧ up0.outQ = [] ∧
    (getPort (ptBlk { Port.reset with st := .train }) 3).st = .train ∧ (getPort (ptBlk { Port.reset with st := .sync }) 3).st = .sync ∧
    (let b := ptBlk { Port.reset with st := .sync }
     helloOk b 3 ((helloOf b 3).h0.toNat % 2 ^ 6 + neighbour b (myX b) (myY b) 3 * 2 ^ 6 + (topoX b - 1) * 2 ^ 16 +
       (topoY b - 1) * 2 ^ 21 + cabledPort b 3 * 2 ^ 26 + 2 ^ 28) = true ∧ helloOk b 3 0 = false) := by decide +kernel

def flit0 (vc : Nat) (seq : Nat) : SLine := mkFlit (BitVec.ofNat 16 seq) 0 vc false false 0 0 []

/-- The next flit, an idle one, one whose CRC is another's, one of a reserved channel and one out of sequence (R284 to R286). -/
theorem test_flits_meets :
    (let w := (flit0 4 0).toNat
     bits w 2047 1984 = flitCrc w ∧ lcwBad w = false ∧ lcwVc w ≠ 7 ∧ lcwSeq w = up0.rxNext ∧ flitCrc (w + 1) ≠ flitCrc w) ∧
    (let w := (flit0 7 9).toNat
     bits w 2047 1984 = flitCrc w ∧ lcwBad w = false ∧ lcwVc w = 7) ∧
    lcwBad (flit0 5 0).toNat = true ∧ (lcwVc (flit0 0 1).toNat ≠ 7 ∧ lcwSeq (flit0 0 1).toNat ≠ up0.rxNext) ∧
    linkOk (ptBlk up0) = true ∧ hubOn (ptBlk up0) = true ∧
    isDead { ptBlk up0 with ref := { Referee.reset with dead := true } } = true := by decide +kernel

/-- R285: the check value of the CRC of the bytes of "123456789", and the reflected form of its polynomial. -/
theorem test_crc64 : crc64 [0x31, 0x32, 0x33, 0x34, 0x35, 0x36, 0x37, 0x38, 0x39] = 0x995DC9BBDF1939FA ∧
    reflect 64 crcPoly = crcPolyR := by decide +kernel

/-- ACK of two of three flits, across the wrap of the sequence number, of none, and one past the last sent (R286). -/
theorem test_ack_meets :
    let f (seq : BitVec 16) : TxFlit := { seq := seq, vc := 4, shared := false, crvc := 0, credits := 0, pkts := [] }
    let pt : Port := { up0 with txAcked := 0xFFFE, txNext := 2, replay := [f 0xFFFF, f 0, f 1] }
    (takeAck pt 0).replay = [f 1] ∧ (takeAck pt 0).txAcked = 0 ∧ (takeAck pt 0xFFFE).replay.length = 3 ∧
      (takeAck pt 2).replay.length = 3 := by decide +kernel

def pkt0 (typ tag : Nat) : Packet := { h0 := BitVec.ofNat 64 (typ + tag * 2 ^ 40), h1 := 0, mask := 1, data := 0 }
/-- A window that is enabled for reads and writes, whose 128 bytes lie in MEM of station 0. -/
def win0 : Nat := 7 + 128 * 2 ^ 64

theorem test_packets_meets :
    (let e (typ tag win : Nat) : InPkt := { vc := 1, pkt := pkt0 typ tag, win := win, pools := [1] }
     let b := ptBlk { up0 with inQ := [e 0 0 win0, e 1 0 win0, e 2 1023 0, e 3 1024 0] }
     linkOk b = true ∧ (takeIn b 3 0 0).map (·.1) = some (e 0 0 win0, some (pkt0 0 0)) ∧
       (takeIn b 3 0 1).map (·.1) = some (e 0 0 win0, none) ∧ inOffside Params.reset (pkt0 0 0) win0 = false ∧
       (takeIn b 3 1 0).map (·.1) = some (e 1 0 win0, some (pkt0 1 0)) ∧ inOffside Params.reset (pkt0 1 0) win0 = false ∧
       inUnavail Params.reset b (pkt0 0 0) win0 = false ∧ inUnavail Params.reset b (pkt0 1 0) win0 = false ∧
       inOffside Params.reset (pkt0 0 0) 0 = true ∧ inOffside Params.reset (pkt0 1 0) 0 = true ∧
       (takeIn b 3 2 0).map (·.1) = some (e 2 1023 0, some (pkt0 2 1023)) ∧ (takeIn b 3 2 1).map (·.1) = some (e 2 1023 0, none) ∧ pktTag (pkt0 2 1023) < 1024 ∧
       (takeIn b 3 3 0).map (·.1) = some (e 3 1024 0, some (pkt0 3 1024)) ∧ (takeIn b 3 3 1).map (·.1) = some (e 3 1024 0, none) ∧ 1024 ≤ pktTag (pkt0 3 1024)) ∧
    (tget (getStn (setStn blk 0 { getStn blk 0 with wRdTags := [(1023, rq0)] }) 0).wRdTags 1023).isSome = true := by
  decide +kernel

def gpBlk (g : Gop) : Block := { ptBlk up0 with gops := [(7, g)] }

theorem test_gops_meets :
    linkOk (gpBlk Gop.reset) = true ∧ (getPort (gpBlk Gop.reset) 3).st = .up ∧ swSlot 0x700 = 7 ∧ Gop.reset.st ≠ .failed ∧
    swFail 0x700 = false ∧ Gop.reset.acted = false ∧
    (let a : Acq := { tally := 3, scope := .chip, waits := [] }
     let g : Gop := { Gop.reset with acq := .acquiring a, st := .armed }
     (getGop (gpBlk g) 7).acq = .acquiring a ∧ (getGop (gpBlk g) 7).st = .armed ∧ acqSettled (gpBlk g) a = true) ∧
    (getGop (gpBlk { Gop.reset with reading := true }) 7).reading = true ∧
    ((getGop (gpBlk { Gop.reset with acted := true }) 7).acted = true ∧
      ∀ i < 4, (getPort (gpBlk { Gop.reset with acted := true }) i).st ≠ .train ∧ (getPort (gpBlk { Gop.reset with acted := true }) i).st ≠ .sync) ∧
    (getGop (gpBlk { Gop.reset with st := .gather }) 7).st = .gather := by decide +kernel

/-! ## The vault -/

def obj0 : Obj := { Obj.reset with st := .open, len := 262144, segs := [0], birth := [0] }

/-- A vault of one channel that runs, with object 0, and what a command's progress needs. -/
def vtBlk (x : Obj) (v : Vault) : Block := { blk with
  vault := { v with powered := true, st := .ready, ch := 1, objs := [(0, x)], chans := [(0, VChan.reset)] } }

theorem test_vaultCommands_meets :
    (let b : Block := { vtBlk Obj.reset Vault.reset with regs := [(vaultB + 0x4C, 4096)] }
     blk.vault.st ≠ .ready ∧ b.vault.st = .ready ∧ (getObj b 0).st = .free ∧ rget64 b (vaultB + 0x4C) = 4096 ∧
       (takeSegs par1 b.vault (ceilDiv 4096 (segBytes b.vault.ch)) []).isSome = true) ∧
    (getObj (vtBlk obj0 Vault.reset) 0).st = .open ∧
    (let b := vtBlk { obj0 with closing := true } { Vault.reset with busy := 2 }
     vaultRuns b = true ∧ b.vault.busy = 2 ∧ b.vault.ch ≠ 0 ∧ b.vault.st = .ready ∧ (getObj b b.vault.cmdObj).dirty = [] ∧
       (getObj b b.vault.cmdObj).packed = false) ∧
    (let b := vtBlk { obj0 with st := .deleting } { Vault.reset with busy := 3 }
     vaultRuns b = true ∧ b.vault.busy = 3 ∧ objHeld b b.vault.cmdObj = false) ∧
    (let b : Block := { blk with vault := { Vault.reset with powered := true, st := .mounting } }
     vaultRuns b = true ∧ b.vault.st = .mounting) := by decide +kernel

/-- CLOSE of a PACKED object of one empty block that checks, with room in its segment, with none and no free position, and of
one whose headers do not fit (R332). -/
theorem test_closePacked_meets :
    let x := { obj0 with packed := true, closing := true, blocks := 1, len := 16, headers := [0x20003] }
    let b := vtBlk x { Vault.reset with busy := 2 }
    (getObj b b.vault.cmdObj).packed = true ∧ formOk x = true ∧ formOk { x with len := 17 } = false ∧
      takeSegs par1 b.vault (ceilDiv (x.len + 8 * ceilDiv x.blocks 256) (segBytes b.vault.ch) - x.segs.length) [] = some [] ∧
      takeSegs { par1 with luns := 0 } b.vault 1 [] = none ∧ (placeIndex x).length = ceilDiv 1 256 := by decide +kernel

def vMv : Mv := { mv0 (3 * 2 ^ 4) 0 with sb := 0 }
def vOp : Op := { op0 .move .issue with mv := some vMv }
def vCw (step : Nat) : Cw := { stn := 0, strand := 0, op := 1, obj := 0, cw := 0, step := step, offs := 0, done := false, poison := false, data := [] }
def vrBlk (cws : List Cw) : Block := { vtBlk { obj0 with st := .ready } { Vault.reset with cws := cws } with
  strands := [(0, { strand0 1 0 with ops := [vOp] })]
  stations := [(0, { Station.reset with power := .active, vRdTags := [(1023, { rq0 with mask := 2 ^ 128 - 1 })] })] }

theorem test_vaultReads_meets :
    vaultReady (vrBlk []) = true ∧
    (getStrand (vaultTidy (vrBlk [])) 0 0).ops.find? (fun o => (nextCw (vaultTidy (vrBlk [])) 0 0 o).map (·.2) = some 0) = some vOp ∧
    nextCw (vaultTidy (vrBlk [])) 0 0 vOp = some (0, 0) ∧ chHeld (vaultTidy (vrBlk [])) (0 % 1) = false ∧ blkOfCw (vrBlk []) 0 0 = some (0, 0) ∧ aheadRoom (vaultTidy (vrBlk [])) 0 0 vOp.id = true ∧
    (vrBlk [vCw 1]).vault.cws.find? (fun d => d.stn = 0 && d.strand = 0 && d.cw = 0 && !d.done && 0 < d.step) = some (vCw 1) := by
  decide +kernel
theorem test_vaultTimeouts_meets :
    (vrBlk []).vault.powered = true ∧ (vrBlk []).vault.ch ≠ 0 ∧ isDead (vrBlk []) = false ∧
    tget (getStn (vrBlk []) 0).vRdTags 1023 = some { rq0 with mask := 2 ^ 128 - 1 } ∧ findOp (vrBlk []) 0 0 1 = some vOp ∧
    0 < rbits (countRead (vrBlk [vCw 1]) 0 0) (vaultB + 0x70) 2 0 ∧
    rbits (countRead (vrBlk [vCw 7]) 0 0) (vaultB + 0x70) 2 0 ≤ 7 ∧ 1 < rbits (countRead (vrBlk [vCw 1]) 0 0) (vaultB + 0x70) 2 0 := by
  decide +kernel

def vWr (off mask : Nat) : WrReq := { wr0 [] with va := off, line := off / 128, mask := mask }
def vwBlk (x : Obj) (w : WrReq) : Block := { vtBlk x Vault.reset with
  stations := [(0, { Station.reset with power := .active, vWrTags := [(255, w)] })] }

/-- A line that rewrites a byte, a line past the window, and the last line within it (R329). -/
theorem test_vaultWrites_meets :
    (let x := { obj0 with written := [(0, 1)] }
     isDead (vwBlk x (vWr 0 1)) = false ∧ (vwBlk x (vWr 0 1)).vault.powered = true ∧ (vwBlk x (vWr 0 1)).vault.fenced = false ∧
       tget (getStn (vwBlk x (vWr 0 1)) 0).vWrTags 255 = some (vWr 0 1) ∧ lineDone (getObj (vwBlk x (vWr 0 1)) 0) 0 &&& 1 ≠ 0) ∧
    (lineDone obj0 (2048 * 32) &&& 1 = 0 ∧ obj0.frontier + 2048 ≤ 2048 * 4096 / 4096) ∧
    (lineDone obj0 (2048 * 32 - 1) &&& 1 = 0 ∧ (2048 * 4096 - 128) / 4096 < obj0.frontier + 2048 ∧ obj0.closing = false) ∧
    (let b := vtBlk { obj0 with dirty := [3], closing := true } Vault.reset
     (getObj b 0).dirty.contains 3 = true ∧ (getObj b 0).closing = true ∧ (getObj b 0).st = .open ∧ chHeld b 0 = false) ∧
    (let x := { obj0 with written := (List.range 128).map (fun (i : Nat) => (i, 2 ^ 128 - 1)), dirty := [0] }
     let b : Block := { vtBlk x Vault.reset with ref := { Referee.reset with dead := true } }
     pageFull b.vault.ch (getObj b 0) 0 = true ∧ (getObj b 0).dirty.contains 0 = true ∧ isDead b = true ∧ chHeld b 0 = false) := by
  decide +kernel
/-- A line that waits while the vault mounts, and one of a fenced vault (R320, R331). -/
theorem test_vaultWrites_stop :
    let b := vwBlk obj0 (vWr 0 1)
    b.vault.ch ≠ 0 ∧ { b.vault with st := .mounting }.st = .mounting ∧ { b.vault with fenced := true }.powered = true ∧
      { b.vault with fenced := true }.st ≠ .mounting ∧ b.vault.st = .ready ∧ (b.vault.ch * 1024 - 1) < obj0.segs.length * b.vault.ch * 1024 := by
  decide +kernel

/-- Position 0 with a spare, and with every spare of its plane in use. -/
theorem test_vaultBlocks_meets :
    (let b := vtBlk { obj0 with dirty := [3] } Vault.reset
     vaultRuns b = true ∧ b.vault.ch ≠ 0 ∧ 3 / 1024 % b.vault.ch = 0 ∧ (getObj b 0).segs[3 / 1024 / b.vault.ch]? = some 0 ∧
       (getObj b 0).dirty.contains 3 = true ∧ (freeSpare (getVCh b 0) 0 (posBlk 0)).isSome = true ∧ 0 < posCount par1 ∧
       (getVCh b 0).failed = false ∧ vaultReady b = true) ∧
    freeSpare { VChan.reset with bad := (List.range 88).map (fun (i : Nat) => (i, 936 + i)) } 0 (posBlk 0) = none ∧
    areaBlk 0 0 = false ∧ areaBlk 3 1023 = true ∧ areaBlk 3 3071 = true ∧ metaBlk 0 0 = false ∧ 0 = posBlk 0 := by decide +kernel
theorem test_vaultMoves_meets :
    let b := vtBlk { obj0 with st := .ready, marked := [0] } Vault.reset
    refreshDue b (getObj b 0) 0 = true ∧ 0 < (getObj b 0).segs.length ∧ (getObj b 0).st ≠ .free ∧
      (argmin (posWear b.vault) (freePos par1 b.vault)).isSome = true ∧
      (argmin (fun (e : Nat × Nat × Nat × Nat) => e.2.2.2) (segList b.vault)).isSome = true := by decide +kernel
/-- Segments of two objects whose wear differs by more than the limit (R337). -/
theorem test_wearLevel_meets :
    let b : Block := { blk with
      vault := { Vault.reset with powered := true, st := .ready, ch := 1, objs := [(0, obj0), (1, { obj0 with segs := [1] })],
                                  chans := [(0, { VChan.reset with erases := [(0, 70000)] })] } }
    vaultReady b = true ∧
      (let w := (segList b.vault).map (fun e => posWear b.vault e.2.2.1)
       rbits b (vaultB + 0x7C) 31 16 < w.foldl max 0 - w.foldl min (w.headD 0)) ∧
      (argmin (fun (e : Nat × Nat × Nat × Nat) => e.2.2.2) (segList b.vault)).isSome = true ∧
      (argmax (posWear b.vault) (freePos par1 b.vault)).isSome = true := by decide +kernel

def mgBlk (m : Mgmt) : Block := { vtBlk obj0 Vault.reset with mgmt := m }
def run0 : Mgmt := { Mgmt.reset with st := .running }

/-- The last page of an area, and one past it (R339). -/
theorem test_logQueue_meets :
    (mgBlk run0).mgmt.st = .running ∧ isDead (mgBlk run0) = false ∧ 0 < Params.reset.vaultCh ∧ (mgBlk run0).vault.logOp = none ∧
    4096 % 4096 = 0 ∧ logAreaBytes Params.reset - 4096 + 4096 ≤ logAreaBytes Params.reset ∧ 4096 ≤ logAreaBytes Params.reset ∧
    logAreaBytes Params.reset < logAreaBytes Params.reset + 4096 ∧ (mgBlk run0).vault.powered = true ∧
    { Vault.reset with logOp := some (3, true, 0, 4096) }.logOp = some (3, true, 0, 4096) := by decide +kernel

/-! ## The referee -/

def ev0 (kind : Nat) : Ev := { src := 0, kind := kind, unit := 0xFFFF, addr := 0, detail := 0 }

theorem test_events_meets :
    (let b : Block := { blk with ref := { Referee.reset with pins := [ev0 0x47, ev0 0x42] } }
     b.pwr.boot ≠ .reset ∧ srcPresent Params.reset 0 = true ∧ takePin b.ref.pins 0 = some (ev0 0x47, [ev0 0x42])) ∧
    kindSev 0x54 = 2 ∧ kindSev 0x47 = 0 ∧ (getSrc blk 0).st = .idle ∧ (getSrc blk 0).window = false ∧ escN blk 0 ≠ 1 ∧
    kindSev 0x42 = 1 ∧ majorAct { blk with regs := [(fsR 0 0, 0x100)] } 0 = 1 := by decide +kernel

def rec0 : Rec :=
  { src := 0, cls := 0, kind := 0x47, unit := 0, sev := 1, insvc := false, seq := 0, time := 0, addr := 0, detail := 0 }
theorem test_records_meets :
    let b : Block := { blk with ref := { Referee.reset with srcs := [(59, { Src.reset with hold := [rec0] })] } }
    b.pwr.boot ≠ .reset ∧ b.ref.queue.length < 512 ∧ summarySrc b = none ∧ holdSrc b = some 59 ∧
      (getSrc b 59).hold = rec0 :: [] ∧ b.ref.queue = [] := by decide +kernel

theorem test_fences_meets :
    (let b : Block := { setStn blk 0 { getStn blk 0 with fenced := true } with
        ref := { Referee.reset with srcs := [(0, { Src.reset with fencing := true, window := true })] } }
     (getSrc b 0).window = true ∧ (getSrc b 0).fencing = true ∧ unitStopped b (srcTarget 0) = true ∧ isDead b = false) ∧
    (let b : Block := { blk with ref := { Referee.reset with dead := true } }
     isDead b = true ∧ 47 < Params.reset.stations ∧ inTransition b 47 = false ∧ b.ref.safe = false ∧
       ∀ i < Params.reset.linkPorts, (getPort b i).st ≠ .up ∨ (getPort b i).stopSent = true) := by decide +kernel

theorem test_resetsAndCodes_meets :
    (let st : Station := { Station.reset with power := .active, resetting := 1 }
     (getStn (setStn blk 0 st) 0).resetting = 1 ∧ st.haz = [] ∧ liveWr st.wrTags = [] ∧ liveWr st.wWrTags = [] ∧
       liveWr st.vWrTags = [] ∧ st.nearWr = [] ∧ st.barReq = [] ∧ st.barriers = []) ∧
    pageAt Params.reset (stnB 0) = some (.stn 0) ∧ (getStn (setStn blk 0 { Station.reset with resetting := 2 }) 0).resetting = 2 ∧
    pageAt Params.reset hcntB = some .hcnt ∧ pageResetting { blk with regs := [(hcntB + 8, 4)] } .hcnt = true ∧
    blk.pwr.boot ≠ .reset ∧ (cfgB + 0x10) % 4 = 0 ∧ pageAt Params.reset (cfgB + 0x10) = some .cfg ∧
    (pageRow .cfg 0x10).any (fun r => r.pair = 0) = true := by decide +kernel

/-! ## Power and management -/

theorem test_power_meets :
    (stnIdle blk 0 = true ∧ noLull blk 0 = false ∧ noOff blk 0 = false ∧ stnWake blk 0 = false ∧ isDead blk = false) ∧
    (getStn blk 0).power = .active ∧
    (let b : Block := { setStn blk 0 { Station.reset with power := .lull, wakeReq := true } with regs := [(pwrB + 0x40, 0x10001)] }
     (getStn b 0).power = .lull ∧ rbits b (pwrB + 0x40) 31 16 ≠ 0 ∧ (getStn b 0).wakeReq = true) ∧
    (let b : Block := { Block.reset with pwr := { blk.pwr with hubOn := true }, regs := [(pwrB + 0x44, 1)] }
     b.pwr.hubOn = true ∧ b.pwr.hubGoingUp = false ∧ hubIdle Params.reset b = true ∧ isDead b = false) ∧
    (let b : Block := { blk with pwr := { blk.pwr with hubOn := false }, irqs := [1] }
     b.pwr.boot = .hubReady ∧ b.pwr.hubOn = false ∧ isDead b = false ∧ hubWanted b = true) := by decide +kernel
/-- A station in each state a transition leaves from, and a management core that is down (R19, R20). -/
theorem test_transitions_meet :
    mgmtDown blk = false ∧ mgmtDown { blk with mgmt := { Mgmt.reset with st := .rom, reason := 2 } } = true ∧ (getStn blk 0).wakeReq = false ∧
    [Power.toLull, .toOff, .thawLull, .thawOff, .off].all (fun x =>
      decide ((getStn (setStn blk 47 { Station.reset with power := x, wakeReq := true }) 47).power = x ∧
        (getStn (setStn blk 47 { Station.reset with power := x, wakeReq := true }) 47).wakeReq = true)) = true ∧
    47 < Params.reset.stations ∧ { blk.pwr with hubGoingUp := true }.hubGoingUp = true := by decide +kernel

def grBlk (x : Group) (r : List (Nat × Word)) : Block := { blk with pwr := { blk.pwr with groups := x :: List.replicate 5 Group.reset }, regs := r }

theorem test_points_meets :
    pllOn Params.reset blk 0 = true ∧ (grpStations Params.reset 0).any (inTransition blk) = false ∧ 0 < grpCount Params.reset ∧
    (let b := grBlk { Group.reset with cur := 3, capT := 1 } [(grpR 0, 3)]
     opTarget b 0 < (getGrp b 0).cur ∧ (getGrp b 0).capT < 3 ∧ (getGrp b 0).hot = [] ∧ 0 < b.pwr.groups.length ∧
       (recentDroops b 0).length ≤ rbits b (pwrB + 0x70) 31 16 ∧ b.pwr.boot ≠ .reset) ∧
    (let b := grBlk { Group.reset with cur := 0 } [(grpR 0, 3)]
     (getGrp b 0).cur < opTarget b 0 ∧ (getGrp b 0).req = none ∧ rbit b (grpR 0) 9 = false) ∧
    (getGrp (grBlk { Group.reset with req := some 3 } []) 0).req = some 3 ∧
    senseExists Params.reset 51 = true ∧ senseExists Params.reset 47 = true ∧ clockRuns Params.reset blk 9 = true := by decide +kernel

def msg0 (code : Nat) (data : List Word) : Msg := { code := code, seq := 1, result := 0, data := data }
def tkBlk (code : Nat) (data : List Word) : Block := mgBlk { run0 with taken := some (msg0 code data), update := some 1024 }
def log0 : LogRec := { seq := 7, typ := 5, sev := 1, src := 0, boot := 0, time := 0, w2 := 0, w3 := 0 }

theorem test_torvyo_meets :
    (let b : Block := { mgBlk { run0 with h2mFull := true } with regs := [(mboxB + 0x70, 13)] }
     b.mgmt.st = .running ∧ b.mgmt.h2mFull = true ∧ b.mgmt.taken = none ∧ rbits b (mboxB + 0x70) 7 0 = 13) ∧
    (tkBlk 1 []).mgmt.taken = some (msg0 1 []) ∧ (tkBlk 13 []).mgmt.taken = some (msg0 13 []) ∧
    [log0].find? (fun r => r.seq % 2 ^ 32 = arg (msg0 4 [7]) 0) = some log0 ∧ arg (msg0 6 [0]) 0 = 0 ∧
    vaultUsable Params.reset (tkBlk 7 [1024]) = true ∧ imgLenOk (arg (msg0 7 [1024]) 0) = true ∧
    (tkBlk 8 [1020, 1]).mgmt.update = some 1024 ∧ (msg0 8 [1020, 1]).data ≠ [] ∧
    arg (msg0 8 [1020, 1]) 0 + (wordBytes ((msg0 8 [1020, 1]).data.drop 1)).length ≤ 1024 ∧
    512 ≤ uncopied { run0 with log := List.replicate 512 log0 } ∧ [log0][0]? = some log0 ∧ run0.logCopied ≤ log0.seq := by decide +kernel

theorem test_notices_meets :
    (msg0 0x81 [0, 7]).code = 0x81 ∧ arg (msg0 0x81 [0, 7]) 1 = (7 : BitVec 3).toNat ∧ (msg0 0x83 [3]).code = 0x83 ∧
    arg (msg0 0x83 [3]) 0 = (3 : BitVec 2).toNat ∧ [log0].find? (fun r => r.seq = 7) = some log0 ∧ log0.sev ≠ 0 ∧
    run0.st = .running ∧ logOk true 0x7F 3 = true ∧ logOk false 5 1 = true ∧ (mgBlk run0).pwr.boot ≠ .reset ∧
    { run0 with budget := 1000 }.budget ≠ 0 ∧ blk.pwr.groups.length = 6 ∧ Params.reset.legal = true ∧ par1.legal = true ∧
    run0.st ≠ .reset ∧ run0.st ≠ .halted ∧ { run0 with wdog := true }.wdog = true ∧
    (let b := mgBlk { Mgmt.reset with st := .rom }
     b.mgmt.st = .rom ∧ b.pwr.key = 0 ∧ b.mgmt.recover = false ∧ b.vault.powered = true ∧ b.vault.st = .ready) := by
  decide +kernel

/-- An image of 1,024 bytes, version 7, ENTRY 0x100, signed with an ECDSA P-384 key made for this test outside the model. -/
def image0 : Tab Byte :=
  [(0, 84), (1, 86), (2, 89), (3, 79), (4, 7), (9, 4), (13, 1), (16, 14), (17, 42), (18, 109), (19, 236),
    (20, 157), (21, 43), (22, 102), (23, 6), (24, 143), (25, 68), (26, 214), (27, 98), (28, 48), (29, 49),
    (30, 100), (31, 104), (32, 248), (33, 121), (34, 6), (35, 43), (37, 98), (38, 246), (39, 230), (40, 76),
    (41, 129), (42, 38), (43, 62), (44, 239), (45, 39), (46, 200), (47, 9), (48, 128), (49, 194), (50, 185),
    (51, 221), (52, 208), (53, 67), (54, 76), (55, 2), (56, 189), (57, 90)] ++
  [(58, 55), (59, 89), (60, 176), (61, 105), (62, 146), (63, 15), (64, 107), (65, 159), (66, 57), (67, 103),
    (68, 183), (69, 140), (70, 215), (71, 230), (72, 69), (73, 50), (74, 161), (75, 150), (76, 19), (77, 51),
    (78, 223), (79, 43), (80, 12), (81, 11), (82, 180), (83, 147), (84, 93), (85, 151), (86, 85), (87, 36),
    (88, 151), (89, 22), (90, 86), (91, 24), (92, 125), (93, 194), (94, 81), (95, 59), (96, 231), (97, 128),
    (98, 160), (99, 161), (100, 27), (101, 133), (102, 84), (103, 153), (104, 4), (105, 57)] ++
  [(106, 98), (107, 195), (108, 95), (109, 144), (110, 179), (111, 8), (112, 118), (113, 36), (114, 24),
    (115, 24), (116, 254), (117, 194), (118, 125), (119, 100), (120, 209), (121, 215), (122, 43), (123, 75),
    (124, 252), (125, 244), (126, 45), (127, 165), (128, 2), (129, 80), (130, 170), (131, 235), (132, 54),
    (133, 82), (134, 193), (135, 127), (136, 177), (137, 36), (138, 127), (139, 252), (140, 26), (141, 253),
    (142, 40), (143, 106), (144, 90), (145, 173), (146, 98), (147, 140), (148, 228), (149, 58), (150, 215),
    (151, 126), (152, 244), (153, 2)] ++
  [(154, 87), (155, 102), (156, 13), (157, 141), (158, 19), (159, 69), (160, 151), (161, 8), (162, 155),
    (163, 37), (164, 30), (165, 226), (166, 185), (167, 226), (168, 10), (169, 184), (170, 51), (171, 118),
    (172, 50), (173, 13), (174, 110), (175, 148), (176, 26), (177, 43), (178, 142), (179, 222), (180, 122),
    (181, 100), (182, 76), (183, 113), (184, 230), (185, 1), (186, 122), (187, 110), (188, 8), (189, 150),
    (190, 38), (191, 189), (192, 49), (193, 100), (194, 130), (195, 159), (196, 13), (197, 8), (198, 28),
    (199, 169), (200, 237), (201, 157)] ++
  [(202, 226), (203, 186), (204, 8), (205, 211), (206, 81), (207, 12)]

/-- The hash of the test's key. -/
def key0 : BitVec 384 := 0x2a7ee2a260f6abbad5ec60b41309a0a2d943bf200929b64a0323fcbf9f578f13ae91df818c1ebfa40a2f9e85f9e1eeed

theorem test_image_head : imgHeadOk image0 196608 = true ∧ imgWord image0 8 = 1024 ∧ image0 ≠ [] ∧ key0 ≠ 0 ∧
    image0.filter (fun e => e.1 < 196608) = image0 := by decide +kernel
theorem test_image_signed : imgSigned key0 image0 1024 = true := by decide +kernel
/-- R384: a key whose hash is not the one burnt signs nothing. -/
theorem test_image_other_key : imgSigned (key0 + 1) image0 1024 = false := by decide +kernel
/-- SHA-384 of "abc", the example of FIPS 180-4. -/
theorem test_sha384 : sha384 [97, 98, 99] = 0xcb00753f45a35e8bb5a03d699ac65007272c32ab0eded1631a8b605a43ff5bed8086072ba1e7cc2358baeca134c825a7 := by
  decide +kernel

/-! ## Counters, resets, the queue -/

theorem test_window_meets :
    let b : Block := { blk with regs := [(cntAddr .hub 15, 0x200)], aoTime := 50000 }
    cntPresent Params.reset .hub = true ∧ 15 < cntNum .hub ∧ rbit b (cntAddr .hub 15) 9 = true ∧ cntHeld b .hub = false ∧
      b.aoTime % (50 * (getCnt b .hub 15).win) = 0 := by decide +kernel

theorem test_startUp_meets :
    State.reset.b.pwr.boot = .reset ∧ State.reset.tap.instr = 0 ∧
    (let b : Block := { Block.reset with pwr := { Pwr.reset with boot := .aoReady } }
     b.pwr.boot = .aoReady ∧ b.mgmt.st = .reset ∧ b.cfg.held = []) := by decide +kernel

theorem test_step_runs_front :
    (match step { stt blk with pending := [.safeTimeout, .ping] } with
     | .next t => decide (t.pending = [.ping])
     | _ => false) = true ∧
    (match step State.reset with
     | .next t => decide (t.b.aoTime = 1 ∧ t.b.ponTime = 1)
     | _ => false) = true := by decide +kernel

/-- A safe state in dead ball, whose commands of the units it holds change nothing. -/
theorem test_dead_meets :
    let s : State := { stt { blk with ref := { Referee.reset with dead := true } } with pending := [.nop 0] }
    s.safe = true ∧ isDead s.b = true ∧ heldInDeadBall (.nop 0) = true ∧ heldInDeadBall (.capRaise 5) = true := by decide +kernel

/-- Each family of the frames names commands. -/
theorem test_families_meets :
    moverCommand (.nop 0) = true ∧ channelCommand (.entryDispatch 0 0) = true ∧ tallyCommand (.signalFire 0 0) = true ∧
    dataCommand (.nearSlot 0 0 0) = true ∧ xlatCommand (.batchClose 0) = true ∧ portCommand (.linkUp 0) = true ∧
    packetCommand (.wr 0 0) = true ∧ powerCommand (.thaw 0) = true ∧ mgmtCommand .ping = true ∧ vaultCommand .wearLevel = true := by
  decide

/-! ## The spec's worked examples -/

/-- R32, R39: the FROZEN write of the register pages' example leaves 0x000B0003. -/
theorem test_example_frozen_write :
    accInfo (wacc 0x154040 1 { su with req := 3 }) 2 0 = 0x000B0003 ∧ pageOf 0x154040 = some (.shp 5) := by decide +kernel
/-- R26, R28: the two addresses of the example, and the PAGE_ID and SUBIDX that the doorbell page reads. -/
theorem test_example_decode :
    pageAt Params.reset 0x4B1000 = some (.dbell 5 17) ∧ pageAt Params.reset 0x12B040 = none ∧
    readReg Params.reset blk (.dbell 5 17) 0 = 0x20050102 ∧ bits (readReg Params.reset blk (.dbell 5 17) 4) 31 24 = 17 := by
  decide +kernel
/-- R42: HUB_CONFIG of Bunar-8 with two link ports and no vault, whose other link pages do not decode. -/
theorem test_example_bunar8 :
    (let p : Params := { Params.reset with stations := 8, linkPorts := 2, vaultCh := 0 }
     readReg p blk .hub 0x40 = 0x88 ∧ pageAt p (lportB 2) = none ∧ pageAt p vaultB = none ∧ (pageAt p (lportB 1)).isSome = true) := by
  decide +kernel
/-- R353: Q0 of record 106 of the referee's example. -/
theorem test_example_record : recQ0
    { src := 5, cls := 1, kind := 0x40, unit := 12, sev := 1, insvc := true, seq := 106, time := 700000, addr := 0, detail := 0 } = 0x0000006A500C4045 := by decide +kernel
/-- R288, R291: the write across the dateline: its H0 and H1, and the port and virtual channel of its first and fourth link. -/
theorem test_example_dateline :
    let b (x : Nat) : Block := { blk with regs := [(linkB + 0x40, BitVec.ofNat 32 (31 + 31 * 2 ^ 5 + x * 2 ^ 10 + 5 * 2 ^ 15))] }
    let k := mkRequest (b 3) true 12 190 17 0x120000 5 (2 ^ 128 - 1) 0 0
    k.h0 = 0x0000053044A32F80 ∧ k.h1 = 0x120000 ∧ myChip (b 3) = 163 ∧ routePort (b 3) 190 = some 1 ∧
      hopVc (b 3) 4 0 1 k = 0 ∧ hopVc (b 0) 0 0 1 k = 1 := by decide +kernel
/-- R128: SWAP BW of 0x01020307. -/
theorem test_example_swap : swapElem 2 32 0x01020307 = 0x07030201 ∧ swapElem 4 64 0x0102030405060708 = 0x0807060504030201 := by
  decide +kernel
/-- R322, R323: where the line of the vault's example lies. -/
theorem test_example_vault_line :
    segBytes 128 = 0x80000000 ∧ 0x123456780 / segBytes 128 = 2 ∧ 0x123456780 % segBytes 128 / cwBytes = 0x23456 ∧
    0x23456 % 128 = 86 ∧ 0x780 / 128 = 15 := by decide +kernel

/-! ## Ill-formed commands -/

/-- Each operand just past its range, and at its last value. -/
theorem test_wf_station : (Instr.nop 48).wf = false ∧ (Instr.nop 47).wf = true := by decide
theorem test_wf_channel : (Instr.entryDispatch 0 32).wf = false ∧ (Instr.entryDispatch 47 31).wf = true := by decide
theorem test_wf_strand : (Instr.entryComplete 0 256).wf = false ∧ (Instr.entryComplete 47 255).wf = true := by decide
theorem test_wf_tag : (Instr.rdTimeout 0 1024).wf = false ∧ (Instr.rdTimeout 0 1023).wf = true := by decide
theorem test_wf_completion : (Instr.writeCompletion none 256 0).wf = false ∧ (Instr.writeCompletion none 255 0).wf = true ∧
    (Instr.writeCompletion (some 48) 0 0).wf = false ∧ (Instr.writeCompletion (some 0) 1024 0).wf = false := by decide
theorem test_wf_landTimeout : (Instr.landTimeout 0 2048).wf = false ∧ (Instr.landTimeout 0 2047).wf = true := by decide
theorem test_wf_partition : (Instr.batchClose 16).wf = false ∧ (Instr.batchClose 15).wf = true := by decide
theorem test_wf_address : (Instr.walkRequest 0 (2 ^ 57)).wf = false ∧ (Instr.walkRequest 0 (2 ^ 57 - 1)).wf = true := by decide +kernel
theorem test_wf_line : (Instr.instructionLineReturn 0 0 64 0 ⟨0, 0, 0⟩).wf = false ∧
    (Instr.instructionLineReturn 0 0 128 0 ⟨0, 0, 0⟩).wf = true := by decide +kernel
theorem test_wf_port : (Instr.linkUp 4).wf = false ∧ (Instr.linkUp 3).wf = true := by decide
theorem test_wf_slot : (Instr.gopTimeout 8).wf = false ∧ (Instr.gopTimeout 7).wf = true := by decide
theorem test_wf_object : (Instr.create 4096 su).wf = false ∧ (Instr.create 4095 su).wf = true := by decide
theorem test_wf_vaultChannel : (Instr.eraseFail 128 0).wf = false ∧ (Instr.eraseFail 127 0).wf = true := by decide
theorem test_wf_source : (Instr.fenceTimeout 60).wf = false ∧ (Instr.fenceTimeout 59).wf = true := by decide
theorem test_wf_group : (Instr.capRaise 6).wf = false ∧ (Instr.capRaise 5).wf = true := by decide
theorem test_wf_page : (Instr.lock 0x1004 su).wf = false ∧ (Instr.lock 0x1000 su).wf = true := by decide
theorem test_wf_tally : (Instr.tallyPoison 32768).wf = false ∧ (Instr.tallyPoison 32767).wf = true := by decide
theorem test_wf_walkGroup : (Instr.walkDone 0 0 (List.replicate 17 te0) false).wf = false ∧
    (Instr.walkDone 0 0 (List.replicate 16 te0) false).wf = true := by decide +kernel
theorem test_wf_retry : (Instr.retryWalk 0 (2 ^ 32) [] false).wf = false ∧ (Instr.retryWalk 0 (2 ^ 32 - 1) [] false).wf = true := by
  decide +kernel
theorem test_wf_flit : (Instr.flitReceive 4 0 false false).wf = false ∧ (Instr.flitReceive 3 0 false false).wf = true := by
  decide +kernel
theorem test_wf_table : (Instr.commitStart 0 (List.replicate 65537 te0) false).wf = false ∧
    (Instr.commitStart 0 (List.replicate 65536 te0) false).wf = true := by
  simp only [Instr.wf, List.length_replicate]
  decide
def meta0 (obj st len : Nat) : MetaObj :=
  { obj := obj, st := st, packed := false, parts := 0, gen := 0, len := len, blocks := 0, segs := [], headers := [], poison := [],
    birth := [], frontier := 0, written := [] }
theorem test_wf_mount :
    (Instr.mount true (some { objs := [meta0 4096 0 0], bad := [], erases := [], retired := [] })).wf = false ∧
    (Instr.mount true (some { objs := [meta0 0 16 0], bad := [], erases := [], retired := [] })).wf = false ∧
    (Instr.mount true (some { objs := [meta0 0 0 (2 ^ 44 + 1)], bad := [], erases := [], retired := [] })).wf = false ∧
    (Instr.mount true (some { objs := [meta0 4095 15 (2 ^ 44)], bad := [], erases := [], retired := [] })).wf = true := by decide +kernel
theorem test_wf_codeword : (Instr.codewordDecoded 0 0 0 true [0]).wf = false ∧ (Instr.codewordDecoded 0 0 0 false []).wf = true ∧
    (Instr.rallyStep 0 0 0 true (List.replicate 32 0)).wf = true := by decide +kernel
theorem test_wf_nearRead : (Instr.nearReadData 0 0 ⟨0, 0, 0⟩ 5 false).wf = false ∧ (Instr.nearReadData 0 0 ⟨0, 0, 0⟩ 4 false).wf = true := by
  decide +kernel
theorem test_wf_log : (Instr.logAppend true { typ := 11, sev := 0, src := 0, w2 := 0, w3 := 0 }).wf = false ∧
    (Instr.logAppend true { typ := 1, sev := 4, src := 0, w2 := 0, w3 := 0 }).wf = false ∧
    (Instr.logAppend true { typ := 127, sev := 3, src := 64, w2 := 0, w3 := 0 }).wf = false ∧
    (Instr.logAppend true { typ := 127, sev := 3, src := 63, w2 := 0, w3 := 0 }).wf = true := by decide
theorem test_wf_sensor : (Instr.thermalSample 52 0).wf = false ∧ (Instr.thermalSample 51 0).wf = true ∧
    (Instr.clockMonitorTrip 11).wf = false ∧ (Instr.clockMonitorTrip 10).wf = true := by decide
theorem test_wf_counter : (Instr.windowBoundary (.station 0) 8).wf = false ∧ (Instr.windowBoundary .hub 16).wf = false ∧
    (Instr.windowBoundary (.port 3) 4).wf = false ∧ (Instr.windowBoundary .vault 4).wf = false ∧
    (Instr.windowBoundary .hub 15).wf = true := by decide

end Sys2Proof.Tests
end

section
/-! SUPPORT. What every command and every step does to the parts of the state beside the block: the parameters, the queue and
the test wrapper (R437, R438). From it, that a safe state stays safe. -/
namespace Sys2Proof.Machine

/-! ## The test wrapper -/

/-- What a command may do to the test wrapper and to RESET_N: leave both, bring WS_BYPASS back (R387), release RESET_N
while the wrapper does not hold the chip (R388), or load an instruction (R438). -/
inductive WrapperMove : Tap → Tap → Prop
  | hold (w : Tap) : WrapperMove w w
  | bypass (w : Tap) (resetN : Bool) : WrapperMove w { instr := 0, resetN := resetN }
  | release (w : Tap) (free : wrapTest w.instr = false) : WrapperMove w { w with resetN := true }
  | load (w : Tap) (code : Nat) : WrapperMove w { w with instr := wrapCode w.resetN code }

/-- The wrapper's rule of R438 in words of `wrapTest`: a listed instruction, and a test instruction only under RESET_N. -/
theorem Tap.ok_iff (w : Tap) : w.ok = true ↔ w.instr ≤ 5 ∧ (wrapTest w.instr = true → w.resetN = false) := by
  simp only [Tap.ok, wrapTest, Bool.or_eq_true, Bool.and_eq_true, decide_eq_true_eq, Bool.not_eq_true']
  constructor
  · rintro ((h | h) | ⟨h, hr⟩)
    · omega
    · omega
    · exact ⟨h, fun _ => hr⟩
  · rintro ⟨h, hr⟩
    by_cases hw : 1 ≤ w.instr ∧ w.instr ≤ 4
    · exact .inr ⟨h, hr hw⟩
    · omega

/-- Loading never leaves a test instruction in force while RESET_N is 1. -/
theorem ok_wrapCode (resetN : Bool) (code : Nat) : Tap.ok { instr := wrapCode resetN code, resetN := resetN } = true := by
  rw [Tap.ok_iff]
  unfold wrapCode
  split
  · exact ⟨Nat.le_refl 5, by simp [wrapTest]⟩
  · split
    next h =>
      simp only [wrapTest, Bool.and_eq_true, decide_eq_true_eq, Bool.not_eq_true'] at h
      exact ⟨by dsimp only; omega, fun _ => h.2⟩
    next => exact ⟨by simp, by simp [wrapTest]⟩

theorem WrapperMove.ok {w w' : Tap} (h : WrapperMove w w') (hw : w.ok = true) : w'.ok = true := by
  cases h with
  | hold => exact hw
  | bypass resetN => simp [Tap.ok]
  | release free =>
    obtain ⟨hle, -⟩ := (Tap.ok_iff w).1 hw
    exact (Tap.ok_iff _).2 ⟨hle, fun held => by simp [free] at held⟩
  | load code => exact ok_wrapCode w.resetN code

/-! ## Every command and every step -/

/-- Every command answers a state that differs in the block and the wrapper only: all commands but the two resets, AO_READY
and WRAPPER_INSTRUCTION_LOAD are effects on the block. -/
theorem exec_next (c : Instr) (s : State) :
    ∃ b w, exec c s = .next { s with b := b, tap := w } ∧ WrapperMove s.tap w := by
  cases c with
  | powerOnReset key => exact ⟨_, _, rfl, .bypass _ _⟩
  | fullReset => exact ⟨_, _, rfl, .bypass _ _⟩
  | wrapperInstructionLoad code => exact ⟨_, _, rfl, .load _ _⟩
  | aoReady =>
    show ∃ b w, execAoReady s = _ ∧ _
    unfold execAoReady
    split
    next h => exact ⟨_, _, rfl, .release _ (by simpa using h.2)⟩
    next => exact ⟨_, _, rfl, .hold _⟩
  | _ => exact ⟨_, _, rfl, .hold _⟩

/-- A step keeps the parameters, moves the wrapper as a command may, and takes at most the front of the queue. -/
theorem step_frame {s t : State} (h : step s = .next t) :
    t.par = s.par ∧ WrapperMove s.tap t.tap ∧ t.pending = s.pending.tail := by
  unfold step at h
  split at h
  next hq =>
    cases h
    exact ⟨rfl, .hold _, by simp [onBlock, hq]⟩
  next c rest hq =>
    obtain ⟨b, w, he, hw⟩ := exec_next c { s with pending := rest }
    cases he.symm.trans h
    exact ⟨rfl, hw, by simp [hq]⟩

theorem State.safe_iff (s : State) :
    s.safe = true ↔ s.par.legal = true ∧ s.tap.ok = true ∧ ∀ c ∈ s.pending, c.wf = true := by
  simp [State.safe, and_assoc]

/-- Settles O54: a step keeps each of the three parts of safety, by what it does to the parameters, the wrapper and the
queue. -/
theorem safeKept : Obligations.SafeKept := by
  intro s t hs hstep
  rw [State.safe_iff] at hs ⊢
  obtain ⟨hpar, htap, hqueue⟩ := hs
  obtain ⟨par, move, queue⟩ := step_frame hstep
  refine ⟨par ▸ hpar, move.ok htap, fun c hc => hqueue c ?_⟩
  rw [queue] at hc
  exact List.mem_of_mem_tail hc

/-! ## Reset -/

theorem legal_reset : Params.reset.legal = true := by
  simp [Params.legal, Params.reset]

/-- Settles O53: the reset parameters are those of Bunar-48, the wrapper holds WS_BYPASS and no command waits. -/
theorem resetSafe : Obligations.ResetSafe :=
  (State.safe_iff _).2 ⟨legal_reset, rfl, by simp [State.reset]⟩

end Sys2Proof.Machine
end

section
/-! SUPPORT. The vault's blocks: what each of their commands does when it is ready, and what a failed block leaves (R18, R324,
R334 to R338, R342). -/
namespace Sys2Proof.Machine

/-! ## Commands by their condition -/

theorem exec_programFail (obj page ch : Nat) (s : State) :
    exec (.programFail obj page ch) s = .next (s.put (if vaultReady s.b && s.b.vault.ch ≠ 0 && ch = page / 1024 % s.b.vault.ch
      then progFail s.par s.b obj page ch else s.b)) := rfl

theorem exec_eraseFail (ch blk : Nat) (s : State) :
    exec (.eraseFail ch blk) s = .next (s.put (if s.b.vault.powered && ch < s.par.vaultCh && blk < s.par.luns * 4096 then
      (if areaBlk ch blk then logErased s.b false
        else if s.b.vault.fenced || isDead s.b || decide (s.b.vault.ch ≤ ch) then s.b
        else fmtStep s.par (blkFails s.b ch blk) ch blk) else s.b)) := rfl

theorem exec_vaultChannelFailed (ch : Nat) (s : State) :
    exec (.vaultChannelFailed ch) s = .next (s.put (if s.b.vault.powered && ch < s.par.vaultCh && !(getVCh s.b ch).failed then
      vaultEv (modVCh s.b ch (fun c => { c with failed := true })) 0x50 3 else s.b)) := rfl

theorem exec_scrubRead (obj seg cw : Nat) (hi ue : Bool) (s : State) :
    exec (.scrubRead obj seg cw hi ue) s = .next (s.put (if vaultReady s.b && s.b.vault.ch ≠ 0 && scrubTurn s.b obj seg cw
      then scrub s.b obj seg cw hi ue else s.b)) := rfl

theorem exec_refresh (obj seg : Nat) (s : State) :
    exec (.refresh obj seg) s = .next (s.put (if vaultReady s.b then refreshSeg s.par s.b obj seg else s.b)) := rfl

theorem exec_wearLevel (s : State) :
    exec .wearLevel s = .next (s.put (if vaultReady s.b then levelWear s.par s.b else s.b)) := rfl

theorem exec_blockErased (ch blk : Nat) (s : State) :
    exec (.blockErased ch blk) s = .next (s.put (if s.b.vault.powered && ch < s.par.vaultCh && blk < s.par.luns * 4096
      then blkErased s.par s.b ch blk else s.b)) := rfl

/-! ## Conditions and parts of the vault -/

/-- The data queue works: the slice is powered, and neither a fence nor dead ball stops it (R342, R376). -/
theorem vaultRuns_iff (b : Block) :
    vaultRuns b = true ↔ b.vault.powered = true ∧ b.vault.fenced = false ∧ isDead b = false := by
  simp [vaultRuns, and_assoc]

theorem vaultReady_iff (b : Block) : vaultReady b = true ↔ vaultRuns b = true ∧ b.vault.st = .ready := by
  simp [vaultReady]

@[simp] theorem getVCh_modVCh (b : Block) (ch : Nat) (f : VChan → VChan) : getVCh (modVCh b ch f) ch = f (getVCh b ch) := by
  simp [getVCh, modVCh, tmod]

@[simp] theorem get_modObj (b : Block) (o : Nat) (f : Obj → Obj) : getObj (modObj b o f) o = f (getObj b o) := by
  simp [modObj]

@[simp] theorem getObj_count (b : Block) (l : CntLoc) (ev amt : Nat) (o : Option Nat) (i : Nat) :
    getObj (count b l ev amt o) i = getObj b i := by simp [getObj]

@[simp] theorem getObj_rcount (b : Block) (a d i : Nat) : getObj (rcount b a d) i = getObj b i := rfl

@[simp] theorem vaultEv_vault (b : Block) (kind cause : Nat) : (vaultEv b kind cause).vault = b.vault := by
  simp [vaultEv]

@[simp] theorem vaultEv_mgmt (b : Block) (kind cause : Nat) : (vaultEv b kind cause).mgmt = b.mgmt := by
  simp [vaultEv]

/-! ## Failed blocks (R338) -/

theorem blockFail_spare {b : Block} {ch pos sp : Nat} (h : freeSpare (getVCh b ch) ch (posBlk pos) = some sp) :
    blockFail b ch pos = (true, modVCh b ch (fun c => { c with
      bad := c.bad.filter (fun e => e.1 ≠ posBlk pos) ++
        (if realBlk c (posBlk pos) = posBlk pos then [] else [(realBlk c (posBlk pos), realBlk c (posBlk pos))]) ++
        [(posBlk pos, sp)] })) := by
  simp only [blockFail, h]

theorem blockFail_retires {b : Block} {ch pos : Nat} (h : freeSpare (getVCh b ch) ch (posBlk pos) = none) :
    blockFail b ch pos = (false, retirePos b pos) := by
  simp only [blockFail, h]

/-- A spare takes the block's place in the channel's table, and the entries of the other blocks stay. -/
theorem blockFail_spare_table {b : Block} {ch pos sp : Nat} (h : freeSpare (getVCh b ch) ch (posBlk pos) = some sp) :
    (blockFail b ch pos).1 = true ∧ (posBlk pos, sp) ∈ (getVCh (blockFail b ch pos).2 ch).bad ∧
      ∀ e ∈ (getVCh b ch).bad, e.1 ≠ posBlk pos → e ∈ (getVCh (blockFail b ch pos).2 ch).bad := by
  rw [blockFail_spare h]
  refine ⟨rfl, by simp, fun e he hne => ?_⟩
  have kept : e ∈ (getVCh b ch).bad.filter (fun e => e.1 ≠ posBlk pos) := by simp [he, hne]
  rw [getVCh_modVCh]
  exact List.mem_append_left _ (List.mem_append_left _ kept)

/-- A position is read back from its block number. -/
theorem pos_of_posBlk (pos : Nat) : posBlk pos / 1024 * 936 + posBlk pos % 1024 = pos := by
  unfold posBlk; omega

/-- A block that serves a position of its own fails as that position's block. -/
theorem blkFails_posBlk {b : Block} {ch pos : Nat} (hm : metaBlk ch (posBlk pos) = false) (hb : posBlk pos % 1024 < 936) :
    blkFails b ch (posBlk pos) = (blockFail b ch pos).2 := by
  simp only [blkFails, hm, hb, pos_of_posBlk, Bool.false_eq_true, if_false, if_true]

section
variable {p : Params} {b : Block} {obj page ch pos : Nat}

theorem progFail_spare {sp : Nat} (hseg : (getObj b obj).segs[page / 1024 / b.vault.ch]? = some pos)
    (hd : (getObj b obj).dirty.contains page = true) (h : freeSpare (getVCh b ch) ch (posBlk pos) = some sp) :
    progFail p b obj page ch = (blockFail b ch pos).2 := by
  unfold progFail
  simp only [hseg, hd, blockFail_spare h]
  rfl

theorem progFail_retires (hseg : (getObj b obj).segs[page / 1024 / b.vault.ch]? = some pos)
    (hd : (getObj b obj).dirty.contains page = true) (h : freeSpare (getVCh b ch) ch (posBlk pos) = none) :
    progFail p b obj page ch = vaultSettle (pageLand p (vaultEv (modObj (retirePos b pos) obj
      (fun x => { x with dirty := x.dirty.filter (· ≠ page) })) 0x4F 0) obj page false) := by
  unfold progFail
  simp only [hseg, hd, blockFail_retires h]
  rfl
end

/-! ## Refresh, wear levelling, erases (R324, R335, R337) -/

theorem refreshSeg_moves {p : Params} {b : Block} {obj seg pos : Nat} (hd : refreshDue b (getObj b obj) seg = true)
    (hl : seg < (getObj b obj).segs.length) (hf : (getObj b obj).st ≠ .free)
    (hp : argmin (posWear b.vault) (freePos p b.vault) = some pos) :
    refreshSeg p b obj seg = count (rcount (moveSeg b obj seg pos) (vaultB + 0x94) 1) .vault 0x0A 1 none := by
  have hcond : ¬ ((!refreshDue b (getObj b obj) seg || (getObj b obj).segs.length ≤ seg || (getObj b obj).st = .free) = true) := by
    simp [hd, hl, hf]
  unfold refreshSeg
  simp only [if_neg hcond, hp]

theorem levelWear_moves {p : Params} {b : Block} {e : Nat × Nat × Nat × Nat} {pos : Nat} {w : List Nat}
    (hw : w = (segList b.vault).map (fun e => posWear b.vault e.2.2.1))
    (hd : rbits b (vaultB + 0x7C) 31 16 < w.foldl max 0 - w.foldl min (w.headD 0))
    (he : argmin (fun (e : Nat × Nat × Nat × Nat) => e.2.2.2) (segList b.vault) = some e)
    (hp : argmax (posWear b.vault) (freePos p b.vault) = some pos) :
    levelWear p b = moveSeg b e.1 e.2.1 pos := by
  subst hw
  unfold levelWear
  simp only [if_neg (Nat.not_le.2 hd), he, hp]

/-- Outside FORMAT an erase or its failure ends nothing. -/
theorem fmtStep_idle {p : Params} {b : Block} {ch blk : Nat} (h : b.vault.st ≠ .formatting) : fmtStep p b ch blk = b := by
  simp only [fmtStep, if_pos h]

theorem blkErased_data {p : Params} {b : Block} {ch blk : Nat} (ha : areaBlk ch blk = false) (hs : b.vault.st = .ready) :
    blkErased p b ch blk = count (modVCh b ch (fun c =>
      { c with erases := tmod c.erases blk 0 (· + 1), reads := tdel c.reads blk, offs := tdel c.offs blk })) .vault 0x07 1 none := by
  simp only [blkErased, ha, Bool.false_eq_true, if_false]
  exact fmtStep_idle (by simp [modVCh, hs])

/-! ## VaultBlocks -/

section
variable (s : State) (hr : vaultRuns s.b = true)
include hr

/-- A page program fails while the controller is READY: a spare takes the block, or its position is retired and the page's
writes fail (R331, R338). -/
theorem programFail_replaces (hst : s.b.vault.st = .ready) (hch : s.b.vault.ch ≠ 0) (obj page ch pos : Nat) (x : Obj)
    (hx : x = getObj s.b obj) (hc : ch = page / 1024 % s.b.vault.ch) (hseg : x.segs[page / 1024 / s.b.vault.ch]? = some pos)
    (hd : x.dirty.contains page = true) :
    (∀ sp, freeSpare (getVCh s.b ch) ch (posBlk pos) = some sp →
      exec (.programFail obj page ch) s = .next (s.put (blockFail s.b ch pos).2)) ∧
    (freeSpare (getVCh s.b ch) ch (posBlk pos) = none → ∀ b, b = modObj (retirePos s.b pos) obj
        (fun x => { x with dirty := x.dirty.filter (· ≠ page) }) →
      exec (.programFail obj page ch) s =
        .next (s.put (vaultSettle (pageLand s.par (vaultEv b 0x4F 0) obj page false)))) := by
  subst hx
  have ready : vaultReady s.b = true := (vaultReady_iff _).2 ⟨hr, hst⟩
  have fails : exec (.programFail obj page ch) s = .next (s.put (progFail s.par s.b obj page ch)) := by
    simp [exec_programFail, ready, hch, ← hc]
  refine ⟨fun sp hsp => ?_, fun hsp b hb => ?_⟩
  · rw [fails, progFail_spare hseg hd hsp]
  · rw [fails, progFail_retires hseg hd hsp, hb]

/-- An erase fails: in the log queue's areas it ends the queue's erase (R18), elsewhere the block is replaced and counts as
done for FORMAT (R324, R338). -/
theorem eraseFail_replaces (ch blk : Nat) (hc : ch < s.par.vaultCh) (hb : blk < s.par.luns * 4096) :
    (areaBlk ch blk = true → exec (.eraseFail ch blk) s = .next (s.put (logErased s.b false))) ∧
    (areaBlk ch blk = false → ch < s.b.vault.ch →
      exec (.eraseFail ch blk) s = .next (s.put (fmtStep s.par (blkFails s.b ch blk) ch blk))) ∧
    (metaBlk ch blk = false → ∀ pos : Nat, blk = posBlk pos → blk % 1024 < 936 →
      blkFails s.b ch blk = (blockFail s.b ch pos).2) := by
  obtain ⟨powered, unfenced, alive⟩ := (vaultRuns_iff _).1 hr
  refine ⟨fun ha => ?_, fun ha hch => ?_, fun hm pos hpos hlt => ?_⟩
  · simp [exec_eraseFail, powered, hc, hb, ha]
  · simp [exec_eraseFail, powered, hc, hb, ha, unfenced, alive, Nat.not_le.2 hch]
  · subst hpos
    exact blkFails_posBlk hm hlt

theorem vaultChannelFailed_marks (ch : Nat) (hc : ch < s.par.vaultCh) (hf : (getVCh s.b ch).failed = false) :
    exec (.vaultChannelFailed ch) s =
      .next (s.put (vaultEv (modVCh s.b ch (fun c => { c with failed := true })) 0x50 3)) := by
  obtain ⟨powered, -, -⟩ := (vaultRuns_iff _).1 hr
  simp [exec_vaultChannelFailed, powered, hc, hf]
end

section
variable (s : State) (hr : vaultReady s.b = true)
include hr

theorem refresh_switches (obj seg pos : Nat) (hd : refreshDue s.b (getObj s.b obj) seg = true)
    (hl : seg < (getObj s.b obj).segs.length) (hf : (getObj s.b obj).st ≠ .free)
    (hp : argmin (posWear s.b.vault) (freePos s.par s.b.vault) = some pos) :
    ∃ t, exec (.refresh obj seg) s = .next t ∧ (getObj t.b obj).segs = (getObj s.b obj).segs.set seg pos ∧
      seg ∉ (getObj t.b obj).marked := by
  refine ⟨_, by rw [exec_refresh, if_pos hr, refreshSeg_moves hd hl hf hp], ?_, ?_⟩
  · simp [State.put, moveSeg]
  · simp [State.put, moveSeg]

theorem blockErased_counts (ch blk : Nat) (hc : ch < s.par.vaultCh) (hb : blk < s.par.luns * 4096)
    (ha : areaBlk ch blk = false) :
    exec (.blockErased ch blk) s = .next (s.put (count (modVCh s.b ch (fun c =>
      { c with erases := tmod c.erases blk 0 (· + 1), reads := tdel c.reads blk, offs := tdel c.offs blk }))
      .vault 0x07 1 none)) := by
  obtain ⟨runs, ready⟩ := (vaultReady_iff _).1 hr
  obtain ⟨powered, -, -⟩ := (vaultRuns_iff _).1 runs
  simp [exec_blockErased, powered, hc, hb, blkErased_data ha ready]
end

/-- Settles O35: failures come from the block table's rule for a spare or none, the upkeep from each command's own case. -/
theorem vaultBlocks : Obligations.VaultBlocks := by
  refine ⟨fun s hr hch => ⟨fun hst => ?_, ?_, fun ch pos => ?_, ?_⟩, fun s hr hch => ⟨?_, ?_, ?_, ?_⟩⟩
  · exact programFail_replaces s hr hst hch
  · exact eraseFail_replaces s hr
  · exact ⟨fun sp => blockFail_spare_table, blockFail_retires⟩
  · exact vaultChannelFailed_marks s hr
  · intro obj seg cw pos hi ue _ turn
    simp [exec_scrubRead, hr, hch, turn]
  · exact refresh_switches s hr
  · intro e pos w hw hd he hp
    rw [exec_wearLevel, if_pos hr, levelWear_moves hw hd he hp]
  · exact blockErased_counts s hr

end Sys2Proof.Machine
end

section
/-! SUPPORT. The log queue: which commands are errors, what a read, a program and an erase leave in the areas (R18, R339, R342,
R367). -/
namespace Sys2Proof.Machine

theorem exec_logQueueCommand (op : BitVec 2) (area : Bool) (offset len sram : Nat) (data : List Byte) (fault : Bool)
    (s : State) : exec (.logQueueCommand op area offset len sram data fault) s = .next (s.put (
      if (s.b.mgmt.st = .rom ∨ s.b.mgmt.st = .recovery ∨ s.b.mgmt.st = .running) ∧ !isDead s.b then
        logQueue s.par s.b op.toNat area offset len sram data fault else s.b)) := rfl

/-! ## Commands (R367) -/

section
variable {p : Params} {b : Block} {op offset len sram : Nat} {area fault : Bool} {data : List Byte}
  (hp : 0 < p.vaultCh) (hop : op ≠ 0) (hb : b.vault.logOp = none)
include hp hop hb

theorem logQueue_error (h : len % 4096 ≠ 0 ∨ logAreaBytes p < offset + len ∨ sramBytes < sram + len) :
    logQueue p b op area offset len sram data fault = modVault b (fun v => { v with logErr := true }) := by
  have idle : ¬ (p.vaultCh = 0 ∨ op = 0 ∨ b.vault.logOp.isSome = true) := by simp [Nat.ne_of_gt hp, hop, hb]
  unfold logQueue
  rw [if_neg idle, if_pos h]

theorem logQueue_runs (hl : len % 4096 = 0) (ha : offset + len ≤ logAreaBytes p) (hs : sram + len ≤ sramBytes) :
    logQueue p b op area offset len sram data fault =
      if op = 3 then modVault (vaultPowerUp b) (fun v => { v with logOp := some (3, area, offset, len), logErr := false })
      else vaultSettle (logMove (vaultPowerUp b) op area offset len sram data fault) := by
  have idle : ¬ (p.vaultCh = 0 ∨ op = 0 ∨ b.vault.logOp.isSome = true) := by simp [Nat.ne_of_gt hp, hop, hb]
  have fits : ¬ (len % 4096 ≠ 0 ∨ logAreaBytes p < offset + len ∨ sramBytes < sram + len) := by omega
  unfold logQueue
  rw [if_neg idle, if_neg fits]
end

/-! ## Reads and programs -/

section
variable (b : Block) (op : Nat) (area : Bool) (offset len sram : Nat) (data : List Byte)

/-- A medium that fails is an error, and the areas and SRAM stay (R18). -/
theorem logMove_fault : (logMove b op area offset len sram data true).vault.logErr = true ∧
    (logMove b op area offset len sram data true).mgmt = b.mgmt := by
  simp [logMove]

theorem logMove_logErr : (logMove b op area offset len sram data false).vault.logErr = false := rfl

theorem logMove_program (hop : op ≠ 1) :
    (logMove b op area offset len sram data false).mgmt =
      if area then { b.mgmt with imgArea := putBytes b.mgmt.imgArea offset (data.take len) }
      else { b.mgmt with logArea := putBytes b.mgmt.logArea offset (data.take len) } := by
  simp [logMove, hop, modMgmt]
end

/-! ## Erases -/

/-- The block before the slice settles, when the queue's erase of a range of an area has succeeded. -/
def eraseDone (b : Block) (area : Bool) (off len : Nat) : Block :=
  modMgmt (modVault b (fun v => { v with logOp := none, logErr := false })) (fun m =>
    if area then { m with imgArea := wipeBytes m.imgArea off len } else { m with logArea := wipeBytes m.logArea off len })

theorem logErased_done {b : Block} {area : Bool} {off len : Nat} (h : b.vault.logOp = some (3, area, off, len)) :
    logErased b true = vaultSettle (eraseDone b area off len) := by
  simp only [logErased, h]
  rfl

/-! ## LogQueue -/

section
variable (s : State) {op : BitVec 2} (area : Bool) (offset len sram : Nat) (data : List Byte) (fault : Bool)
  (hm : s.b.mgmt.st = .rom ∨ s.b.mgmt.st = .recovery ∨ s.b.mgmt.st = .running) (alive : isDead s.b = false)
  (hp : 0 < s.par.vaultCh) (hop : op ≠ 0) (hlog : s.b.vault.logOp = none)
include hm alive hp hop hlog

/-- A command that the management processor may give: an error, an erase that goes on, or a move of bytes that is over at
once. -/
theorem logQueueCommand_outcome :
    ((len % 4096 ≠ 0 ∨ logAreaBytes s.par < offset + len ∨ sramBytes < sram + len) →
      exec (.logQueueCommand op area offset len sram data fault) s =
        .next (s.put (modVault s.b (fun v => { v with logErr := true })))) ∧
    (len % 4096 = 0 → offset + len ≤ logAreaBytes s.par → sram + len ≤ sramBytes → ∀ b, b = vaultPowerUp s.b →
      (op = 3 → exec (.logQueueCommand op area offset len sram data fault) s = .next (s.put
        (modVault b (fun v => { v with logOp := some (3, area, offset, len), logErr := false })))) ∧
      (op ≠ 3 → exec (.logQueueCommand op area offset len sram data fault) s =
        .next (s.put (vaultSettle (logMove b op.toNat area offset len sram data fault))))) := by
  have goes : exec (.logQueueCommand op area offset len sram data fault) s =
      .next (s.put (logQueue s.par s.b op.toNat area offset len sram data fault)) := by
    rw [exec_logQueueCommand, if_pos ⟨hm, by simp [alive]⟩]
  have hop' : op.toNat ≠ 0 := fun h => hop (BitVec.eq_of_toNat_eq h)
  refine ⟨fun bad => by rw [goes, logQueue_error hp hop' hlog bad], fun hl ha hs b hb => ?_⟩
  rw [goes, logQueue_runs hp hop' hlog hl ha hs, ← hb]
  refine ⟨fun erase => ?_, fun move => ?_⟩
  · have erase' : op.toNat = 3 := by rw [erase]; rfl
    rw [if_pos erase']
  · have move' : op.toNat ≠ 3 := fun h => move (BitVec.eq_of_toNat_eq h)
    rw [if_neg move']
end

end Sys2Proof.Machine

namespace Sys2Proof
open Machine

/-- Settles O36: the commands by their outcome, then what a move of bytes and an erase leave in the areas. -/
theorem logQueue : Obligations.LogQueue := by
  refine ⟨fun s op area offset len sram data fault hm alive hp hop hlog =>
      logQueueCommand_outcome s area offset len sram data fault hm alive hp hop hlog,
    fun b op area offset len sram data => ?_, fun b area off len h => ?_⟩
  · obtain ⟨err, mgmt⟩ := logMove_fault b op area offset len sram data
    refine ⟨err, mgmt, logMove_logErr b op area offset len sram data, fun hop => ⟨?_, ?_⟩⟩
    · rw [logMove_program b op true offset len sram data hop, if_pos rfl]
    · rw [logMove_program b op false offset len sram data hop, if_neg Bool.false_ne_true]
  · refine ⟨eraseDone b area off len, logErased_done h, rfl, rfl, ?_, ?_⟩
    · rintro rfl
      rfl
    · rintro rfl
      rfl

end Sys2Proof
end

section
/-! SUPPORT. Power states: what each command of a station's and of the hub core's power does when it is ready, and why a thaw
that is over leaves its station active (R19, R20, R370 to R372, R376). -/
namespace Sys2Proof.Machine

/-! ## Commands by their condition -/

theorem exec_lullEntry (n : Nat) (s : State) : exec (.lullEntry n) s = .next (s.put (lullEntry s.b n)) := rfl

theorem exec_offEntry (n : Nat) (s : State) : exec (.offEntry n) s = .next (s.put (offEntry s.b n)) := rfl

theorem exec_thaw (n : Nat) (s : State) : exec (.thaw n) s = .next (s.put (thaw s.b n)) := rfl

theorem exec_transitionDone (n : Nat) (s : State) : exec (.transitionDone n) s =
    .next (s.put (if n < s.par.stations then cfgPump s.par (transDone s.par s.b n) else s.b)) := rfl

theorem exec_thawDone (n : Nat) (s : State) : exec (.thawDone n) s =
    .next (s.put (if n < s.par.stations then cfgPump s.par (thawEnd s.b n) else s.b)) := rfl

theorem exec_hubPowerDown (s : State) : exec .hubPowerDown s = .next (s.put (
    if s.b.pwr.hubOn && !s.b.pwr.hubGoingUp && hubIdle s.par s.b && !isDead s.b && !mgmtDown s.b then
      modPwr s.b (fun w => { w with hubOn := false }) else s.b)) := rfl

theorem exec_hubPowerUp (s : State) : exec .hubPowerUp s = .next (s.put (
    if s.b.pwr.boot = .hubReady ∧ !s.b.pwr.hubOn ∧ !isDead s.b ∧ hubWanted s.b then
      modPwr s.b (fun w => { w with hubGoingUp := true }) else s.b)) := rfl

theorem exec_hubPowerUpDone (s : State) : exec .hubPowerUpDone s = .next (s.put (
    if s.b.pwr.hubGoingUp then cfgPump s.par (modPwr s.b (fun w => { w with hubOn := true, hubGoingUp := false }))
    else s.b)) := rfl

/-! ## Entries into lull and off (R371) -/

section
variable {b : Block} {n : Nat}

theorem lullEntry_begins (hp : (getStn b n).power = .active) (hi : stnIdle b n = true) (hl : noLull b n = false)
    (hw : stnWake b n = false) (alive : isDead b = false) (up : mgmtDown b = false) (hr : (getStn b n).wakeReq = false) :
    lullEntry b n = setStn b n { getStn b n with power := .toLull } := by
  simp [lullEntry, hp, hi, hl, hw, alive, up, hr]

theorem offEntry_begins (hp : (getStn b n).power = .lull) (hl : noLull b n = false) (ho : noOff b n = false)
    (hw : stnWake b n = false) (alive : isDead b = false) (ht : rbits b (pwrB + 0x40) 31 16 ≠ 0) (up : mgmtDown b = false)
    (hr : (getStn b n).wakeReq = false) : offEntry b n = setStn b n { getStn b n with power := .toOff } := by
  simp [offEntry, hp, hl, ho, hw, alive, ht, up, hr]

/-- A management reset holds every station's state, and a station whose thaw is asked for stays up (R19, R20). -/
theorem lullEntry_held (h : mgmtDown b = true ∨ (getStn b n).wakeReq = true) : lullEntry b n = b := by
  rcases h with h | h <;> simp [lullEntry, h]

theorem offEntry_held (h : mgmtDown b = true ∨ (getStn b n).wakeReq = true) : offEntry b n = b := by
  rcases h with h | h <;> simp [offEntry, h]

theorem transDone_lull (p : Params) (h : (getStn b n).power = .toLull) :
    transDone p b n = setStn b n { getStn b n with power := .lull } := by
  simp only [transDone, h, modStn]

theorem transDone_off (p : Params) (h : (getStn b n).power = .toOff) :
    transDone p b n = grpSleep p (offLoss (setStn b n { getStn b n with power := .off }) n) (grpOf n) := by
  simp only [transDone, h, modStn]

/-! ## Thaws begin (R20, R372) -/

variable (hr : (getStn b n).wakeReq = true) (alive : isDead b = false)
include hr alive

theorem thaw_lull (h : (getStn b n).power = .lull ∨ (getStn b n).power = .toLull) :
    thaw b n = setStn b n { getStn b n with power := .thawLull } := by
  rcases h with h | h <;> simp [thaw, hr, alive, h]

theorem thaw_off (h : (getStn b n).power = .off) : thaw b n = setStn b n { getStn b n with power := .thawOff } := by
  simp [thaw, hr, alive, h]

theorem thaw_toOff (h : (getStn b n).power = .toOff) :
    thaw b n = offLoss (setStn b n { getStn b n with power := .thawOff }) n := by
  simp [thaw, hr, alive, h]
end

/-! ## A station that is up stays up while the sums of its wake queue apply (R251, R372) -/

/-- Station n is active, and no thaw is asked for. -/
def Awake (n : Nat) (b : Block) : Prop := (getStn b n).power = .active ∧ (getStn b n).wakeReq = false

section
variable {n : Nat} {b : Block}

theorem getStn_setStn_ne {m : Nat} (x : Station) (h : n ≠ m) : getStn (setStn b m x) n = getStn b n :=
  tgetD_tput_ne _ _ _ h

theorem Awake.of_getStn {b' : Block} (hb : Awake n b) (h : getStn b' n = getStn b n) : Awake n b' := by
  unfold Awake
  rwa [h]

theorem Awake.setStn (hb : Awake n b) {m : Nat} {x : Station} (hp : x.power = (getStn b m).power)
    (hw : x.wakeReq = (getStn b m).wakeReq) : Awake n (setStn b m x) := by
  by_cases h : n = m
  · subst h
    obtain ⟨active, quiet⟩ := hb
    exact ⟨by rw [get_setStn, hp, active], by rw [get_setStn, hw, quiet]⟩
  · exact hb.of_getStn (getStn_setStn_ne x h)

/-- A thaw is asked for only of a station that is not active. -/
theorem Awake.reqThaw (hb : Awake n b) (m : Nat) : Awake n (reqThaw b m) := by
  unfold Machine.reqThaw
  by_cases h : (getStn b m).power = .active ∨ (getStn b m).wakeReq = true
  · rwa [if_pos h]
  · have hne : n ≠ m := by
      rintro rfl
      exact h (.inl hb.1)
    rw [if_neg h]
    exact hb.of_getStn (by rw [getStn_count, getStn_setStn_ne _ hne])

theorem Awake.reqBarrier (hb : Awake n b) (m t : Nat) (sc : Scope) : Awake n (reqBarrier b m t sc) :=
  hb.setStn rfl rfl

theorem Awake.acquire (hb : Awake n b) (t : Nat) (m : Option Nat) (sc : Scope) : Awake n (acquire b t m sc).2 :=
  keep_forEach _ _ hb fun _ _ hb => (hb.reqBarrier _ _ _).of_getStn (getStn_count _ _ _ _ _ _)

theorem Awake.startAcq (hb : Awake n b) (w : Waiter) (a : Acq) : Awake n (startAcq b w a) := by
  cases h : w.kind <;> exact hb.of_getStn (by simp [Machine.startAcq, h])

theorem Awake.releaseWaiter (hb : Awake n b) (t : Nat) (w : Waiter) : Awake n (releaseWaiter b t w) := by
  have started (v : Option Nat) := ((hb.acquire t v w.scope).startAcq w (Machine.acquire b t v w.scope).1).of_getStn
    (getStn_count _ .hub 0x08 (b2n (talStn t = none)) none n)
  unfold Machine.releaseWaiter
  cases waiterStn w with
  | none => exact started none
  | some m => exact (started (some m)).reqThaw m

theorem Awake.testWaiters (hb : Awake n b) (t : Nat) : Awake n (testWaiters b t) :=
  keep_forEach _ _ (hb.of_getStn rfl) fun _ _ hb => hb.releaseWaiter _ _

theorem Awake.addRel (hb : Awake n b) (t : Nat) (a : Add) : Awake n (addRel b t a) := by
  unfold Machine.addRel newId
  dsimp only
  cases relOf a b.nextId with
  | none => exact hb
  | some r =>
    have listed : Awake n (modTal { b with nextId := b.nextId + 1 } t (fun x => { x with rels := x.rels ++ [r] })) :=
      hb.of_getStn rfl
    exact keep_ite (listed.reqBarrier _ _ _) listed

/-- The record of a tally that wraps, and its count (R254), concern no station. -/
theorem Awake.wrapRec (hb : Awake n b) (src kind unit addr detail r d : Nat) :
    Awake n (rcount (dataRec b src kind unit addr detail) r d) :=
  hb.of_getStn (getStn_dataRec b src kind unit addr detail n)

theorem Awake.applyAdds (hb : Awake n b) (t : Nat) (l : List Add) : Awake n (applyAdds b t l) := by
  unfold Machine.applyAdds
  extract_lets x sum b1 b2 b3 b4
  have h1 : Awake n b1 := hb.of_getStn rfl
  have h2 : Awake n b2 := keep_forEach _ _ h1 fun _ _ hb => hb.addRel _ _
  have h3 : Awake n b3 := keep_ite (h2.wrapRec _ _ _ _ _ _ _) h2
  have h4 : Awake n b4 := by
    unfold b4
    split
    · exact h3.of_getStn (getStn_count _ _ _ _ _ _)
    · exact h3
  exact keep_ite hb (h4.testWaiters t)

theorem Awake.applyWake (hb : Awake n b) (m : Nat) : Awake n (applyWake b m) :=
  keep_forEach _ _ (hb.setStn rfl rfl) fun _ _ hb => hb.applyAdds _ _

theorem Awake.pfAsk (hb : Awake n b) (m k va : Nat) : Awake n (pfAsk b m k va) := by
  unfold Machine.pfAsk
  split
  · exact hb
  · exact keep_ite (hb.setStn rfl rfl) hb

theorem Awake.dropLines (hb : Awake n b) (m k : Nat) (gone : Nat → Bool) : Awake n (dropLines b m k gone) :=
  (hb.of_getStn (b' := modStrand b m k (fun s => { s with lines := s.lines.filter (fun l => !gone l.1) })) rfl).setStn rfl rfl

theorem Awake.refetch (hb : Awake n b) (m k : Nat) : Awake n (refetch b m k) := by
  unfold Machine.refetch
  dsimp only
  refine keep_ite (((hb.dropLines _ _ _).pfAsk _ _ _).pfAsk _ _ _) (keep_ite hb ?_)
  split
  · exact hb.pfAsk _ _ _
  · exact keep_ite hb ((hb.dropLines _ _ _).pfAsk _ _ _)

theorem Awake.grpWake (hb : Awake n b) (m : Nat) : Awake n (grpWake b m) := keep_ite hb (hb.of_getStn rfl)

/-- A thaw that is over leaves the station active, and nothing that follows it asks for another (R372). -/
theorem thawEnd_awake (h : (getStn b n).power = .thawLull ∨ (getStn b n).power = .thawOff) : Awake n (thawEnd b n) := by
  unfold thawEnd
  extract_lets st off b1 b2 b3 b4 b5
  have h1 : Awake n b1 := ⟨by simp [b1], by simp [b1]⟩
  have h3 : Awake n b3 := h1.of_getStn (getStn_count (rcount b1 (stnB n + 0x4C) 1) (.station n) 0x1B 1 none n)
  have h4 : Awake n b4 := keep_ite (h3.grpWake n) h3
  have h5 : Awake n b5 := h4.applyWake n
  rw [if_pos (by rcases h with h | h <;> simp [off, st, h])]
  exact keep_ite h4 (keep_ite h5 (keep_forEach _ _ h5 fun _ _ hb => hb.refetch _ _))
end

/-! ## PowerStates -/

section
variable (s : State)

theorem thaw_begins (n : Nat) (hr : (getStn s.b n).wakeReq = true) (alive : isDead s.b = false) :
    (((getStn s.b n).power = .lull ∨ (getStn s.b n).power = .toLull) →
      exec (.thaw n) s = .next (s.put (setStn s.b n { getStn s.b n with power := .thawLull }))) ∧
    ((getStn s.b n).power = .off →
      exec (.thaw n) s = .next (s.put (setStn s.b n { getStn s.b n with power := .thawOff }))) ∧
    ((getStn s.b n).power = .toOff →
      exec (.thaw n) s = .next (s.put (offLoss (setStn s.b n { getStn s.b n with power := .thawOff }) n))) := by
  refine ⟨fun h => ?_, fun h => ?_, fun h => ?_⟩ <;> rw [exec_thaw]
  · rw [thaw_lull hr alive h]
  · rw [thaw_off hr alive h]
  · rw [thaw_toOff hr alive h]

theorem thawDone_awake (n : Nat) (hn : n < s.par.stations)
    (h : (getStn s.b n).power = .thawLull ∨ (getStn s.b n).power = .thawOff) :
    ∃ b, exec (.thawDone n) s = .next (s.put (cfgPump s.par b)) ∧ (getStn b n).power = .active ∧
      (getStn b n).wakeReq = false := by
  obtain ⟨active, quiet⟩ := thawEnd_awake h
  exact ⟨thawEnd s.b n, by rw [exec_thawDone, if_pos hn], active, quiet⟩
end

/-- Settles O41: each command by the case of its station's power, and a thaw's end by what keeps a station awake. -/
theorem powerStates : Obligations.PowerStates := by
  refine ⟨?_, fun s => ⟨?_, ?_, ?_⟩⟩
  · rintro s n st rfl
    refine ⟨?_, ?_, ?_, ?_, ?_, thaw_begins s n, thawDone_awake s n⟩
    · intro hp hi hl hw alive up hr
      rw [exec_lullEntry, lullEntry_begins hp hi hl hw alive up hr]
    · intro hp hl ho hw alive ht up hr
      rw [exec_offEntry, offEntry_begins hp hl ho hw alive ht up hr]
    · intro h
      rw [exec_lullEntry, exec_offEntry, lullEntry_held h, offEntry_held h]
      exact ⟨rfl, rfl⟩
    · intro hn hp
      rw [exec_transitionDone, if_pos hn, transDone_lull s.par hp]
    · intro hn hp
      rw [exec_transitionDone, if_pos hn, transDone_off s.par hp]
  · intro on still idle alive up
    simp [exec_hubPowerDown, on, still, idle, alive, up]
  · intro boot off alive wanted
    simp [exec_hubPowerUp, boot, off, alive, wanted]
  · intro rising
    rw [exec_hubPowerUpDone, if_pos rising]

end Sys2Proof.Machine
end

section
/-! SUPPORT. Operating points and sensors: where the power controller moves a group, what a late rail leaves, when a cap rises,
and how the loss of AO_REFCLK enters dead ball (R19, R369, R374, R375, R440). -/
namespace Sys2Proof.Machine

/-! ## Commands by their condition -/

theorem exec_opPointChange (g : Nat) (s : State) : exec (.opPointChange g) s = .next (s.put (opChange s.par s.b g)) := rfl

theorem exec_railGood (g : Nat) (s : State) : exec (.railGood g) s = .next (s.put (railGood s.b g)) := rfl

theorem exec_railTimeout (g : Nat) (s : State) : exec (.railTimeout g) s = .next (s.put (railTimeout s.b g)) := rfl

theorem exec_capRaise (g : Nat) (s : State) : exec (.capRaise g) s =
    .next (s.put (if s.b.pwr.boot ≠ .reset ∧ g < grpCount s.par then capRaise s.b g else s.b)) := rfl

theorem exec_thermalSample (idx : Nat) (q : BitVec 12) (s : State) : exec (.thermalSample idx q) s =
    .next (s.put (if s.b.pwr.boot ≠ .reset ∧ senseExists s.par idx then thermal s.par s.b idx q else s.b)) := rfl

theorem exec_droopTrip (n : Nat) (s : State) : exec (.droopTrip n) s =
    .next (s.put (if s.b.pwr.boot ≠ .reset ∧ n < s.par.stations then droop s.b n else s.b)) := rfl

theorem exec_clockMonitorTrip (clk : Nat) (s : State) : exec (.clockMonitorTrip clk) s =
    .next (s.put (if s.b.pwr.boot ≠ .reset ∧ clockRuns s.par s.b clk then senseEv s.b 0x54 else s.b)) := rfl

theorem exec_vgoodFall (g : Nat) (s : State) : exec (.vgoodFall g) s =
    .next (s.put (if s.b.pwr.boot ≠ .reset ∧ pllOn s.par s.b g then forEach (grpStations s.par g) s.b droop else s.b)) := rfl

/-- The event that the loss of AO_REFCLK is: a critical trip of the sensors (R369). -/
def refclkEv : Ev :=
  { src := srcSense, kind := 0x54, unit := noUnit, addr := 0, detail := BitVec.ofNat 64 (5 * 2 ^ 32) }

theorem exec_aoRefclkLoss (s : State) : exec .aoRefclkLoss s = .next (s.put (
    if s.b.pwr.boot = .reset then s.b
    else deadPump s.par s.b (srcEvent (modRef s.b (fun r => { r with oscillator := true })) refclkEv))) := rfl

/-! ## Groups -/

/-- A group that the table holds reads as its update. -/
theorem getGrp_modGrp {b : Block} {g : Nat} (f : Group → Group) (h : g < b.pwr.groups.length) :
    getGrp (modGrp b g f) g = f (getGrp b g) := by
  simp [getGrp, modGrp, h]

/-! ## Operating points (R374, R375) -/

section
variable {p : Params} {b : Block} {g : Nat}

theorem opGoal_up (h : mgmtDown b = false) : opGoal b g = opTarget b g := by simp [opGoal, h]

theorem opGoal_down (h : mgmtDown b = true) : opGoal b g = min (getGrp b g).cur (getGrp b g).capT := by simp [opGoal, h]

section
variable (alive : isDead b = false) (hpll : pllOn p b g = true) (htr : (grpStations p g).any (inTransition b) = false)
  (hg : g < grpCount p)
include alive hpll htr hg

/-- What the power controller does with a group that runs and of which no station is in transition. -/
theorem opChange_moves : opChange p b g =
    if opGoal b g < (getGrp b g).cur then opSwitch (modGrp b g (fun y => { y with capWas := none })) g (opGoal b g)
    else if (getGrp b g).cur < opGoal b g ∧ (getGrp b g).req = none ∧ rbit b (grpR g) 9 = false then
      modGrp (modGrp b g (fun y => { y with capWas := none })) g (fun y => { y with req := some (opGoal b g) })
    else b := by
  have goes : ¬ ((isDead b || !pllOn p b g || (grpStations p g).any (inTransition b) || decide (grpCount p ≤ g)) = true) := by
    simp only [alive, hpll, htr, Nat.not_le.2 hg]
    decide
  unfold opChange
  dsimp only
  rw [if_neg goes]

theorem opChange_lowers (h : opGoal b g < (getGrp b g).cur) :
    opChange p b g = opSwitch (modGrp b g (fun y => { y with capWas := none })) g (opGoal b g) := by
  rw [opChange_moves alive hpll htr hg, if_pos h]

theorem opChange_requests (h : (getGrp b g).cur < opGoal b g) (hreq : (getGrp b g).req = none)
    (hrail : rbit b (grpR g) 9 = false) : opChange p b g =
      modGrp (modGrp b g (fun y => { y with capWas := none })) g (fun y => { y with req := some (opGoal b g) }) := by
  rw [opChange_moves alive hpll htr hg, if_neg (Nat.not_lt.2 (Nat.le_of_lt h)), if_pos ⟨h, hreq, hrail⟩]

theorem opChange_stays (h : opGoal b g = (getGrp b g).cur) : opChange p b g = b := by
  simp [opChange_moves alive hpll htr hg, h]
end

theorem railGood_switches {t : Nat} (alive : isDead b = false) (h : (getGrp b g).req = some t) :
    railGood b g = opSwitch b g (min t (max (opTarget b g) (getGrp b g).cur)) := by
  simp [railGood, h, alive]

theorem railTimeout_req {t : Nat} (h : (getGrp b g).req = some t) :
    railTimeout b g = senseEv (logAppend (setCause (rsetBits (modGrp b g (fun y => { y with req := none })) (grpR g) 0x200)
      1559 2) 0x06 2 g g t) 0x53 := by
  simp only [railTimeout, h]
end

/-! ## Registers -/

theorem tget_tdel_ne {α : Type} (t : Tab α) {k j : Nat} (h : j ≠ k) : tget (tdel t k) j = tget t j := by
  induction t with
  | nil => rfl
  | cons e t ih =>
    obtain ⟨i, w⟩ := e
    by_cases hi : i = k
    · subst hi
      simp [tdel, tget, Ne.symm h]
    · simp [tdel, tget, hi, ih]

theorem rget_rset_ne (b : Block) {a c : Nat} (v : Nat) (h : c ≠ a) : rget (rset b a v) c = rget b c := by
  by_cases hv : v % 2 ^ 32 = resetWord a
  · simp only [rget, rset, if_pos hv, tget_tdel_ne _ h]
  · simp only [rget, rset, if_neg hv, tget_tput_ne _ _ h]

/-- A word that differs from the reset value is stored, and reads back. -/
theorem rget_rset_of_ne_reset (b : Block) {a v : Nat} (h : v % 2 ^ 32 ≠ resetWord a) : rget (rset b a v) a = v % 2 ^ 32 := by
  simp only [rget, rset, if_neg h, tget_tput, BitVec.toNat_ofNat]

/-- Latching a cause changes the vector's cause register and no other. -/
theorem rget_setCause_ne (b : Block) {vec m a c k : Nat} (hv : vecRegs vec = some (c, k)) (h : a ≠ c) :
    rget (setCause b vec m) a = rget b a := by
  have kept : rget (rsetBits b c m) a = rget b a := rget_rset_ne b (rget b c ||| m) h
  unfold setCause irqAfter
  simp only [hv]
  split
  · exact (irqPend_keeps (rget · a) (fun _ _ => rfl) _ _).trans kept
  · exact kept

/-- RAIL_ERR resets to 0 (R390). -/
theorem grpR_reset_railErr {g : Nat} (h : g < 6) : (resetWord (grpR g)).testBit 9 = false := by
  have all : ∀ g < 6, (resetWord (grpR g)).testBit 9 = false := by decide
  exact all g h

/-! ## Late rails and rising caps (R369, R375) -/

section
variable {b : Block} {g t : Nat}

@[simp] theorem logAppend_pwr (b : Block) (typ sev src w2 w3 : Nat) : (logAppend b typ sev src w2 w3).pwr = b.pwr := rfl

@[simp] theorem senseEv_pwr (b : Block) (kind : Nat) : (senseEv b kind).pwr = b.pwr := rfl

@[simp] theorem rget_logAppend (b : Block) (typ sev src w2 w3 a : Nat) :
    rget (logAppend b typ sev src w2 w3) a = rget b a := rfl

@[simp] theorem rget_senseEv (b : Block) (kind a : Nat) : rget (senseEv b kind) a = rget b a := rfl

theorem railTimeout_keeps_point (h : (getGrp b g).req = some t) (hl : g < b.pwr.groups.length) :
    (getGrp (railTimeout b g) g).req = none ∧ (getGrp (railTimeout b g) g).cur = (getGrp b g).cur := by
  have grp : getGrp (railTimeout b g) g = { getGrp b g with req := none } := by
    rw [railTimeout_req h, ← getGrp_modGrp (fun y => { y with req := none }) hl]
    simp [getGrp, rsetBits]
  simp [grp]

theorem railTimeout_railErr (h : (getGrp b g).req = some t) (hg : g < 6) :
    bit (rget (railTimeout b g) (grpR g)) 9 = true := by
  have other : grpR g ≠ pwrB + 0x84 := by unfold grpR; omega
  have set : ∀ x : Nat, ((x ||| 0x200) % 2 ^ 32).testBit 9 = true := fun x => by
    have mask : Nat.testBit 0x200 9 = true := by decide
    rw [Nat.testBit_mod_two_pow, Nat.testBit_or, mask]
    simp
  have stored : ∀ b' : Block, rget (rsetBits b' (grpR g) 0x200) (grpR g) = (rget b' (grpR g) ||| 0x200) % 2 ^ 32 :=
    fun b' => rget_rset_of_ne_reset b' fun e => by
      have clear := grpR_reset_railErr hg
      rw [← e, set] at clear
      exact Bool.noConfusion clear
  rw [railTimeout_req h, rget_senseEv, rget_logAppend,
    rget_setCause_ne (c := pwrB + 0x84) (k := pwrB + 0x88) _ rfl other, stored]
  exact set _

/-- With no sensor that lowered it, and few droop trips, a cap rises one step. -/
theorem capRaise_step (alive : isDead b = false) (hc : (getGrp b g).capT < 3) (hh : (getGrp b g).hot = [])
    (hd : (recentDroops b g).length ≤ rbits b (pwrB + 0x70) 31 16) (hl : g < b.pwr.groups.length) :
    (getGrp (capRaise b g) g).capT = (getGrp b g).capT + 1 := by
  unfold capRaise
  dsimp only
  rw [if_pos (by simp [alive, hc, hh, hd]), getGrp_modGrp _ hl]
end

/-! ## Loss of AO_REFCLK (R369, R440) -/

section
variable (b : Block)

theorem setCause_ref (vec m : Nat) : (setCause b vec m).ref = b.ref :=
  setCause_keeps (·.ref) (fun _ _ _ => rfl) (fun _ _ => rfl) b vec m

@[simp] theorem setSrc_oscillator (i : Nat) (x : Src) : (setSrc b i x).ref.oscillator = b.ref.oscillator := rfl

@[simp] theorem logAppend_ref (typ sev src w2 w3 : Nat) : (logAppend b typ sev src w2 w3).ref = b.ref := rfl

/-- Holding a record leaves the clock that dead ball runs on. -/
theorem holdRec_oscillator (r : Rec) : (holdRec b r).ref.oscillator = b.ref.oscillator := by
  unfold holdRec
  dsimp only
  split
  · rfl
  · repeat' split
    all_goals simp only [setCause_ref, rsetBits, rcount, rset_ref, setSrc_oscillator]

theorem reaction_oscillator (src kind : Nat) (insvc : Bool) (detail : Nat) :
    (reaction b src kind insvc detail).ref.oscillator = b.ref.oscillator := holdRec_oscillator _ _

theorem enterDead_oscillator (src kind : Nat) : (enterDead b src kind).ref.oscillator = b.ref.oscillator := by
  unfold enterDead
  split
  · rfl
  · simp [setCause_ref, reaction_oscillator]

theorem enterDead_dead (src kind : Nat) : isDead (enterDead b src kind) = true := by
  unfold enterDead isDead
  split
  next h => exact h
  next => simp [setCause_ref]

theorem escalate_critical (src kind : Nat) (old : SrcSt) (insvc : Bool) : escalate b src kind old .critical insvc =
    enterDead (modSrc b src (fun s => { s with st := .critical })) src kind := by
  simp [escalate]

/-- An event of CRITICAL severity enters dead ball, whatever its source's settings (R349, R358). -/
theorem srcEvent_critical {e : Ev} (h : kindSev e.kind = 2) :
    ∃ b', srcEvent b e = enterDead b' e.src e.kind ∧ b'.ref.oscillator = b.ref.oscillator := by
  unfold srcEvent
  simp only [h, if_true, escalate_critical]
  exact ⟨_, rfl, holdRec_oscillator _ _⟩
end

/-! ## PointsAndSensors -/

section
variable (s : State) (g : Nat)

/-- A group moves to the lowest of its limits, and while a management reset lasts only down to its cap (R19, R374). -/
theorem opPointChange_moves (alive : isDead s.b = false) (hpll : pllOn s.par s.b g = true)
    (htr : (grpStations s.par g).any (inTransition s.b) = false) (hg : g < grpCount s.par) (b : Block)
    (hb : b = modGrp s.b g (fun y => { y with capWas := none })) :
    (∀ t : Nat, mgmtDown s.b = false → t = opTarget s.b g →
      (t < (getGrp s.b g).cur → exec (.opPointChange g) s = .next (s.put (opSwitch b g t))) ∧
      ((getGrp s.b g).cur < t → (getGrp s.b g).req = none → rbit s.b (grpR g) 9 = false →
        exec (.opPointChange g) s = .next (s.put (modGrp b g (fun y => { y with req := some t }))))) ∧
    (mgmtDown s.b = true →
      ((getGrp s.b g).capT < (getGrp s.b g).cur →
        exec (.opPointChange g) s = .next (s.put (opSwitch b g (getGrp s.b g).capT))) ∧
      ((getGrp s.b g).cur ≤ (getGrp s.b g).capT → exec (.opPointChange g) s = .next (s.put s.b))) := by
  subst hb
  refine ⟨fun t up ht => ?_, fun down => ?_⟩
  · have goal : opGoal s.b g = t := ht ▸ opGoal_up up
    refine ⟨fun h => ?_, fun h hreq hrail => ?_⟩
    · rw [exec_opPointChange, opChange_lowers alive hpll htr hg (goal ▸ h), goal]
    · rw [exec_opPointChange, opChange_requests alive hpll htr hg (goal ▸ h) hreq hrail, goal]
  · have goal := opGoal_down (g := g) down
    refine ⟨fun h => ?_, fun h => ?_⟩
    · rw [Nat.min_eq_right (Nat.le_of_lt h)] at goal
      rw [exec_opPointChange, opChange_lowers alive hpll htr hg (goal ▸ h), goal]
    · rw [Nat.min_eq_left h] at goal
      rw [exec_opPointChange, opChange_stays alive hpll htr hg goal]

/-- The loss of AO_REFCLK enters dead ball on the internal oscillator. -/
theorem aoRefclkLoss_dead (boot : s.b.pwr.boot ≠ .reset) :
    ∃ b, exec .aoRefclkLoss s = .next (s.put (deadPump s.par s.b b)) ∧ isDead b = true ∧ b.ref.oscillator = true := by
  obtain ⟨b', event, osc⟩ := srcEvent_critical (modRef s.b (fun r => { r with oscillator := true })) (e := refclkEv) rfl
  refine ⟨_, by rw [exec_aoRefclkLoss, if_neg boot], ?_, ?_⟩
  · rw [event]
    exact enterDead_dead _ _ _
  · rw [event, enterDead_oscillator, osc]
    rfl
end

/-- Settles O43: a group by the point that is its goal, its rail's two answers, its cap, and each sensor's report. -/
theorem pointsAndSensors : Obligations.PointsAndSensors := by
  refine ⟨?_, fun s boot => ⟨?_, ?_, ?_, aoRefclkLoss_dead s boot, ?_⟩⟩
  · rintro s g x rfl alive
    refine ⟨opPointChange_moves s g alive, fun t h => ⟨?_, fun hl hg => ?_⟩, fun boot hg hc hh hd hl => ?_⟩
    · rw [exec_railGood, railGood_switches alive h]
    · obtain ⟨req, cur⟩ := railTimeout_keeps_point h hl
      exact ⟨_, exec_railTimeout g s, req, cur, railTimeout_railErr h hg⟩
    · exact ⟨_, by rw [exec_capRaise, if_pos ⟨boot, hg⟩], capRaise_step alive hc hh hd hl⟩
  · intro idx q exist
    rw [exec_thermalSample, if_pos ⟨boot, exist⟩]
  · intro n hn
    rw [exec_droopTrip, if_pos ⟨boot, hn⟩]
  · intro clk runs
    rw [exec_clockMonitorTrip, if_pos ⟨boot, runs⟩]
  · intro g on
    rw [exec_vgoodFall, if_pos ⟨boot, on⟩]

end Sys2Proof.Machine
end

section
/-! SUPPORT. Accesses of the configuration port: what a write and a read do in each case of the port's judgement, and from it
PAGE_CTRL and PAGE_ERR, plain registers, the shadows of pairs, and the accesses that are refused (R26 to R40). -/
namespace Sys2Proof.Machine

/-! ## Commands as accesses of the port -/

theorem exec_registerWrite (addr : BitVec 24) (w : Word) (a : Attr) (s : State) : exec (.registerWrite addr w a) s =
    .next (s.put (cfgAccess s.par s.b (wacc addr.toNat w.toNat a) none)) := rfl

theorem exec_wideWriteShadow (addr : BitVec 24) (w : Word) (a : Attr) (s : State) : exec (.wideWriteShadow addr w a) s =
    .next (s.put (cfgAccess s.par s.b (wacc addr.toNat w.toNat a) none)) := rfl

theorem exec_wideReadLatch (addr : BitVec 24) (a : Attr) (s : State) : exec (.wideReadLatch addr a) s =
    .next (s.put (cfgAccess s.par s.b (racc addr.toNat a) none)) := rfl

theorem exec_pageErrClear (page : BitVec 24) (w : Word) (a : Attr) (s : State) : exec (.pageErrClear page w a) s =
    .next (s.put (cfgAccess s.par s.b (wacc (baseOf page + 0x10) w.toNat a) none)) := rfl

theorem ctrlCmd_access (base m v : Nat) (a : Attr) (s : State) : ctrlCmd base m v a s =
    .next (s.put (cfgAccess s.par s.b (wacc (base + 8) ((rget s.b (base + 8) &&& m) ||| v) a) none)) := rfl

/-! ## The parts of the conditions -/

section
variable {p : Params} {b : Block} {x : Access} {pg : Page} {r : RegRow}

theorem meetsWrite_iff : meetsWrite p b x pg r = true ↔
    meets p b x pg r = true ∧ x.write = true ∧ x.attr.strb = 15 ∧ r.roAll = false := by
  simp [meetsWrite, and_assoc]

theorem takesCtrl_iff : takesCtrl p b x pg r = true ↔ meetsWrite p b x pg r = true ∧ accAddr x % 0x1000 = 8 ∧
    ctrlRefused (counted b) pg x.data.toNat = none := by
  simp [takesCtrl, and_assoc]

theorem takesRead_iff : takesRead p b x pg r = true ↔ meets p b x pg r = true ∧ x.write = false ∧
    codeBad (counted b) pg (accAddr x % 0x1000) r = false := by
  simp [takesRead, and_assoc]

theorem takesWrite_meets (h : takesWrite p b x pg r = true) : meets p b x pg r = true := by
  simp only [takesWrite, Bool.and_eq_true] at h
  obtain ⟨⟨⟨hm, -⟩, -⟩, -⟩ := h
  exact (meetsWrite_iff.1 hm).1

/-- The address of a register that an access meets, by its page and offset. -/
theorem meets_addr (h : meets p b x pg r = true) : pageB pg + accAddr x % 0x1000 = accAddr x := by
  rw [meets_base h]
  omega
end

/-- Registers of the page header are no halves of pairs (R28). -/
theorem pageRow_header_pair {pg : Page} {off : Nat} {r : RegRow} (h : off < 0x40) (hr : pageRow pg off = some r) :
    r.pair = 0 := by
  unfold pageRow at hr
  rw [if_pos h] at hr
  have all : ∀ r ∈ rows_hdr, r.pair = 0 := by decide
  exact all r (List.mem_of_find?_eq_some hr)

theorem codeAddr_of_pair_ne_two {r : RegRow} (a : Nat) (h : r.pair ≠ 2) : codeAddr a r = a := if_neg h

theorem baseOf_aligned (page : BitVec 24) : baseOf page % 0x1000 = 0 ∧ baseOf page + 0x1000 ≤ 2 ^ 24 := by
  have := page.isLt
  unfold baseOf
  omega

theorem wacc_data {w : Nat} (addr : Nat) (a : Attr) (h : w < 2 ^ 32) : (wacc addr w a).data.toNat = w :=
  (BitVec.toNat_ofNat w 32).trans (Nat.mod_eq_of_lt h)

/-! ## What a page does with a write and a read (R33 to R38) -/

section
variable {p : Params} {b : Block} {x : Access} {pg : Page} {med : Option Med}

theorem performWrite_noStrobe (h : x.attr.strb = 0) : performWrite p b x pg med = respond b .ok 0 := by
  simp [performWrite, h]

theorem performWrite_partial (h0 : x.attr.strb ≠ 0) (h15 : x.attr.strb ≠ 15) :
    performWrite p b x pg med = refuse b x (pageB pg) eSize 0 := by
  unfold performWrite
  dsimp only
  rw [if_neg h0, if_pos h15]

section
variable (hs : x.attr.strb = 15)
include hs

theorem performWrite_noRow (h : pageRow pg (accAddr x % 0x1000) = none) :
    performWrite p b x pg med = refuse b x (pageB pg) eRsvd 0 := by
  simp [performWrite, hs, h]

variable {r : RegRow} (hr : pageRow pg (accAddr x % 0x1000) = some r)
include hr

theorem performWrite_readOnly (h : r.roAll = true) : performWrite p b x pg med = refuse b x (pageB pg) eRo 0 := by
  simp [performWrite, hs, hr, h]

variable (hro : r.roAll = false)
include hro

theorem performWrite_pageErr (h : accAddr x % 0x1000 = 0x10) : performWrite p b x pg med =
    wrote (rclrBits b (pageB pg + 0x10) (x.data.toNat &&& 0x103FF)) (codeAddr (pageB pg + 0x10) r) := by
  rw [h] at hr
  simp [performWrite, hs, hr, hro, h, wrote]

theorem performWrite_low (hc : accAddr x % 0x1000 ≠ 8) (he : accAddr x % 0x1000 ≠ 0x10) (h : r.pair = 1) :
    performWrite p b x pg med =
      respond (setWsh b (tput b.cfg.wshadow (pageB pg + accAddr x % 0x1000) x.data)) .ok 0 := by
  simp [performWrite, hs, hr, hro, hc, he, h]

/-- A write that LOCK or a FROZEN condition refuses. -/
theorem performWrite_judged {i : Nat} (h0 : 0x40 ≤ accAddr x % 0x1000) (hp : r.pair = 0)
    (h : judge p b pg [(accAddr x % 0x1000, r, x.data.toNat)] = some i) :
    performWrite p b x pg med = refuse b x (pageB pg) i 0 := by
  have hc : accAddr x % 0x1000 ≠ 8 := by omega
  have he : accAddr x % 0x1000 ≠ 0x10 := by omega
  simp [performWrite, hs, hr, hro, hc, he, hp, h]
end

theorem performRead_low {r : RegRow} (hr : pageRow pg (accAddr x % 0x1000) = some r)
    (hc : codeBad b pg (accAddr x % 0x1000) r = false) (hl : readLatch b pg (accAddr x % 0x1000) = b) (h : r.pair = 1) :
    performRead p b x pg = respond (setRsh b (tput b.cfg.rshadow (pageB pg + accAddr x % 0x1000)
      (BitVec.ofNat 32 (readReg p b pg (accAddr x % 0x1000 + 4))))) .ok (readReg p b pg (accAddr x % 0x1000)) := by
  simp [performRead, hr, hc, hl, h]

/-- What the judge refuses with: LOCK or FROZEN. -/
theorem judge_locks_or_freezes {l : List (Nat × RegRow × Nat)} {i : Nat} (h : judge p b pg l = some i) : i = 0 ∨ i = 3 := by
  unfold judge at h
  dsimp only at h
  split at h
  · exact .inr (Option.some.inj h).symm
  · split at h
    · exact .inl (Option.some.inj h).symm
    · cases h
end

/-! ## PAGE_CTRL and PAGE_ERR (R28 to R30, R35, R346) -/

section
variable {s : State} {page : BitVec 24} {a : Attr} {pg : Page} {r : RegRow}

/-- A write of PAGE_CTRL that its page takes, by a command that keeps the bits of m and sets those of v. -/
theorem ctrlCmd_takes {m v : Nat} (hm : m < 2 ^ 32) (hv : v < 2 ^ 32)
    (h : takesCtrl s.par s.b (wacc (baseOf page + 8) ((rget s.b (baseOf page + 8) &&& m) ||| v) a) pg r = true) :
    ctrlCmd (baseOf page) m v a s = .next (s.put (wrote
      (ctrlWrite s.par (counted s.b) pg ((rget s.b (baseOf page + 8) &&& m) ||| v)) (baseOf page + 8))) := by
  obtain ⟨aligned, small⟩ := baseOf_aligned page
  rw [ctrlCmd_access]
  generalize hw : (rget s.b (baseOf page + 8) &&& m) ||| v = w at h ⊢
  have fits : w < 2 ^ 32 := hw ▸ Nat.or_lt_two_pow (Nat.and_lt_two_pow _ hm) hv
  obtain ⟨hmw, off, -⟩ := takesCtrl_iff.1 h
  obtain ⟨meet, -⟩ := meetsWrite_iff.1 hmw
  have row := meets_row meet
  have place := meets_addr meet
  rw [off] at row
  rw [off, accAddr_wacc _ _ _ (by omega) (by omega)] at place
  have single : r.pair ≠ 2 := by simp [pageRow_header_pair (by decide) row]
  rw [takesCtrl_perform h, codeAddr_of_pair_ne_two _ single, place, wacc_data _ _ fits]

/-- A write of PAGE_ERR clears the bits that are 1 in it. -/
theorem pageErrClear_takes {w : Word} (h : meetsWrite s.par s.b (wacc (baseOf page + 0x10) w.toNat a) pg r = true) :
    exec (.pageErrClear page w a) s = .next (s.put (wrote (rclrBits (counted s.b) (baseOf page + 0x10) (w.toNat &&& 0x103FF))
      (codeAddr (baseOf page + 0x10) r))) := by
  obtain ⟨aligned, small⟩ := baseOf_aligned page
  have addr := accAddr_wacc (baseOf page + 0x10) w.toNat a (by omega) (by omega)
  have off : accAddr (wacc (baseOf page + 0x10) w.toNat a) % 0x1000 = 0x10 := by omega
  obtain ⟨meet, write, strobes, writable⟩ := meetsWrite_iff.1 h
  have place := meets_addr meet
  rw [off, addr] at place
  rw [exec_pageErrClear, meets_perform meet, if_pos write, performWrite_pageErr strobes (meets_row meet) writable off, place,
    wacc_data _ _ w.isLt]
end

/-- Settles O25: each command of PAGE_CTRL is one write that keeps some bits and sets others. -/
theorem pageControlWrites : Obligations.PageControlWrites := by
  rintro s page a pg r base c rfl rfl
  refine ⟨ctrlCmd_takes (by decide) (by decide), ctrlCmd_takes (by decide) (by decide), fun h => ?_,
    ctrlCmd_takes (by decide) (by decide), fun w => pageErrClear_takes⟩
  have release := ctrlCmd_takes (page := page) (by decide) (by decide) h
  rwa [Nat.or_zero] at release

/-! ## Any register, and the shadows of pairs (R32 to R35) -/

section
variable {s : State} {addr : BitVec 24} {w : Word} {a : Attr} {pg : Page} {r : RegRow} (h4 : addr.toNat % 4 = 0)
include h4

theorem registerWrite_takes {b' y : Block} (h : takesWrite s.par s.b (wacc addr.toNat w.toNat a) pg r = true)
    (hw : regWrite s.par (counted s.b) pg (addr.toNat % 0x1000) r w.toNat none = (.ok b', y)) :
    exec (.registerWrite addr w a) s = .next (s.put (wrote b' addr.toNat)) := by
  have place := meets_addr (takesWrite_meets h)
  rw [accAddr_wacc _ _ _ addr.isLt h4] at place
  exact takesWrite_effect h addr.isLt h4 w.isLt place.symm rfl hw

/-- The low half of a pair goes to the write shadow (R34). -/
theorem wideWriteShadow_takes (h : meetsWrite s.par s.b (wacc addr.toNat w.toNat a) pg r = true) (low : r.pair = 1)
    (hctrl : addr.toNat % 0x1000 ≠ 8) (herr : addr.toNat % 0x1000 ≠ 0x10) :
    exec (.wideWriteShadow addr w a) s = .next (s.put (shadowed s.b addr.toNat w)) := by
  have waddr := accAddr_wacc addr.toNat w.toNat a addr.isLt h4
  obtain ⟨meet, write, strobes, writable⟩ := meetsWrite_iff.1 h
  have data : (wacc addr.toNat w.toNat a).data = w := BitVec.eq_of_toNat_eq (wacc_data _ _ w.isLt)
  rw [exec_wideWriteShadow, meets_perform meet, if_pos write,
    performWrite_low strobes (meets_row meet) writable (by rwa [waddr]) (by rwa [waddr]) low, meets_addr meet, waddr, data]
  rfl

/-- A read of the low half of a pair takes the high half into the read shadow (R34). -/
theorem wideReadLatch_takes (h : takesRead s.par s.b (racc addr.toNat a) pg r = true) (low : r.pair = 1)
    (plain : readLatch (counted s.b) pg (addr.toNat % 0x1000) = counted s.b) :
    exec (.wideReadLatch addr a) s = .next (s.put (respond (setRsh (counted s.b) (tput (counted s.b).cfg.rshadow addr.toNat
      (BitVec.ofNat 32 (readReg s.par (counted s.b) pg (addr.toNat % 0x1000 + 4))))) .ok
      (readReg s.par (counted s.b) pg (addr.toNat % 0x1000)))) := by
  have raddr := accAddr_racc addr.toNat a addr.isLt h4
  obtain ⟨meet, read, code⟩ := takesRead_iff.1 h
  rw [exec_wideReadLatch, meets_perform meet, if_neg (by simp [read]),
    performRead_low (meets_row meet) code (by rwa [raddr]) low, meets_addr meet, raddr]
end

/-- Settles O26: a plain write by the register's own unit, the halves of pairs by the shadows. -/
theorem registerAccesses : Obligations.RegisterAccesses := by
  rintro s addr w a pg r off b h4 rfl rfl
  exact ⟨fun b' x => registerWrite_takes h4, wideWriteShadow_takes h4, wideReadLatch_takes h4⟩

/-! ## Accesses that the port or the page refuses (R26, R31 to R33, R37, R40) -/

theorem cfgAccess_performs {p : Params} {b : Block} {x : Access} (hq : b.cfg.held = []) (hf : accFate p b x = .perform)
    (med : Option Med) : cfgAccess p b x med = performAcc p b x med := by
  simp [cfgAccess, hq, meetAcc, hf]

section
variable {p : Params} {b : Block} {x : Access} {pg : Page} {med : Option Med}

theorem performAcc_noPage (h : pageAt p (accAddr x) = none) : performAcc p b x med = refuseDec (counted b) x := by
  simp [performAcc, h, counted]

section
variable (hp : pageAt p (accAddr x) = some pg)
include hp

theorem performAcc_notAdmitted (alive : isDead (counted b) = false) (h : admits (counted b) x pg = false) :
    performAcc p b x med = refuse (counted b) x (pageB pg) ePriv 0 := by
  unfold counted at *
  simp [performAcc, hp, alive, h]

variable (hw : x.write = true)
include hw

theorem performAcc_dead (alive : isDead (counted b) = true) (h : deadWrite pg (accAddr x % 0x1000) = false) :
    performAcc p b x med = refuse (counted b) x (pageB pg) eFrozen 0 := by
  unfold counted at *
  simp [performAcc, hp, hw, alive, h]

theorem performAcc_write (alive : isDead (counted b) = false) (h : admits (counted b) x pg = true) :
    performAcc p b x med = performWrite p (counted b) x pg med := by
  unfold counted at *
  simp [performAcc, hp, hw, alive, h]
end
end

/-! ## The record of a refusal (R28, R40) -/

theorem pageB_aligned (pg : Page) : pageB pg % 0x1000 = 0 := by
  cases pg <;> simp only [pageB, hubB, cfgB, xlatB, fcB, hcntB, pwrB, gtalB, stnB, chanB, strdB, shpB, codecB, nearB, ltalB,
    ordB, scntB, dbellB, linkB, lportB, vaultB, vchB, partB, mboxB] <;> omega

/-- PAGE_ERR resets to 0 on every page (R28). -/
theorem resetWord_pageErr {a : Nat} (h : a % 0x1000 = 0x10) : resetWord a = 0 := by
  unfold resetWord
  rw [h]
  cases pageOf a with
  | none => rfl
  | some pg => rfl

/-- A bit that resets to 0 and is 1 in what is stored reads 1. -/
theorem bit_rset_of_reset_clear (b : Block) {a v i : Nat} (hr : bit (resetWord a) i = false) (hi : i < 32)
    (hv : v.testBit i = true) : bit (rget (rset b a v) a) i = true := by
  have set : (v % 2 ^ 32).testBit i = true := by rw [Nat.testBit_mod_two_pow, hv, decide_eq_true hi]; rfl
  rw [rget_rset_of_ne_reset b fun e => by rw [← e, bit, set] at hr; cases hr]
  exact set

section
variable (b : Block) (base i addr info : Nat)

theorem rget_pageErr_ne {a : Nat} (h : a < base + 0x10 ∨ base + 0x24 ≤ a) : rget (pageErr b base i addr info) a = rget b a := by
  unfold pageErr
  dsimp only
  split
  · rw [rget_rset_ne _ _ (by omega), rget_rset_ne _ _ (by omega), rget_rset_ne _ _ (by omega), rget_rset_ne _ _ (by omega)]
  · rw [rget_rset_ne _ _ (by omega)]

theorem bit_pageErr (hb : base % 0x1000 = 0) (hi : i < 32) : bit (rget (pageErr b base i addr info) (base + 0x10)) i = true := by
  have clear : bit (resetWord (base + 0x10)) i = false := by
    rw [resetWord_pageErr (by omega)]
    exact Nat.zero_testBit i
  unfold pageErr
  dsimp only
  split
  · rw [rget_rset_ne _ _ (by omega), rget_rset_ne _ _ (by omega), rget_rset_ne _ _ (by omega)]
    exact bit_rset_of_reset_clear _ clear hi Nat.testBit_two_pow_self
  · exact bit_rset_of_reset_clear _ clear hi (by simp)

theorem rget_cfgError (a : Nat) : rget (cfgError b base i addr info) a = rget (pageErr b base i addr info) a := by
  unfold cfgError
  dsimp only
  split <;> rfl
end

section
variable (b : Block) (x : Access) (pg : Page) (i kind : Nat)

/-- A refusal sets its bit of PAGE_ERR and leaves the registers that the page holds. -/
theorem rget_refuse_record (hi : i < 32) : bit (rget (refuse b x (pageB pg) i kind) (pageB pg + 0x10)) i = true ∧
    ∀ o : Nat, 0x40 ≤ o → rget (refuse b x (pageB pg) i kind) (pageB pg + o) = rget b (pageB pg + o) := by
  have regs : ∀ a, rget (refuse b x (pageB pg) i kind) a =
      rget (pageErr b (pageB pg) i (accAddr x) (accInfo x 2 kind)) a := rget_cfgError _ _ _ _ _
  refine ⟨?_, fun o ho => ?_⟩
  · rw [regs]
    exact bit_pageErr _ _ _ _ _ (pageB_aligned pg) hi
  · rw [regs]
    exact rget_pageErr_ne _ _ _ _ _ (.inr (by omega))

/-- A refusal touches stored registers, the response and the referee, and nothing else. -/
theorem refuse_agree : Agree 0x200003 b (refuse b x (pageB pg) i kind) :=
  keep_refuse (keeps_agree _ b) (by decide) (agree_refl _ b) x (pageB pg) i kind
end

/-- Settles O60: the port's judgement case by case, then what a refusal records and what it leaves. -/
theorem refusedAccesses : Obligations.RefusedAccesses := by
  refine ⟨?_, ?_, fun b x => ⟨rfl, rfl⟩⟩
  · rintro s addr w a x b h4 rfl hq hf rfl
    have waddr := accAddr_wacc addr.toNat w.toNat a addr.isLt h4
    rw [exec_registerWrite, cfgAccess_performs hq hf]
    refine ⟨fun absent => ?_, ?_⟩
    · rw [performAcc_noPage (by rwa [waddr])]
    · rintro pg off page rfl
      rw [← waddr] at page
      refine ⟨fun dead h => ?_, fun alive => ⟨fun no => ?_, fun yes h0 => ?_, fun yes h0 h15 => ?_, fun yes h15 => ?_⟩⟩
      · rw [performAcc_dead page rfl dead (by rwa [waddr])]
        rfl
      · rw [performAcc_notAdmitted page alive no]
        rfl
      · rw [performAcc_write page rfl alive yes, performWrite_noStrobe h0]
      · rw [performAcc_write page rfl alive yes, performWrite_partial h0 h15]
        rfl
      · rw [performAcc_write page rfl alive yes]
        refine ⟨fun absent => ?_, fun r row => ⟨fun ro => ?_, fun writable single h40 i hi => ⟨?_, judge_locks_or_freezes hi⟩⟩⟩
        · rw [performWrite_noRow h15 (by rwa [waddr])]
          rfl
        · rw [performWrite_readOnly h15 (by rwa [waddr]) ro]
          rfl
        · rw [performWrite_judged h15 (by rwa [waddr]) writable (by rwa [waddr]) single
            (by rwa [waddr, wacc_data _ _ w.isLt])]
  · rintro b x pg i hi b' rfl
    obtain ⟨recorded, held⟩ := rget_refuse_record b x pg i 0 (by omega)
    have frame := refuse_agree b x pg i 0
    exact ⟨rfl, rfl, recorded, frame.chans rfl, frame.strands rfl, frame.stations rfl, frame.tallies rfl, frame.parts rfl,
      frame.ports rfl, frame.gops rfl, frame.vault rfl, frame.pwr rfl, frame.mgmt rfl, fun o ho _ => held o ho⟩

end Sys2Proof.Machine
end

section
/-! SUPPORT. Soft resets and code errors of registers (R29, R41, R72, R74, R277, R316). -/
namespace Sys2Proof.Machine

/-! ## Commands by their condition -/

theorem exec_softResetBegin (n : Nat) (s : State) : exec (.softResetBegin n) s = .next (s.put (resetBegin s.b n)) := rfl

theorem exec_softResetDone (page : BitVec 24) (s : State) : exec (.softResetDone page) s =
    .next (s.put (resetDone s.par s.b page.toNat)) := rfl

theorem exec_registerCodeError (addr : BitVec 24) (corrected : Bool) (s : State) : exec (.registerCodeError addr corrected) s =
    .next (s.put (if s.b.pwr.boot = .reset then s.b
      else if corrected then codeCorrected s.par s.b (addr.toNat / 4 * 4)
      else deadPump s.par s.b (codeError s.par s.b (addr.toNat / 4 * 4)))) := rfl

/-! ## Resets -/

theorem resetDone_page {p : Params} {b : Block} {addr : Nat} {pg : Page} (hp : pageAt p addr = some pg)
    (hs : ∀ n, pg = .stn n → (getStn b n).resetting = 2) (ho : (∀ n, pg ≠ .stn n) → pageResetting b pg = true) :
    resetDone p b addr = cfgPump p (unitReset p b pg) := by
  cases pg with
  | stn n => simp [resetDone, hp, hs n rfl]
  | _ => simp [resetDone, hp, ho (fun _ e => by cases e)]

/-! ## Code errors -/

/-- An event that enters no dead ball lets no held access go on. -/
theorem deadPump_of_isDead_eq {p : Params} {b b' : Block} (h : isDead b' = isDead b) : deadPump p b b' = b' := by
  unfold deadPump
  rw [h]
  cases isDead b <;> rfl

/-- The register at address a fails its code from now on (R41). -/
def failCode (b : Block) (a : Nat) : Block := { recode b a with badRegs := (recode b a).badRegs ++ [a] }

section
variable {p : Params} {b : Block} {addr : Nat} {r : RegRow} (hp : pageAt p addr = some .cfg)
  (hr : pageRow .cfg (addr % 0x1000) = some r) (single : r.pair = 0)
include hp hr single

/-- A code error of a register of the CFG page. -/
theorem codeError_cfg : codeError p b addr =
    signalEv (pageErr (failCode b addr) cfgB eParity addr 0) srcCfg 0x44 noUnit addr (5 * 2 ^ 32) := by
  have base : cfgB = addr / 0x1000 * 0x1000 := pageOf_base (Option.filter_eq_some_iff.1 hp).1
  have place : cfgB + addr % 0x1000 = addr := by omega
  have whole : codeAddr (cfgB + addr % 0x1000) r = addr := by
    rw [codeAddr_of_pair_ne_two _ (by simp [single]), place]
  simp [codeError, hp, hr, pageSrc, pageB, whole, failCode]

theorem codeError_cfg_marks : (codeError p b addr).badRegs.contains addr = true ∧
    bit (rget (codeError p b addr) (cfgB + 0x10)) 7 = true ∧ isDead (codeError p b addr) = isDead b := by
  rw [codeError_cfg hp hr single]
  refine ⟨?_, bit_pageErr _ cfgB eParity addr 0 (by decide) (by decide), ?_⟩
  · have marks := pageErr_keeps (·.badRegs) (fun _ _ _ => rfl) (failCode b addr) cfgB eParity addr 0
    simp only [signalEv, modRef, marks]
    simp [failCode]
  · exact congrArg (·.dead) (pageErr_keeps (·.ref) (fun _ _ _ => rfl) (failCode b addr) cfgB eParity addr 0)
end

/-- Settles O40: a reset by its stage, a code error by what its page records or counts. -/
theorem resetsAndCodes : Obligations.ResetsAndCodes := by
  intro s
  refine ⟨?_, ?_, ?_, ?_⟩
  · rintro n st rfl begun haz wr wWr vWr near barReq barriers
    simp [exec_softResetBegin, resetBegin, begun, haz, wr, wWr, vWr, near, barReq, barriers]
  · intro page pg hp hs ho
    rw [exec_softResetDone, resetDone_page hp hs ho]
  · intro addr r boot h4 hp hr single
    have word : addr.toNat / 4 * 4 = addr.toNat := by omega
    obtain ⟨marked, parity, alive⟩ := codeError_cfg_marks (b := s.b) hp hr single
    refine ⟨s.put (codeError s.par s.b addr.toNat), ?_, marked, parity⟩
    rw [exec_registerCodeError, if_neg boot, if_neg Bool.false_ne_true, word, deadPump_of_isDead_eq alive]
  · intro addr boot h4
    have word : addr.toNat / 4 * 4 = addr.toNat := by omega
    have counts : exec (.registerCodeError addr true) s = .next (s.put (codeCorrected s.par s.b addr.toNat)) := by
      rw [exec_registerCodeError, if_neg boot, if_pos rfl, word]
    rw [counts]
    exact ⟨fun n hp => by simp [codeCorrected, hp], fun hp => by simp [codeCorrected, hp], fun hp => by simp [codeCorrected, hp]⟩

end Sys2Proof.Machine
end

section
/-! SUPPORT. Events that the referee samples: the severity that an event gives its source, and what a record and a reaction leave
(R37, R347 to R349, R352, R358, R364). -/
namespace Sys2Proof.Machine

theorem exec_sourceEvent (src : Nat) (s : State) : exec (.sourceEvent src none) s = .next (s.put (
    if s.b.pwr.boot ≠ .reset ∧ srcPresent s.par src then deadPump s.par s.b (sample s.b src) else s.b)) := rfl

theorem sample_pin {b : Block} {src : Nat} {e : Ev} {rest : List Ev} (h : takePin b.ref.pins src = some (e, rest)) :
    sample b src = drainData (rest.length + 1) (srcEvent (modRef b (fun r => { r with pins := rest })) e) src := by
  simp only [sample, h]

/-! ## What records, reactions and causes leave: each source's severity, and its escalation settings -/

section
variable (b : Block)

theorem getSrc_congr {b b' : Block} (h : b'.ref.srcs = b.ref.srcs) (i : Nat) : getSrc b' i = getSrc b i := by
  rw [getSrc, getSrc, h]

theorem getSrc_setSrc_ne {i j : Nat} (x : Src) (h : i ≠ j) : getSrc (setSrc b j x) i = getSrc b i :=
  tgetD_tput_ne _ _ _ h

/-- An update of a source that keeps its severity keeps every source's. -/
theorem setSrc_st (j : Nat) {x : Src} (h : x.st = (getSrc b j).st) (i : Nat) : (getSrc (setSrc b j x) i).st = (getSrc b i).st := by
  by_cases hi : i = j
  · subst hi
    rw [get_setSrc, h]
  · rw [getSrc_setSrc_ne _ _ hi]

@[simp] theorem getSrc_setCause (vec m i : Nat) : getSrc (setCause b vec m) i = getSrc b i := by
  exact getSrc_congr (congrArg (·.srcs) (setCause_ref b vec m)) i

@[simp] theorem getSrc_rset (a v i : Nat) : getSrc (rset b a v) i = getSrc b i := rfl

@[simp] theorem isDead_setSrc (j : Nat) (x : Src) : isDead (setSrc b j x) = isDead b := rfl

@[simp] theorem isDead_setCause (vec m : Nat) : isDead (setCause b vec m) = isDead b := congrArg (·.dead) (setCause_ref b vec m)

@[simp] theorem isDead_rset (a v : Nat) : isDead (rset b a v) = isDead b := rfl

/-- A record that finds its source's buffer full is lost: the source's counts, its register and FC_STATUS's mark show it
(R355). -/
def loseRec (r : Rec) (x : Src) : Block := rsetBits (rcount (setSrc b r.src x) (fsR r.src 0xC) 1) (fcB + 0x48) 1

/-- A record is held, or it is lost, with the cause of the first loss. -/
theorem holdRec_cases (r : Rec) : ∃ x : Src, x.st = (getSrc b r.src).st ∧
    (holdRec b r = setSrc b r.src x ∨ holdRec b r = loseRec b r x ∨ holdRec b r = setCause (loseRec b r x) 1557 8) := by
  unfold holdRec
  extract_lets s lost b1 b2 was b3
  by_cases room : s.hold.length < 4
  · exact ⟨{ s with hold := s.hold ++ [r] }, rfl, .inl (if_pos room)⟩
  · refine ⟨lost, by unfold lost; split <;> rfl, .inr ?_⟩
    rw [if_neg room]
    by_cases marked : was = true
    · exact .inl (if_pos marked)
    · exact .inr (if_neg marked)

theorem holdRec_st (r : Rec) (i : Nat) : (getSrc (holdRec b r) i).st = (getSrc b i).st := by
  obtain ⟨x, hx, h | h | h⟩ := holdRec_cases b r <;> rw [h]
  · exact setSrc_st b _ hx i
  · exact setSrc_st b _ hx i
  · rw [getSrc_setCause]
    exact setSrc_st b _ hx i

theorem isDead_holdRec (r : Rec) : isDead (holdRec b r) = isDead b := by
  obtain ⟨x, -, h | h | h⟩ := holdRec_cases b r <;> rw [h]
  · rfl
  · rfl
  · exact isDead_setCause _ _ _

theorem isDead_reaction (src kind : Nat) (insvc : Bool) (detail : Nat) :
    isDead (reaction b src kind insvc detail) = isDead b := isDead_holdRec b _

theorem rget_holdRec_ne (r : Rec) {a : Nat} (hl : a ≠ fsR r.src 0xC) (ho : a ≠ fcB + 0x48) (hc : a ≠ fcB + 0x58) :
    rget (holdRec b r) a = rget b a := by
  have lost : ∀ x : Src, rget (loseRec b r x) a = rget b a := fun x => (rget_rset_ne _ _ ho).trans (rget_rset_ne _ _ hl)
  obtain ⟨x, -, h | h | h⟩ := holdRec_cases b r <;> rw [h]
  · rfl
  · exact lost x
  · exact (rget_setCause_ne (c := fcB + 0x58) (k := fcB + 0x5C) _ rfl hc).trans (lost x)

theorem reaction_st (src kind : Nat) (insvc : Bool) (detail i : Nat) :
    (getSrc (reaction b src kind insvc detail) i).st = (getSrc b i).st := holdRec_st b _ i

/-- A source's MAJOR_ACT and ESC_N stand in its settings word (R366). -/
theorem majorAct_congr {b b' : Block} {i : Nat} (h : rget b' (fsR i 0) = rget b (fsR i 0)) : majorAct b' i = majorAct b i := by
  simp only [majorAct, rbits, h]

theorem escN_congr {b b' : Block} {i : Nat} (h : rget b' (fsR i 0) = rget b (fsR i 0)) : escN b' i = escN b i := by
  simp only [escN, rbits, h]

/-- The settings word of a source is neither another register of a source nor one below the sources' table. -/
theorem fsR_settings_ne {i j off : Nat} (h0 : 0 < off) (h : off < 0x10) : fsR i 0 ≠ fsR j off := by
  unfold fsR
  omega

theorem fsR_ne_low {i off : Nat} (h : off < 0x400) : fsR i 0 ≠ fcB + off := by
  unfold fsR
  omega

theorem settings_holdRec (r : Rec) (i : Nat) : rget (holdRec b r) (fsR i 0) = rget b (fsR i 0) :=
  rget_holdRec_ne b r (fsR_settings_ne (by decide) (by decide)) (fsR_ne_low (by decide)) (fsR_ne_low (by decide))

/-- Dead ball is entered with a reaction of its first trigger, and the sources are then as the reaction leaves them. -/
theorem enterDead_srcs (src kind : Nat) (alive : isDead b = false) : (enterDead b src kind).ref.srcs =
    (reaction b src 0x62 (decide ((getSrc b src).st ≠ .idle)) (kind * 2 ^ 8)).ref.srcs := by
  unfold isDead at alive
  simp [enterDead, alive, setCause_ref]

theorem enterDead_st (src kind i : Nat) : (getSrc (enterDead b src kind) i).st = (getSrc b i).st := by
  by_cases dead : isDead b = true
  · rw [show enterDead b src kind = b from if_pos dead]
  · rw [getSrc_congr (enterDead_srcs b src kind (by simpa using dead)), reaction_st]

/-! ## The severity of an event (R348, R349, R352, R358) -/

/-- The severity of a source that an event puts, or finds, in service. -/
def openSev (st : SrcSt) : SrcSt := if st = .idle then .minor else st

/-- The event fills its source's escalation window (R349). -/
def fillsWindow (e : Ev) : Bool :=
  decide (escN b e.src ≠ 0) &&
    decide (escN b e.src ≤ if (getSrc b e.src).window then min 255 ((getSrc b e.src).count + 1) else 1)

/-- The severity that an event asks for its source. -/
def eventSev (e : Ev) : SrcSt :=
  if kindSev e.kind = 2 then .critical
  else if (kindSev e.kind = 1 || fillsWindow b e) && openSev (getSrc b e.src).st = .minor then .major
  else openSev (getSrc b e.src).st

/-- A counted event escalates its source to the severity that it asks for, once it is counted and recorded. -/
theorem srcEvent_escalates (e : Ev) : ∃ b', srcEvent b e = escalate b' e.src e.kind (openSev (getSrc b e.src).st)
      (eventSev b e) (decide ((getSrc b e.src).st ≠ .idle)) ∧
    isDead b' = isDead b ∧ majorAct b' e.src = majorAct b e.src := by
  have counted : escN (rcount b (fsR e.src 8) 1) e.src = escN b e.src :=
    escN_congr (rget_rset_ne _ _ (fsR_settings_ne (by decide) (by decide)))
  unfold srcEvent eventSev fillsWindow
  simp only [counted]
  refine ⟨_, rfl, ?_, majorAct_congr ?_⟩
  · exact isDead_holdRec _ _
  · refine (settings_holdRec _ _ _).trans ?_
    exact rget_rset_ne _ _ (fsR_settings_ne (by decide) (by decide))

theorem escalate_minor (src kind : Nat) (old : SrcSt) (insvc : Bool) :
    escalate b src kind old .minor insvc = modSrc b src (fun s => { s with st := .minor }) := by
  simp [escalate]

/-- A source whose MAJOR action is to report only becomes MAJOR, with its record and cause (R350). -/
theorem escalate_reports {src : Nat} (kind : Nat) (insvc : Bool) (h : majorAct b src = 1) :
    ∃ detail, escalate b src kind .minor .major insvc =
      setCause (reaction (modSrc b src (fun s => { s with st := .major })) src 0x60 insvc detail) 1557 2 := by
  have after : ∀ detail,
      majorAct (setCause (reaction (modSrc b src (fun s => { s with st := .major })) src 0x60 insvc detail) 1557 2) src = 1 :=
    fun detail => (majorAct_congr ((rget_setCause_ne (c := fcB + 0x58) (k := fcB + 0x5C) _ rfl (fsR_ne_low (by decide))).trans
      (settings_holdRec _ _ _))).trans h
  exact ⟨_, by simp [escalate, h, after]; rfl⟩
end

theorem modSrc_st (b : Block) (src : Nat) (st : SrcSt) : (getSrc (modSrc b src (fun s => { s with st := st })) src).st = st := by
  simp [modSrc]

section
variable {b : Block} {e : Ev}

/-- A CRITICAL kind enters dead ball (R352, R358). -/
theorem srcEvent_criticalKind (h : kindSev e.kind = 2) :
    (getSrc (srcEvent b e) e.src).st = .critical ∧ isDead (srcEvent b e) = true := by
  obtain ⟨b', escalates, -, -⟩ := srcEvent_escalates b e
  have sev : eventSev b e = .critical := by simp [eventSev, h]
  rw [escalates, sev, escalate_critical]
  exact ⟨(enterDead_st _ _ _ _).trans (modSrc_st b' e.src .critical), enterDead_dead _ _ _⟩

/-- A MINOR kind at an idle source, with no window open and ESC_N not 1 (R348, R349). -/
theorem srcEvent_minorKind (h : kindSev e.kind = 0) (idle : (getSrc b e.src).st = .idle)
    (closed : (getSrc b e.src).window = false) (hn : escN b e.src ≠ 1) :
    (getSrc (srcEvent b e) e.src).st = .minor ∧ isDead (srcEvent b e) = isDead b := by
  obtain ⟨b', escalates, dead, -⟩ := srcEvent_escalates b e
  have few : fillsWindow b e = false := by
    simp only [fillsWindow, closed, Bool.false_eq_true, if_false, Bool.and_eq_false_iff, decide_eq_false_iff_not]
    omega
  have sev : eventSev b e = .minor := by simp [eventSev, h, few, openSev, idle]
  rw [escalates, sev, escalate_minor]
  exact ⟨modSrc_st b' e.src .minor, dead⟩

/-- A MAJOR kind at an idle source whose MAJOR action is to report only (R352, R358). -/
theorem srcEvent_majorKind (h : kindSev e.kind = 1) (idle : (getSrc b e.src).st = .idle) (act : majorAct b e.src = 1) :
    (getSrc (srcEvent b e) e.src).st = .major ∧ isDead (srcEvent b e) = isDead b := by
  obtain ⟨b', escalates, dead, settings⟩ := srcEvent_escalates b e
  have opened : openSev (getSrc b e.src).st = .minor := by simp [openSev, idle]
  have sev : eventSev b e = .major := by simp [eventSev, h, opened]
  obtain ⟨detail, reports⟩ := escalate_reports b' e.kind (decide ((getSrc b e.src).st ≠ .idle)) (settings.trans act)
  rw [escalates, opened, sev, reports, getSrc_setCause, reaction_st, isDead_setCause, isDead_reaction]
  exact ⟨modSrc_st b' e.src .major, dead⟩
end

/-- Settles O37: the sampled event from its pin, then the severity by the kind of the event. -/
theorem events : Obligations.Events := by
  refine ⟨?_, fun p b b' => rfl, fun b e => ⟨srcEvent_criticalKind, srcEvent_minorKind, srcEvent_majorKind⟩⟩
  intro s src e rest boot present pin
  rw [exec_sourceEvent, if_pos ⟨boot, present⟩, sample_pin pin]

end Sys2Proof.Machine
end

section
/-! SUPPORT. Accesses with an effect of their own, what each unit does with them, and accesses that wait for a thaw (R36, R243,
R372, R376, R377, R399). -/
namespace Sys2Proof.Machine

/-! ## Commands as accesses of the port -/

theorem cfgRead_access (p : Params) (b : Block) (addr : Nat) (a : Attr) :
    cfgRead p b addr a = cfgAccess p b (racc addr a) none := rfl

theorem exec_hazInfoLatch (n : Nat) (a : Attr) (s : State) (hn : n < 48) : exec (.hazInfoLatch n a) s =
    effect (fun p b => cfgRead p b (ordB n + 0x5C) a) s := by
  show readIf (okStn n) _ _ _ = _
  simp [readIf, okStn, hn]

theorem exec_stationWake (n : Nat) (a : Attr) (s : State) (hn : n < 48) : exec (.stationWake n a) s =
    effect (fun p b => cfgWrite p b (stnB n + 0x40) 1 a) s := by
  show writeIf (okStn n) _ _ _ _ = _
  simp [writeIf, okStn, hn]

theorem exec_m2hAck (a : Attr) (s : State) : exec (.m2hAck a) s = effect (fun p b => cfgWrite p b (mboxB + 0xB4) 0 a) s := rfl

theorem exec_counterFreeze (a : Attr) (s : State) : exec (.counterFreeze a) s =
    effect (fun p b => cfgWrite p b (hcntB + 0x40) 1 a) s := rfl

theorem exec_counterRelease (a : Attr) (s : State) : exec (.counterRelease a) s =
    effect (fun p b => cfgWrite p b (hcntB + 0x40) 0 a) s := rfl

theorem exec_configAccessThaw (x : Access) (s : State) : exec (.configAccessThaw x) s =
    .next (s.put (cfgAccess s.par s.b x none)) := rfl

/-! ## What the units do with their registers -/

section
variable (p : Params) (b : Block) (r : RegRow) (med : Option Med)

theorem regWrite_wake (n w : Nat) :
    regWrite p b (.stn n) 0x40 r w med = (.ok (rset b (stnB n + 0x40) (w &&& rowMask r)), b) := rfl

theorem regWrite_m2hAck (w : Nat) : regWrite p b .mbox 0xB4 r w med = (.ok (ackM2h b), b) := rfl

theorem regWrite_freeze (w : Nat) : regWrite p b .hcnt 0x40 r w med = (.ok (freezeWrite b w), b) := rfl

theorem readLatch_hazInfo (n : Nat) : readLatch b (.ord n) 0x5C =
    { b with hazLatch := tput b.hazLatch n (BitVec.ofNat 32 (hazShown b n).1, BitVec.ofNat 64 (hazShown b n).2.1,
                                            BitVec.ofNat 64 (hazShown b n).2.2) } := rfl

/-- A freeze of running counters takes hold one or two AO_REFCLK cycles on (R399). -/
theorem freezeWrite_freezes (running : bit (rget b (hcntB + 0x40)) 0 = false) : ∃ x : Nat, x < 2 ∧
    (freezeWrite b 1).frzTime = b.aoTime + 1 + x ∧
    rget (freezeWrite b 1) (hcntB + 0x40) = 1 + (rget b (hcntB + 0x40) &&& 2) := by
  have goes : (bit 1 0 && !bit (rget b (hcntB + 0x40)) 0) = true := by rw [running]; decide
  have keepsSnap : bit 1 1 = false := by decide
  have small : rget b (hcntB + 0x40) &&& 2 ≤ 2 := Nat.and_le_right
  refine ⟨(draw b).1 % 2, Nat.mod_lt _ (by decide), ?_, ?_⟩
  · simp [freezeWrite, goes, draw]
  · have stored : rget (rset (draw b).2 (hcntB + 0x40) (1 + (rget b (hcntB + 0x40) &&& 2))) (hcntB + 0x40) =
        (1 + (rget b (hcntB + 0x40) &&& 2)) % 2 ^ 32 := rget_rset_of_ne_reset _ (by
      have zero : resetWord (hcntB + 0x40) = 0 := by decide
      omega)
    simp only [freezeWrite, goes, keepsSnap, if_true, Bool.false_eq_true, if_false]
    exact stored.trans (Nat.mod_eq_of_lt (by omega))

theorem freezeWrite_releases : freezeWrite b 0 = rset b (hcntB + 0x40) (rget b (hcntB + 0x40) &&& 2) := by
  have stays : (bit 0 0 && !bit (rget b (hcntB + 0x40)) 0) = false := by simp [bit]
  have keepsSnap : bit 0 1 = false := by decide
  simp [freezeWrite, stays, keepsSnap]
end

/-! ## Accesses that wait for a thaw (R36, R372, R376) -/

theorem reqThaw_asks {b : Block} {n : Nat} (asleep : (getStn b n).power ≠ .active) (quiet : (getStn b n).wakeReq = false) :
    (getStn (reqThaw b n) n).wakeReq = true ∧ (reqThaw b n).cfg = b.cfg := by
  unfold reqThaw
  dsimp only
  rw [if_neg (by simp [asleep, quiet]), getStn_count, get_setStn, count_cfg]
  exact ⟨rfl, rfl⟩

/-- An access to a page of a station that sleeps is held, and asks for the station's thaw. -/
theorem cfgAccess_thaws {p : Params} {b : Block} {x : Access} {n : Nat} (hq : b.cfg.held = []) (hf : accFate p b x = .thaw)
    (hn : accStn x = some n) (asleep : (getStn b n).power ≠ .active) (quiet : (getStn b n).wakeReq = false) (med : Option Med) :
    (cfgAccess p b x med).cfg.held = [x] ∧ (getStn (cfgAccess p b x med) n).wakeReq = true ∧
      (cfgAccess p b x med).cfg.resp = b.cfg.resp := by
  obtain ⟨asked, port⟩ := reqThaw_asks asleep quiet
  have waits : cfgAccess p b x med =
      { reqThaw b n with cfg := { (reqThaw b n).cfg with held := (reqThaw b n).cfg.held ++ [x] } } := by
    simp [cfgAccess, hq, meetAcc, hf, hn]
  rw [waits, port, hq]
  exact ⟨rfl, asked, rfl⟩

theorem pageOf_stnCtrl {n : Nat} (hn : n < 48) : pageOf (stnB n + 0x40) = some (.stn n) := by
  have page : (stnB n + 0x40) / 0x1000 = 0x100 + 16 * n := by unfold stnB; omega
  have stn : (0x100 + 16 * n - 0x100) / 16 = n := by omega
  unfold pageOf
  dsimp only
  rw [page, if_neg (by omega), if_pos (by omega), if_pos (by omega), stn]

theorem accStn_wake {n : Nat} (a : Attr) (hn : n < 48) : accStn (wacc (stnB n + 0x40) 1 a) = some n := by
  have addr : (wacc (stnB n + 0x40) 1 a).addr.toNat = stnB n + 0x40 :=
    (BitVec.toNat_ofNat _ 24).trans (Nat.mod_eq_of_lt (by unfold stnB; omega))
  rw [accStn, addr, pageOf_stnCtrl hn]
  rfl

/-! ## UnitAccesses -/

section
variable (s : State) (n : Nat) (a : Attr) (r : RegRow)

theorem hazInfoLatch_latches (hn : n < 48) (h : takesRead s.par s.b (racc (ordB n + 0x5C) a) (.ord n) r = true)
    (single : r.pair = 0) : exec (.hazInfoLatch n a) s = .next (s.put (respond (readLatch (counted s.b) (.ord n) 0x5C) .ok
      (readReg s.par (readLatch (counted s.b) (.ord n) 0x5C) (.ord n) 0x5C))) := by
  have addr : accAddr (racc (ordB n + 0x5C) a) % 0x1000 = 0x5C := by
    rw [accAddr_racc _ _ (by unfold ordB stnB; omega) (by unfold ordB stnB; omega)]
    unfold ordB stnB
    omega
  rw [exec_hazInfoLatch _ _ _ hn, effect_put, cfgRead_access, takesRead_perform h single, addr]

theorem stationWake_wakes (hn : n < 48) (h : takesWrite s.par s.b (wacc (stnB n + 0x40) 1 a) (.stn n) r = true)
    (mask : rowMask r = 1) :
    exec (.stationWake n a) s = .next (s.put (wrote (rset (counted s.b) (stnB n + 0x40) 1) (stnB n + 0x40))) := by
  have wake := regWrite_wake s.par (counted s.b) r none n 1
  rw [mask] at wake
  rw [exec_stationWake _ _ _ hn]
  exact takesWrite_effect h (by unfold stnB; omega) (by unfold stnB; omega) (by decide) rfl (by unfold stnB; omega) wake

theorem m2hAck_acks (h : takesWrite s.par s.b (wacc (mboxB + 0xB4) 0 a) .mbox r = true) :
    exec (.m2hAck a) s = .next (s.put (wrote (ackM2h (counted s.b)) (mboxB + 0xB4))) :=
  takesWrite_effect h (by decide) (by decide) (by decide) rfl (by decide) (regWrite_m2hAck s.par (counted s.b) r none 0)

/-- A write of CNT_FREEZE that HCNT takes. -/
theorem freeze_takes {w : Nat} (hw : w < 2 ^ 32) (h : takesWrite s.par s.b (wacc (hcntB + 0x40) w a) .hcnt r = true) :
    effect (fun p b => cfgWrite p b (hcntB + 0x40) w a) s =
      .next (s.put (wrote (freezeWrite (counted s.b) w) (hcntB + 0x40))) :=
  takesWrite_effect h (by decide) (by decide) hw rfl (by decide) (regWrite_freeze s.par (counted s.b) r none w)
end

/-- Settles O27: each access by its unit's answer, and an access to a station that sleeps by its fate. -/
theorem unitAccesses : Obligations.UnitAccesses := by
  refine ⟨?_, fun s x n hq hf hn asleep quiet => ?_⟩
  · rintro s n a r b rfl
    refine ⟨fun hn h single => ⟨_, _, rfl, rfl, hazInfoLatch_latches s n a r hn h single⟩, stationWake_wakes s n a r,
      fun hn hq hf asleep quiet => ?_, m2hAck_acks s a r, fun h running => ?_, fun h => ?_⟩
    · obtain ⟨held, asked, -⟩ := cfgAccess_thaws hq hf (accStn_wake a hn) asleep quiet none
      exact ⟨_, exec_stationWake n a s hn, asked, held⟩
    · obtain ⟨x, hx, time, frozen⟩ := freezeWrite_freezes (counted s.b) running
      exact ⟨x, hx, _, freeze_takes s a r (by decide) h, time, frozen⟩
    · rw [exec_counterRelease, freeze_takes s a r (by decide) h, freezeWrite_releases]
  · obtain ⟨held, asked, resp⟩ := cfgAccess_thaws hq hf hn asleep quiet none
    exact ⟨_, exec_configAccessThaw x s, held, asked, resp⟩

end Sys2Proof.Machine
end

section
/-! SUPPORT. Channels and strands: ring entries and instruction lines that come back, status writes, interrupt messages,
dispatch and completion (R50 to R82, R433). -/
namespace Sys2Proof.Machine

/-! ## Commands by their condition -/

theorem exec_entryReadReturn (n c : Nat) (idx : Word) (w0 w1 w2 w3 : DWord) (err : Bool) (s : State) :
    exec (.entryReadReturn n c idx w0 w1 w2 w3 err) s = .next (s.put (entryBack s.par s.b n c ⟨idx, w0, w1, w2, w3⟩ err)) := rfl

theorem exec_instructionLineReturn (n k va : Nat) (data : Line) (ret : Ret) (s : State) :
    exec (.instructionLineReturn n k va data ret) s = .next (s.put (lineBack s.par s.b n k va data ret)) := rfl

theorem exec_statusWriteLanded {n c tag : Nat} {idx : Word} {s : State} (on : hubOn s.b = true)
    (posted : hubTag s.b (.status n c idx) = some tag) :
    exec (.statusWriteLanded n c idx) s = .next (s.put (statusBack s.par s.b n c idx tag true)) := by
  show effect _ s = _
  simp [effect_put, posted, on]

theorem exec_interruptSend (s : State) : exec .interruptSend s =
    .next (s.put (if hubOn s.b then { s.b with irqs := s.b.irqs.drop 1 } else s.b)) := rfl

theorem exec_entryDispatch (n c : Nat) (s : State) : exec (.entryDispatch n c) s =
    .next (s.put (if stnRuns s.b n && hubWorks s.b then dispatch s.b n c
      else if hubWorks s.b && !stnActive s.b n && !stnFenced s.b n && decide ((getChan s.b n c).accepted ≠ []) then
        reqThaw s.b n
      else s.b)) := rfl

theorem exec_entryComplete (n k : Nat) (s : State) : exec (.entryComplete n k) s =
    .next (s.put (if stnFenced s.b n || isDead s.b then s.b else entryEnd s.par (tick s.b n k) n k)) := rfl

/-! ## Ring entries that return (R50, R66) -/

section
variable (p : Params) {b : Block} {n c : Nat} {r : RawEntry} (asked : r.idx ∈ (getChan b n c).reading)
include asked

theorem entryBack_good : entryBack p b n c r false = pump p (modChan (setChan b n c { getChan b n c with
    reading := (getChan b n c).reading.filter (· ≠ r.idx) }) n c (fun y => { y with got := y.got ++ [r] })) n c := by
  simp [entryBack, asked]

/-- An entry of no cancelled range that cannot be read stops its channel; the address of its slot does not depend on the
channel's state. -/
theorem entryBack_error (wanted : (getChan b n c).cancelFrom = (getChan b n c).cancelTo) :
    entryBack p b n c r true = pump p (stopChan (memErr (setChan b n c { getChan b n c with
      reading := (getChan b n c).reading.filter (· ≠ r.idx) }) n 0x43 noUnit (chanB n) (slotAddr b n c r.idx)
      (errInfo c 0 0 0 0 3) 0) n c 0x23 (some r.idx)) n c := by
  have slot (x : Chan) : slotAddr (setChan b n c x) n c r.idx = slotAddr b n c r.idx := rfl
  simp [entryBack, asked, wanted, ringErr, slot, b2n]
end

/-! ## Reads of the prefetcher that return (R67, R74, R82) -/

/-- A return without error, poison or code errors makes no fault (R425 to R427). -/
theorem retCause_good (p : Params) (words : Nat) : retCause p words ⟨0, 0, 0⟩ = none := by simp [retCause]

@[simp] theorem getStn_drained (b : Block) (n key m : Nat) : getStn (drained b n key) m = getStn b m := rfl

/-- A station takes what returns while it is active and not stopped. -/
theorem stnDiscards_eq_false {b : Block} {n : Nat} (going : (getStn b n).stopCode = 0) (awake : stnActive b n = true) :
    stnDiscards b n = false := by
  simp [stnDiscards, going, awake]

/-- What a station has asked for does not decide whether it takes what returns. -/
theorem stnDiscards_withPf (b : Block) (n key : Nat) (l : List Fetch) :
    stnDiscards (drained (withPf b n l) n key) n = stnDiscards b n := by
  simp [stnDiscards, stnActive, withPf]

section
variable (p : Params) {b : Block} {n k va : Nat} {f : Fetch}

theorem lineBack_taken (data : Line) {ret : Ret} (good : retCause p 3 ret = none)
    (recent : (getStn b n).oldPf.find? (fun f => f.k = k && f.va = va) = none)
    (asked : (getStn b n).pfOut.find? (fun f => f.k = k && f.va = va) = some f) (takes : stnDiscards b n = false) :
    lineBack p b n k va data ret =
      if f.live then modStrand (drained (withPf b n ((getStn b n).pfOut.erase f)) n (drainPf k va)) n k
        (fun t => { t with lines := t.lines ++ [(va, data)] })
      else drained (withPf b n ((getStn b n).pfOut.erase f)) n (drainPf k va) := by
  rw [← stnDiscards_withPf b n (drainPf k va) ((getStn b n).pfOut.erase f)] at takes
  unfold withPf at *
  simp [lineBack, recent, asked, takes, good]

theorem lineBack_old (data : Line) (ret : Ret) (old : (getStn b n).oldPf.find? (fun f => f.k = k && f.va = va) = some f) :
    lineBack p b n k va data ret =
      discardRsp (drained (withOldPf b n ((getStn b n).oldPf.erase f)) n (drainPf f.k f.va)) n := by
  simp [lineBack, old, oldBack, withOldPf, modStn]
end

/-! ## Status writes (R60) -/

theorem statusBack_landed (p : Params) {b : Block} (n c : Nat) (idx : Word) (tag : Nat) (alive : isDead b = false) :
    statusBack p b n c idx tag true = finishStatus p (hubFree b tag) n c idx := by
  simp [statusBack, alive]

/-- Settles O4: each return by its own case, entries, lines, status writes and interrupt messages in turn. -/
theorem channelReturns : Obligations.ChannelReturns := by
  refine ⟨?_, ?_, fun s on => ⟨?_, ?_⟩⟩
  · rintro s n c r x rfl asked
    exact ⟨by rw [exec_entryReadReturn, entryBack_good _ asked],
      fun wanted => by rw [exec_entryReadReturn, entryBack_error _ asked wanted]⟩
  · intro s n k va data f
    refine ⟨fun recent asked going awake => ⟨_, rfl, ?_⟩, fun old ret => ⟨_, rfl, ?_⟩⟩
    · rw [exec_instructionLineReturn, lineBack_taken _ data (retCause_good _ _) recent asked (stnDiscards_eq_false going awake)]
    · rw [exec_instructionLineReturn, lineBack_old _ data ret old]
  · intro n c tag idx posted alive
    rw [exec_statusWriteLanded on posted, statusBack_landed _ _ _ _ _ alive]
  · intro v rest oldest
    simp [exec_interruptSend, on, oldest]

/-! ## Dispatch (R53, R54, R78) -/

theorem dispatch_granted {b : Block} {n c k : Nat} {e : Entry} {rest : List Entry} (grant : grantPick b n = some (c, k))
    (oldest : (getChan b n c).accepted = e :: rest) (fresh : e.xl.any (·.stale) = false) :
    ∃ b', dispatch b n c = chSettle (startStrand b' n k c e) n c ∧ (getChan b' n c).accepted = rest :=
  ⟨modStn (modChan b n c (fun x => { x with accepted := rest })) n
      (fun st => { st with rrGrant := rrPast st.rrGrant { chan := c, strand := 0, prio := 0 } }),
    by simp [dispatch, grant, oldest, fresh], by rw [getChan_modStn, get_modChan]⟩

@[simp] theorem getChan_startStrand (b : Block) (n k c : Nat) (e : Entry) (m d : Nat) :
    getChan (startStrand b n k c e) m d = getChan b m d := by
  simp [getChan, startStrand]

@[simp] theorem getStrand_chSettle (b : Block) (n c m k : Nat) : getStrand (chSettle b n c) m k = getStrand b m k := rfl

/-- The strand's context is R78's, but for the lines that the prefetcher keeps. -/
theorem startStrand_context (b : Block) (n k c : Nat) (e : Entry) : ∃ l, getStrand (startStrand b n k c e) n k =
    { Strand.reset with st := .run, chan := c, seq := e.idx, pc := e.va, entry := some e, arg := e.arg, lines := l } := by
  obtain ⟨l, kept⟩ := refetch_strand (setStrand b n k { Strand.reset with
    st := .run, chan := c, seq := e.idx, pc := e.va, entry := some e, arg := e.arg }) n k
  exact ⟨l, by rw [startStrand, kept, get_setStrand]⟩

/-- Settles O5: the granted dispatch starts the strand, and neither the prefetch nor the channel's settling undoes it. -/
theorem dispatchStartsContext : Obligations.DispatchStartsContext := by
  intro s n c k e rest runs works grant oldest fresh
  obtain ⟨b, starts, left⟩ := dispatch_granted grant oldest fresh
  obtain ⟨l, context⟩ := startStrand_context b n k c e
  refine ⟨s.put (chSettle (startStrand b n k c e) n c), ?_, ?_, ?_⟩
  · rw [exec_entryDispatch, runs, works, Bool.and_self, if_pos rfl, starts]
  · rw [put_b, chSettle_accepted, getChan_startStrand, left]
  · rw [put_b, getStrand_chSettle, context]
    exact ⟨rfl, rfl, rfl, rfl, rfl, rfl, rfl, rfl, rfl, rfl⟩

/-! ## Completion (R59, R60, R62) -/

theorem entryEnd_done (p : Params) {b : Block} {n k : Nat} {e : Entry} (has : (getStrand b n k).entry = some e)
    (done : entryDone (getStn b n) k (getStrand b n k) = true) :
    entryEnd p b n k = pump p (beginCompl (freeStrand b n k) n (getStrand b n k).chan
      (complOf e (entryCode (getStrand b n k)) k e.cmode)) n (getStrand b n k).chan := by
  simp [entryEnd, has, done]

/-- Settles O6: the completion's code is the strand's, the rest of it the entry's. -/
theorem entryCompletes : Obligations.EntryCompletes := by
  rintro s n k b t e unfenced alive rfl rfl has done
  rw [exec_entryComplete, unfenced, alive, Bool.or_self, if_neg Bool.false_ne_true, entryEnd_done _ has done]
  rfl

end Sys2Proof.Machine
end

section
/-! SUPPORT. Bursts: the tags that they take at issue, and how reads, writes and invalidations end (R56 to R59, R198, R227 to
R229, R424 to R432). -/
namespace Sys2Proof.Machine

/-! ## Commands by their condition -/

theorem exec_readBurstIssue {n : Nat} {s : State} (runs : stnRuns s.b n = true) :
    exec (.readBurstIssue n) s = .next (s.put (vaultServe (readIssue (tickStn s.b n) n) n)) := by
  show effect _ s = _
  rw [effect_put, if_pos runs]

theorem exec_writeBurstIssue {n : Nat} {s : State} (corrected : Nat) (beyond : BitVec 2) (runs : stnRuns s.b n = true) :
    exec (.writeBurstIssue n corrected beyond) s =
      .next (s.put (writeIssue (tickStn s.b n) n corrected beyond.toNat)) := by
  show effect _ s = _
  rw [effect_put, if_pos runs]

theorem exec_readReturn (n tag : Nat) (data : Line) (ret : Ret) (s : State) :
    exec (.readReturn n tag data ret) s = .next (s.put (readBack s.par s.b n tag data ret)) := rfl

theorem exec_writeCompletion (n tag : Nat) (code : BitVec 2) (s : State) :
    exec (.writeCompletion (some n) tag code) s = .next (s.put (writeBack s.par s.b n tag (code = 0))) := rfl

theorem exec_landTimeout (n tag : Nat) (s : State) :
    exec (.landTimeout n tag) s = .next (s.put (landTmo s.par s.b n tag)) := rfl

theorem exec_invalidationSend {n wid line id : Nat} {rest : List (Nat × Nat × Nat)} {s : State}
    (oldest : s.b.invQ = (n, wid, line) :: rest) (free : tfree s.b.invals 0 256 = some id) (on : hubOn s.b = true) :
    exec .invalidationSend s = .next (s.put (count (rcount
      { s.b with invQ := rest, invals := tput s.b.invals id ⟨n, wid, line, false⟩ } (hubB + 0x88) 1) .hub 0x09 1 none)) := by
  show effect _ s = _
  simp only [effect_put, oldest, free, on, if_true]

theorem exec_invalidationAck (id : BitVec 8) (s : State) :
    exec (.invalidationAck id) s = .next (s.put (invalAck s.par s.b id.toNat)) := rfl

theorem exec_invalidationTimeout (id : BitVec 8) (s : State) :
    exec (.invalidationTimeout id) s = .next (s.put (invalTmo s.par s.b id.toNat)) := rfl

/-! ## Issue (R56, R59, R198, R424) -/

/-- Taking a token and counting a burst of its operation changes channels and strands at most (R57). -/
theorem readTaken_agree (b : Block) (n k c : Nat) (o : Op) (br : Burst) (write : Bool) :
    Agree 0xC b (takeToken (bumpRead b n k o br) n c write) :=
  keep_takeToken (keeps_agree _ b) (by decide) (keep_bumpRead (keeps_agree _ b) (by decide) (agree_refl _ b) n k o br) n c write

theorem writeTaken_agree (b : Block) (n k id c : Nat) (f : Op → Op) (write : Bool) :
    Agree 0xC b (takeToken (modOp b n k id f) n c write) :=
  keep_takeToken (keeps_agree _ b) (by decide) (keep_modOp (keeps_agree _ b) (by decide) (agree_refl _ b) n k id f) n c write

theorem getStn_congr {b b' : Block} (h : b'.stations = b.stations) (n : Nat) : getStn b' n = getStn b n := by
  simp only [getStn, h]

theorem invalOf_congr {b b' : Block} (h : b'.regs = b.regs) (line : Nat) : invalOf b' line = invalOf b line := by
  have reads : rget b' = rget b := funext fun a => by simp only [rget, h]
  unfold invalOf rbit rget64
  rw [reads]

theorem newId_fst (b : Block) : (newId b).1 = b.nextId := rfl
theorem getStn_newId (b : Block) (n : Nat) : getStn (newId b).2 n = getStn b n := rfl
theorem invalOf_newId (b : Block) (line : Nat) : invalOf (newId b).2 line = invalOf b line := rfl

section
variable (b : Block) (n k : Nat) (t : Strand) (o : Op) (br : Burst) {pa tag : Nat} (mem : br.space = .mem)
  (hit : xlPa t.ranges (burstVa br) = some pa)
include mem hit

theorem issueRead_mem (free : rdTagNew (getStn b n) = some tag) :
    tget (getStn (issueRead b n k t o br) n).rdTags tag =
      some ⟨.op k o.id br.opd, strandPart b n k, burstVa br, pa / 128, br.mask⟩ := by
  simp [issueRead, mem, hit, free]

theorem issueWrite_mem (data pois rows : Nat) (free : tfree (getStn b n).wrTags 0 1024 = some tag) :
    ∃ w, tget (getStn (issueWrite b n k t o br data pois rows) n).wrTags tag = some w ∧ w.agent = .op k o.id br.opd ∧
      w.wid = b.nextId ∧ w.line = pa / 128 ∧ w.mask = br.mask ∧ w.acked = false ∧ w.failed = false ∧
      w.poison = (poisonWords 128 pois ||| rows) ∧ w.inval = invalOf b (pa / 128) := by
  have taken := writeTaken_agree b n k o.id t.chan (fun x => { x with wIss := x.wIss + 1 }) true
  have station := getStn_congr (taken.stations rfl) n
  have inval := invalOf_congr (taken.regs rfl) (pa / 128)
  have number := taken.nextId rfl
  simp [issueWrite, mem, hit, free, newId_fst, getStn_newId, invalOf_newId, station, inval, number]
end

/-- Settles O8: one sclk of each arbiter, then the tag that a burst of MEM takes. -/
theorem burstsIssue : Obligations.BurstsIssue := by
  refine ⟨fun s n runs => ⟨exec_readBurstIssue runs, fun corrected beyond => exec_writeBurstIssue corrected beyond runs⟩, ?_⟩
  intro b n k t o br pa tag mem hit
  exact ⟨issueRead_mem b n k t o br mem hit, issueWrite_mem b n k t o br mem hit⟩

/-! ## Reads that return (R67, R74, R425, R427) -/

theorem retBad_good (i : Nat) : retBad ⟨0, 0, 0⟩ i = false := by simp [retBad]

section
variable (p : Params) {b : Block} {n tag : Nat} (data : Line) (ret : Ret)

theorem readBack_old (fresh : tget (getStn b n).rdTags tag = none) (old : (tget (getStn b n).oldRd tag).isSome = true) :
    readBack p b n tag data ret = discardRsp (drained (withOldRd b n (tdel (getStn b n).oldRd tag)) n (drainRd tag)) n := by
  simp [readBack, fresh, old, withOldRd]

/-- A read of an operation, in good order, hands over its line with no byte marked. -/
theorem readBack_good {rq : RdReq} {k id opd : Nat} (asked : tget (getStn b n).rdTags tag = some rq)
    (agent : rq.agent = .op k id opd) (going : (getStn b n).stopCode = 0) (awake : stnActive b n = true) :
    readBack p b n tag data ⟨0, 0, 0⟩ =
      opReadBack (reserveTag (drained (withRd b n (tdel (getStn b n).rdTags tag)) n (drainRd tag)) n) n k id opd .mem rq.va
        rq.mask data.toNat (fun _ => false) none := by
  have power : (getStn b n).power = .active := by simpa [stnActive] using awake
  have clean : (fun i => retBad ⟨0, 0, if p.fpCheckEn then 0 else 0⟩ i) = fun _ => false := by
    simp only [ite_self, retBad_good]
  simp only [readBack, asked, agent, going, power, retCause_good, withRd, clean]
  rfl
end

/-! ## Writes that complete or expire (R227, R228) -/

section
variable (p : Params) {b : Block} {n tag : Nat} {w : WrReq} (out : tget (getStn b n).wrTags tag = some w)
include out

theorem landTmo_fails (small : tag < 1024) (acked : w.acked = false) (failed : w.failed = false) :
    landTmo p b n tag = wrFailed p (rcount (withWr b n (tput (getStn b n).wrTags tag { w with failed := true }))
      (ordB n + 0x54) 1) n w (128 * w.line) 3 := by
  simp [landTmo, small, out, acked, failed, withWr]

variable (acked : w.acked = false) (failed : w.failed = false)
include acked failed

theorem writeBack_lands (done : w.inval = []) :
    writeBack p b n tag true = wrLanded p (withWr b n (tdel (getStn b n).wrTags tag)) n w := by
  simp [writeBack, out, acked, failed, done, withWr]

theorem writeBack_waits (due : w.inval ≠ []) : writeBack p b n tag true =
    { withWr b n (tput (getStn b n).wrTags tag { w with acked := true }) with
      invQ := b.invQ ++ w.inval.map (fun l => (n, w.wid, l)) } := by
  simp [writeBack, out, acked, failed, due, withWr]

theorem writeBack_fails :
    writeBack p b n tag false = wrFailed p (withWr b n (tdel (getStn b n).wrTags tag)) n w (128 * w.line) 0 := by
  simp [writeBack, out, acked, failed, withWr]
end

/-! ## Invalidations (R229, R432) -/

section
variable (p : Params) {b : Block} {id t : Nat} {x : Inval} {w : WrReq} (out : tget b.invals id = some x)
  (pending : x.timed = false) (write : wrByWid (getStn b x.stn) x.wid = some (t, w))
include out pending write

theorem invalAck_last (last : w.inval = [x.line]) : invalAck p b id =
    wrLanded p (withWr { b with invals := tdel b.invals id } x.stn (tdel (getStn b x.stn).wrTags t)) x.stn w := by
  have station : getStn { b with invals := tdel b.invals id } x.stn = getStn b x.stn := rfl
  simp [invalAck, out, pending, station, write, last, withWr]

theorem invalTmo_fails : invalTmo p b id =
    wrFailed p (withWr (rcount { b with invals := tput b.invals id { x with timed := true } } (hubB + 0x8C) 1) x.stn
      (tdel (getStn b x.stn).wrTags t)) x.stn w (128 * x.line) 3 := by
  have station : getStn (rcount { b with invals := tput b.invals id { x with timed := true } } (hubB + 0x8C) 1) x.stn =
    getStn b x.stn := rfl
  simp [invalTmo, out, pending, station, write, withWr]
end

/-- Settles O9: reads, writes and invalidations by the state of their tag. -/
theorem burstsEnd : Obligations.BurstsEnd := by
  refine ⟨?_, ?_, ?_, fun s => ⟨?_, ?_⟩⟩
  · rintro s n tag k id opd data rq b asked agent going awake rfl
    rw [exec_readReturn, readBack_good _ data asked agent going awake]
  · intro s n tag data ret fresh old
    exact ⟨_, rfl, by rw [exec_readReturn, readBack_old _ data ret fresh old]⟩
  · intro s n tag w out acked failed
    refine ⟨fun done => ?_, fun due => ⟨_, rfl, ?_⟩, fun code bad => ?_, fun small => ?_⟩
    · rw [exec_writeCompletion, decide_eq_true rfl, writeBack_lands _ out acked failed done]
    · rw [exec_writeCompletion, decide_eq_true rfl, writeBack_waits _ out acked failed due]
      rfl
    · rw [exec_writeCompletion, decide_eq_false bad, writeBack_fails _ out acked failed]
    · rw [exec_landTimeout, landTmo_fails _ out small acked failed]
  · intro n wid line id rest oldest free on
    exact exec_invalidationSend oldest free on
  · intro id x t w out pending write
    exact ⟨fun last => by rw [exec_invalidationAck, invalAck_last _ out pending write last],
      by rw [exec_invalidationTimeout, invalTmo_fails _ out pending write]⟩

end Sys2Proof.Machine
end

section
/-! SUPPORT. Writes of channels' registers: doorbells, enables, disables and resumes (R46, R47, R65, R69). -/
namespace Sys2Proof.Machine

/-! ## Commands as accesses of the port -/

theorem writeIf_true {ok : Bool} (h : ok = true) (addr w : Nat) (a : Attr) (s : State) :
    writeIf ok addr w a s = effect (fun p b => cfgWrite p b addr w a) s := by
  simp [writeIf, h]

theorem okChan_of_lt {n c : Nat} (hn : n < 48) (hc : c < 32) : okChan n c = true := by simp [okChan, hn, hc]

/-! ## The bits of CH_CTRL that each command sets or clears -/

theorem bit_or_enable (w : Nat) : bit (w ||| 1) 0 = true := by simp [bit]
theorem bit_or_resume (w : Nat) : bit (w ||| 2) 1 = true := by
  rw [bit, Nat.testBit_or, show Nat.testBit 2 1 = true from by decide, Bool.or_true]
theorem bit_clear_enable (w : Nat) : bit (clearBits w 1) 0 = false := by
  rw [bit, clearBits, Nat.testBit_xor, Nat.testBit_and, Nat.testBit_one_zero, Bool.and_true, Bool.xor_self]
theorem clearBits_lt {w m : Nat} (hw : w < 2 ^ 32) (hm : m < 2 ^ 32) : clearBits w m < 2 ^ 32 :=
  Nat.xor_lt_two_pow hw (Nat.and_lt_two_pow _ hm)

/-! ## What a channel does with a write of CH_CTRL (R65, R69) -/

section
variable (p : Params) {b : Block} {n c w : Nat}

theorem chCtrl_enables (was : chEnable b n c = false) (on : bit w 0 = true) (stays : bit w 1 = false) :
    chCtrl p b n c w = chEnableOn p (rset b (chR n c 0) (w &&& 0xF3D)) n c := by
  simp [chCtrl, was, on, stays]

theorem chCtrl_disables (was : chEnable b n c = true) (off : bit w 0 = false) (stays : bit w 1 = false) :
    chCtrl p b n c w = chDisable p (rset b (chR n c 0) (w &&& 0xF3D)) n c := by
  simp [chCtrl, was, off, stays]

theorem chCtrl_resumes (stopped : (getChan b n c).st = .stopped) (same : chEnable b n c = bit w 0) (go : bit w 1 = true) :
    chCtrl p b n c w = chResume p (rset b (chR n c 0) (w &&& 0xF3D)) n c := by
  simp [chCtrl, stopped, same, go]

/-! ## The units of a doorbell page and of CH_CTRL -/

theorem regWrite_doorbell (r : RegRow) (med : Option Med) : regWrite p b (.dbell n c) 0x40 r w med =
    (.ok (doorbell p b n c (BitVec.ofNat 32 w)), b) := rfl

theorem regWrite_chCtrl (r : RegRow) (med : Option Med) : regWrite p b (.chan n) (0x800 + 0x40 * c) r w med =
    (.ok (chCtrl p b n c w), b) := by
  have noCount : ¬ 0x800 + 0x40 * c = 0x48 := by omega
  have row : ¬ 0x800 + 0x40 * c < 0x800 := by omega
  have place : 0x800 + 0x40 * c - 0x800 = 0x40 * c := by omega
  simp [regWrite, causeVec, maskVec, isCount, noCount, row, place]
end

/-! ## Writes that the port answers -/

section
variable {s : State} {n c : Nat} {a : Attr} {r : RegRow} (hn : n < 48) (hc : c < 32)
include hn hc

theorem doorbellWrite_takes {w : Word} (h : takesWrite s.par s.b (wacc (dbellB n c + 0x40) w.toNat a) (.dbell n c) r = true) :
    exec (.doorbellWrite n c w a) s =
      .next (s.put (wrote (doorbell s.par (counted s.b) n c w) (dbellB n c + 0x40))) := by
  show writeIf (okChan n c) _ _ _ s = _
  have ring := regWrite_doorbell s.par (b := counted s.b) (n := n) (c := c) (w := w.toNat) r none
  rw [BitVec.ofNat_toNat, BitVec.setWidth_eq] at ring
  rw [writeIf_true (okChan_of_lt hn hc)]
  exact takesWrite_effect h (by unfold dbellB; omega) (by unfold dbellB; omega) w.isLt rfl (by unfold dbellB; omega) ring

/-- A write of CH_CTRL, whatever its command. -/
theorem chCtrl_takes {v : Nat} {b' : Block} (fits : v < 2 ^ 32)
    (h : takesWrite s.par s.b (wacc (chR n c 0) v a) (.chan n) r = true) (e : chCtrl s.par (counted s.b) n c v = b') :
    writeIf (okChan n c) (chR n c 0) v a s = .next (s.put (wrote b' (chR n c 0))) := by
  rw [writeIf_true (okChan_of_lt hn hc)]
  refine takesWrite_effect (off := 0x800 + 0x40 * c) h (by unfold chR chanB stnB; omega) (by unfold chR chanB stnB; omega)
    fits (Nat.add_assoc (chanB n) 0x800 (0x40 * c)) (by unfold chR chanB stnB; omega) ?_ (y := counted s.b)
  rw [regWrite_chCtrl, e]
end

/-! ## Doorbells (R46, R47) -/

section
variable (p : Params) {b : Block} {n c : Nat} {t : Word}

theorem doorbell_same (same : t = (getChan b n c).tail) : doorbell p b n c t = b := by simp [doorbell, same]

variable (moves : t ≠ (getChan b n c).tail)
include moves

section
variable (inside : (t - (getChan b n c).tail).toNat ≤ 2 ^ chLog2 b n c ∧ (t - (getChan b n c).done).toNat ≤ 2 ^ chLog2 b n c)
include inside

theorem doorbell_disabled (off : (getChan b n c).st = .disabled) :
    doorbell p b n c t = setChan b n c { getChan b n c with tail := t } := by
  rw [doorbell, if_neg moves, if_pos inside, if_pos off]

theorem doorbell_inside (on : (getChan b n c).st ≠ .disabled)
    (closed : chAccepts (setChan b n c { getChan b n c with tail := t }) n c = false) :
    doorbell p b n c t = pump p (setChan b n c { getChan b n c with tail := t }) n c := by
  rw [doorbell, if_neg moves, if_pos inside, if_neg on, closed]
  rfl
end

theorem doorbell_outside (outside : 2 ^ chLog2 b n c < (t - (getChan b n c).tail).toNat ∨
    2 ^ chLog2 b n c < (t - (getChan b n c).done).toNat) (on : (getChan b n c).st ≠ .disabled) :
    doorbell p b n c t = stopChan b n c 0x31 none := by
  rw [doorbell, if_neg moves, if_neg (by omega), if_neg on]
end

/-- Settles O20: each write by its unit, then the doorbell by where its tail lies. -/
theorem channelWrites : Obligations.ChannelWrites := by
  refine ⟨?_, ?_⟩
  · rintro s n c w a r b hn hc rfl
    refine ⟨doorbellWrite_takes hn hc, ?_, ?_, ?_⟩
    · rintro v rfl h was stays
      exact chCtrl_takes hn hc (Nat.or_lt_two_pow w.isLt (by decide)) h (chCtrl_enables _ was (bit_or_enable _) stays)
    · rintro v rfl h was stays
      exact chCtrl_takes hn hc (clearBits_lt w.isLt (by decide)) h (chCtrl_disables _ was (bit_clear_enable _) stays)
    · rintro v rfl h stopped same
      exact chCtrl_takes hn hc (Nat.or_lt_two_pow w.isLt (by decide)) h (chCtrl_resumes _ stopped same (bit_or_resume _))
  · rintro p b n c t x size rfl rfl
    exact ⟨doorbell_same p, fun moves ring window => ⟨doorbell_disabled p moves ⟨ring, window⟩, doorbell_inside p moves ⟨ring, window⟩⟩,
      fun moves => doorbell_outside p moves⟩

end Sys2Proof.Machine
end

section
/-! SUPPORT. Writes that clear causes, and writes of tallies: the pages of tallies, and a pair written low half first (R34, R64,
R231, R255, R257). -/
namespace Sys2Proof.Machine

/-! ## Pages of tallies (R257) -/

theorem pageB_talPg (t : Nat) : pageB (talPg t) = talPage t := by
  unfold talPg talPage
  split <;> rfl

theorem talPage_aligned (t : Nat) : talPage t % 0x1000 = 0 := pageB_talPg t ▸ pageB_aligned (talPg t)

theorem talPage_lt {t : Nat} (ht : t < 32768) : talPage t + 0x1000 ≤ 2 ^ 24 := by
  unfold talPage gtalB ltalB stnB
  split <;> omega

/-- A tally is a global or a local one. -/
theorem talPg_cases (t : Nat) : (∃ j, talPg t = .gtal j) ∨ ∃ n m, talPg t = .ltal n m := by
  unfold talPg
  split
  · exact .inl ⟨_, rfl⟩
  · exact .inr ⟨_, _, rfl⟩

theorem talIndex_talPg (t : Nat) : talIndex (talPg t) (t % 256) = t := by
  unfold talPg
  split <;> (simp only [talIndex]; omega)

/-! ## What the units do with their registers -/

section
variable (p : Params) (b : Block)

theorem regWrite_cause {pg : Page} {off v : Nat} (h : causeVec pg off = some v) (r : RegRow) (w : Nat) (med : Option Med) :
    regWrite p b pg off r w med = (.ok (clearCause b v w), b) := by
  simp only [regWrite, h]

theorem regWrite_talAdd (t : Nat) (r : RegRow) (w : Nat) (med : Option Med) :
    regWrite p b (talPg t) (0x400 + 4 * (t % 256)) r w med = (.ok (talAddWrite b t w), b) := by
  have row : 0x400 ≤ 0x400 + 4 * (t % 256) := by omega
  have noMisuse : ¬ 0x400 + 4 * (t % 256) = 0x44 := by omega
  have noLate : ¬ 0x400 + 4 * (t % 256) = 0x48 := by omega
  have place : (0x400 + 4 * (t % 256) - 0x400) / 4 = t % 256 := by omega
  have index := talIndex_talPg t
  rcases talPg_cases t with ⟨j, page⟩ | ⟨n, m, page⟩ <;> rw [page] at index ⊢ <;>
    simp only [regWrite, causeVec, maskVec, isCount, row, noMisuse, noLate, place, index, decide_false, Bool.or_self,
      Bool.false_eq_true, if_true, if_false]

theorem pairWrite_talVal (t : Nat) (lo hi : RegRow) (v w1c : Nat) :
    pairWrite b (talPg t) (0x800 + 8 * (t % 256)) lo hi v w1c = talValWrite b t v := by
  have place : (0x800 + 8 * (t % 256) - 0x800) / 8 = t % 256 := by omega
  have index := talIndex_talPg t
  rcases talPg_cases t with ⟨j, page⟩ | ⟨n, m, page⟩ <;> rw [page] at index ⊢ <;> simp only [pairWrite, place, index]

/-- A write of 0 to TAL_ADD changes nothing (R231). -/
theorem talAddWrite_word (t : Nat) (w : Word) : talAddWrite b t w.toNat = if w = 0 then b else
    applyAdds b t [{ src := .gop, tally := t, amount := w.toNat, stn := none, declared := .chip, settled := .chip, ack := none }] := by
  have zero : w.toNat = 0 ↔ w = 0 := BitVec.toNat_inj (y := 0)
  simp only [talAddWrite, zero]
end

/-! ## Pairs written low half first (R34) -/

/-- The high half takes the shadow of its low half, and the pair is written as one. -/
theorem performWrite_high {p : Params} {b : Block} {x : Access} {pg : Page} {rl r : RegRow} {v : Word} {med : Option Med}
    (strobes : x.attr.strb = 15) (row : pageRow pg (accAddr x % 0x1000) = some r) (writable : r.roAll = false)
    (high : r.pair = 2) (low : pageRow pg (accAddr x % 0x1000 - 4) = some rl)
    (shadow : tget b.cfg.wshadow (pageB pg + accAddr x % 0x1000 - 4) = some v)
    (free : judge p (setWsh b (tdel b.cfg.wshadow (pageB pg + accAddr x % 0x1000 - 4))) pg
      [(accAddr x % 0x1000 - 4, rl, v.toNat), (accAddr x % 0x1000, r, x.data.toNat)] = none) :
    performWrite p b x pg med = wrote (pairWrite (setWsh b (tdel b.cfg.wshadow (pageB pg + accAddr x % 0x1000 - 4))) pg
      (accAddr x % 0x1000 - 4) rl r (v.toNat + x.data.toNat * 2 ^ 32) (v.toNat + x.data.toNat * 2 ^ 32))
      (pageB pg + accAddr x % 0x1000 - 4) := by
  have body : 0x40 ≤ accAddr x % 0x1000 := by
    refine Nat.le_of_not_lt fun header => ?_
    have single := pageRow_header_pair header row
    omega
  have noCtrl : ¬ accAddr x % 0x1000 = 8 := by omega
  have noErr : ¬ accAddr x % 0x1000 = 0x10 := by omega
  simp [performWrite, strobes, row, writable, high, low, shadow, free, noCtrl, noErr, codeAddr, wrote]

section
variable {p : Params} {b : Block} {a lo hi : Nat} {at_ : Attr} {pg : Page} {rl rh : RegRow}

theorem takesPair_iff : takesPair p b a lo hi at_ pg rl rh = true ↔
    (meetsWrite p b (wacc a lo at_) pg rl = true ∧ rl.pair = 1 ∧ a % 0x1000 ≠ 0x10 ∧ a % 0x1000 ≠ 8) ∧
    (meetsWrite p (shadowed b a (BitVec.ofNat 32 lo)) (wacc (a + 4) hi at_) pg rh = true ∧ rh.pair = 2 ∧
      judge p (unshadowed (shadowed b a (BitVec.ofNat 32 lo)) a) pg
        [(a % 0x1000, rl, lo), (a % 0x1000 + 4, rh, hi)] = none) := by
  simp [takesPair, and_assoc]

variable (small : a < 2 ^ 24) (aligned : a % 4 = 0)
include small aligned

/-- The low half goes to the write shadow. -/
theorem cfgWrite_low (h : meetsWrite p b (wacc a lo at_) pg rl = true) (low : rl.pair = 1) (noErr : a % 0x1000 ≠ 0x10)
    (noCtrl : a % 0x1000 ≠ 8) : cfgWrite p b a lo at_ = shadowed b a (BitVec.ofNat 32 lo) := by
  have addr := accAddr_wacc a lo at_ small aligned
  obtain ⟨meet, write, strobes, writable⟩ := meetsWrite_iff.1 h
  show cfgAccess p b (wacc a lo at_) none = _
  rw [meets_perform meet, if_pos write, performWrite_low strobes (meets_row meet) writable (by rwa [addr]) (by rwa [addr]) low,
    meets_addr meet, addr]
  rfl

/-- A pair that the port takes is written as one, by the page's unit. -/
theorem cfgWrite_pair (loFits : lo < 2 ^ 32) (hiFits : hi < 2 ^ 32) (page : a % 0x1000 + 4 < 0x1000)
    (h : takesPair p b a lo hi at_ pg rl rh = true) :
    cfgWrite p (cfgWrite p b a lo at_) (a + 4) hi at_ = wrote (pairWrite (unshadowed (shadowed b a (BitVec.ofNat 32 lo)) a) pg
      (a % 0x1000) rl rh (lo + hi * 2 ^ 32) (lo + hi * 2 ^ 32)) a := by
  obtain ⟨⟨hlo, low, noErr, noCtrl⟩, hhi, high, free⟩ := takesPair_iff.1 h
  rw [cfgWrite_low small aligned hlo low noErr noCtrl]
  have addrLo := accAddr_wacc a lo at_ small aligned
  have addr : accAddr (wacc (a + 4) hi at_) = a + 4 := accAddr_wacc _ _ _ (by omega) (by omega)
  have off : (a + 4) % 0x1000 = a % 0x1000 + 4 := by omega
  have rowLo := meets_row (meetsWrite_iff.1 hlo).1
  obtain ⟨meet, write, strobes, writable⟩ := meetsWrite_iff.1 hhi
  have place := meets_addr meet
  have value : (BitVec.ofNat 32 lo).toNat = lo := (BitVec.toNat_ofNat lo 32).trans (Nat.mod_eq_of_lt loFits)
  have shadow : tget (counted (shadowed b a (BitVec.ofNat 32 lo))).cfg.wshadow a = some (BitVec.ofNat 32 lo) := by
    simp [counted, shadowed, respond, setWsh]
  show cfgAccess p _ (wacc (a + 4) hi at_) none = _
  have done := performWrite_high (p := p) (med := none) (v := BitVec.ofNat 32 lo) (rl := rl) strobes (meets_row meet) writable high
    (b := counted (shadowed b a (BitVec.ofNat 32 lo)))
  rw [place, addr, off, wacc_data _ _ hiFits, value, Nat.add_sub_cancel, Nat.add_sub_cancel] at done
  rw [addrLo] at rowLo
  rw [meets_perform meet, if_pos write, done rowLo shadow free]
  rfl
end

/-! ## CauseAndTallyWrites -/

theorem exec_interruptCauseClear (addr : BitVec 24) (w : Word) (a : Attr) (s : State) :
    exec (.interruptCauseClear addr w a) s = exec (.registerWrite addr w a) s := rfl

theorem exec_talVal {t : Nat} (v : DWord) (a : Attr) (s : State) (ht : t < 32768) : exec (.talVal t v a) s =
    .next (s.put (cfgWrite s.par (cfgWrite s.par s.b (talValAt t) (lo32 v.toNat) a) (talValAt t + 4) (hi32 v.toNat) a)) := by
  show effect _ s = _
  rw [effect_put, if_pos ht]

section
variable {s : State} {a : Attr}

theorem interruptCauseClear_takes {addr : BitVec 24} {w : Word} {pg : Page} {r : RegRow} {v : Nat} (h4 : addr.toNat % 4 = 0)
    (h : takesWrite s.par s.b (wacc addr.toNat w.toNat a) pg r = true) (cause : causeVec pg (addr.toNat % 0x1000) = some v) :
    exec (.interruptCauseClear addr w a) s =
      .next (s.put (wrote (clearCause (counted s.b) v w.toNat) (codeAddr addr.toNat r))) := by
  have single : r.pair ≠ 2 := by simp [takesWrite_pair h]
  rw [exec_interruptCauseClear, registerWrite_takes h4 h (regWrite_cause _ _ cause r w.toNat none),
    codeAddr_of_pair_ne_two _ single]

theorem talAdd_takes {t : Nat} {w : Word} {r : RegRow} (ht : t < 32768)
    (h : takesWrite s.par s.b (wacc (talAddAt t) w.toNat a) (talPg t) r = true) :
    exec (.talAdd t w a) s = .next (s.put (wrote (talAddWrite (counted s.b) t w.toNat) (talAddAt t))) := by
  have page := talPage_aligned t
  have room := talPage_lt ht
  show writeIf (decide (t < 32768)) _ _ _ s = _
  rw [writeIf_true (decide_eq_true ht)]
  exact takesWrite_effect h (by unfold talAddAt; omega) (by unfold talAddAt; omega) w.isLt
    (by rw [pageB_talPg, talAddAt, Nat.add_assoc]) (by unfold talAddAt; omega) (regWrite_talAdd _ _ t r w.toNat none)

theorem talVal_takes {t : Nat} {v : DWord} {rl rh : RegRow} (ht : t < 32768)
    (h : takesPair s.par s.b (talValAt t) (lo32 v.toNat) (hi32 v.toNat) a (talPg t) rl rh = true) :
    exec (.talVal t v a) s = .next (s.put (wrote (talValWrite (unshadowed (shadowed s.b (talValAt t)
      (BitVec.ofNat 32 (lo32 v.toNat))) (talValAt t)) t v.toNat) (talValAt t))) := by
  have page := talPage_aligned t
  have room := talPage_lt ht
  have off : talValAt t % 0x1000 = 0x800 + 8 * (t % 256) := by unfold talValAt; omega
  have loFits : lo32 v.toNat < 2 ^ 32 := Nat.mod_lt _ (by decide)
  have hiFits : hi32 v.toNat < 2 ^ 32 := Nat.mod_lt _ (by decide)
  have value : lo32 v.toNat + hi32 v.toNat * 2 ^ 32 = v.toNat := by
    have := v.isLt
    unfold lo32 hi32
    omega
  rw [exec_talVal v a s ht, cfgWrite_pair (by unfold talValAt; omega) (by unfold talValAt; omega)
    loFits hiFits (by omega) h, off, pairWrite_talVal, value]
end

/-- Settles O21: a cause by its vector, TAL_ADD as one register, TAL_VAL as a pair. -/
theorem causeAndTallyWrites : Obligations.CauseAndTallyWrites := by
  rintro s a b rfl
  refine ⟨fun addr w pg r v h4 => interruptCauseClear_takes h4, fun t w r ht h => ?_, fun t v rl rh ht h =>
    ⟨_, rfl, talVal_takes ht h⟩⟩
  rw [talAdd_takes ht h, talAddWrite_word]

end Sys2Proof.Machine
end

section
/-! SUPPORT. Mover programs: what becomes of the unit that the sequencer reaches, and what each instruction does with the unit
that it takes (R76 to R104). -/
namespace Sys2Proof.Machine

/-! ## Rows of the mover's instructions -/

theorem exec_nop (n : Nat) (s : State) : exec (.nop n) s = moverRow n 0x01 unitNop s := rfl
theorem exec_halt (n : Nat) (s : State) : exec (.halt n) s = moverRow n 0x02 unitHalt s := rfl
theorem exec_jump (n : Nat) (s : State) : exec (.jump n) s = moverRow n 0x03 unitJump s := rfl
theorem exec_loop (n : Nat) (s : State) : exec (.loop n) s = moverRow n 0x04 unitLoop s := rfl
theorem exec_endl (n : Nat) (s : State) : exec (.endl n) s = moverRow n 0x05 unitEndl s := rfl
theorem exec_move (n : Nat) (s : State) : exec (.move n) s = moverRow n 0x10 unitMove s := rfl
theorem exec_moveb (n : Nat) (s : State) : exec (.moveb n) s = moverRow n 0x11 unitMoveb s := rfl
theorem exec_fill (n : Nat) (s : State) : exec (.fill n) s = moverRow n 0x12 unitFill s := rfl
theorem exec_copy (n : Nat) (s : State) : exec (.copy n) s = moverRow n 0x13 unitCopy s := rfl
theorem exec_setx (n : Nat) (s : State) : exec (.setx n) s = moverRow n 0x14 unitSetx s := rfl
theorem exec_wait (n : Nat) (s : State) : exec (.wait n) s = moverRow n 0x20 unitWait s := rfl
theorem exec_signal (n : Nat) (s : State) : exec (.signal n) s = moverRow n 0x21 unitSignal s := rfl
theorem exec_fence (n : Nat) (s : State) : exec (.fence n) s = moverRow n 0x22 unitFence s := rfl
theorem exec_tload (n : Nat) (s : State) : exec (.tload n) s = moverRow n 0x30 unitTload s := rfl
theorem exec_stat (n : Nat) (s : State) : exec (.stat n) s = moverRow n 0x31 unitStat s := rfl
theorem exec_advise (n : Nat) (s : State) : exec (.advise n) s = moverRow n 0x32 unitAdvise s := rfl

/-! ## The unit that the sequencer reaches (R77, R79) -/

theorem nextUnit_spec {b : Block} {n : Nat} {c : Cand} {u : MUnit} (h : nextUnit b n = some (c, u)) :
    seqPick b n = some c ∧ u.n = n ∧ u.k = c.strand ∧ u.s = getStrand b n c.strand ∧ u.s.entry = some u.e ∧
      unitAt u.s u.s.pc = some (u.w0, u.w1) := by
  unfold nextUnit at h
  split at h
  · cases h
  next hc =>
    dsimp only at h
    split at h
    next he hu =>
      cases h
      exact ⟨hc, rfl, rfl, rfl, he, hu⟩
    · cases h

theorem takes_of {b : Block} {n op : Nat} {c : Cand} {u : MUnit} (runs : stnRuns b n = true)
    (next : nextUnit b n = some (c, u)) (own : opcode u.w0 = op) (legal : unitIllegal u.w0 u.w1 = false) :
    takes b n op c u = true := by
  simp [takes, runs, next, own, legal]

section
variable {s : State} {n op : Nat} {c : Cand} {u : MUnit} (f : Params → Block → MUnit → Took × Block)

/-- A unit of another instruction of the table is not taken. -/
theorem moverRow_other (next : nextUnit s.b n = some (c, u)) (other : opcode u.w0 ≠ op)
    (listed : (unitMask u.w0).isSome = true) : moverRow n op f s = .next s := by
  obtain ⟨pick, -, -, hs, entry, unit⟩ := nextUnit_spec next
  have kept : runUnit s.par n op f s.b = s.b := by
    unfold runUnit
    split
    · rfl
    · simp only [pick, ← hs, entry, unit, ne_eq, other, not_false_eq_true, listed, and_self, if_true]
  show Host.Outcome.next (s.put (runUnit s.par n op f s.b)) = _
  rw [kept]
  rfl

/-- An illegal unit stops its strand with ILLEGAL: the row's own unit, or one of no instruction. A WAIT's and a SIGNAL's
may leave a misuse record first. -/
theorem moverRow_illegal (runs : stnRuns s.b n = true) (next : nextUnit s.b n = some (c, u))
    (own : opcode u.w0 = op ∨ unitMask u.w0 = none) (bad : unitIllegal u.w0 u.w1 = true)
    (tally : opcode u.w0 ≠ 0x20 ∧ opcode u.w0 ≠ 0x21) :
    moverRow n op f s = .next (s.put (halted (atUnit s.b c u) u 0x14)) := by
  obtain ⟨pick, hn, hk, hs, entry, unit⟩ := nextUnit_spec next
  obtain ⟨un, uk, us, ue, w0, w1⟩ := u
  dsimp only at *
  subst hn hk
  have mine : ¬ (opcode w0 ≠ op ∧ (unitMask w0).isSome = true) := by
    rintro ⟨ne, listed⟩
    rcases own with own | own
    · exact ne own
    · simp [own] at listed
  obtain ⟨notWait, notSignal⟩ := tally
  simp only [moverRow, effect, onBlock, runUnit, runs, pick, ← hs, entry, unit, if_neg mine, bad, if_true, illegalUnit,
    notWait, notSignal, or_self, decide_false, Bool.false_and, Bool.not_true, Bool.false_eq_true, if_false, finishUnit, halted, atUnit,
    State.put]

/-! ## What becomes of a unit that is taken -/

variable {b : Block} (h : takes s.b n op c u = true) {f}
include h

theorem moverRow_goes {pc : Nat} (did : f s.par (atUnit s.b c u) u = (.go pc, b)) :
    moverRow n op f s = .next (s.put (retired b u pc)) := by
  rw [moverRow_taken f h, did, ← takes_stn h]
  rfl

theorem moverRow_refuses (did : f s.par (atUnit s.b c u) u = (.illegal, b)) :
    moverRow n op f s = .next (s.put (halted b u 0x14)) := by
  rw [moverRow_taken f h, did, ← takes_stn h]
  rfl

theorem moverRow_leaves (did : f s.par (atUnit s.b c u) u = (.bounds, b)) :
    moverRow n op f s = .next (s.put (halted b u 0x13)) := by
  rw [moverRow_taken f h, did, ← takes_stn h]
  rfl
end

/-! ## Opcodes (R76) -/

/-- The opcodes that have an encoding are those of the rows. -/
theorem unitMask_eq_none {w0 : Nat} (h : ∀ r ∈ unitRows, r.1 ≠ opcode w0) : unitMask w0 = none := by
  simp only [unitRows, List.forall_mem_cons, List.not_mem_nil, false_imp_iff, implies_true, and_true, ne_eq] at h
  unfold unitMask
  dsimp only
  split <;> simp_all

theorem unitMask_isSome {w0 : Nat} {r : Nat × (Nat → Instr)} (hr : r ∈ unitRows) (h : r.1 = opcode w0) :
    (unitMask w0).isSome = true := by
  unfold unitMask
  rw [← h]
  simp only [unitRows, List.mem_cons, List.not_mem_nil, or_false] at hr
  rcases hr with rfl | rfl | rfl | rfl | rfl | rfl | rfl | rfl | rfl | rfl | rfl | rfl | rfl | rfl | rfl | rfl <;> rfl

theorem unitIllegal_of_mask {w0 : Nat} (w1 : Nat) (h : unitMask w0 = none) : unitIllegal w0 w1 = true := by
  simp [unitIllegal, h]

/-- A unit that holds its opcode and nothing else is legal by its own bits. -/
theorem unitIllegal_bare {r : Nat × (Nat → Instr)} (hr : r ∈ unitRows) :
    opcode r.1 = r.1 ∧ unitIllegal r.1 0 = false := by
  have bare : ∀ op ∈ unitRows.map Prod.fst, opcode op = op ∧ unitIllegal op 0 = false := by decide
  exact bare _ (List.mem_map_of_mem hr)

/-- The command of each row runs an instruction with the row's opcode. -/
theorem exec_unitRow {r : Nat × (Nat → Instr)} (hr : r ∈ unitRows) :
    ∃ f, ∀ (n : Nat) (s : State), exec (r.2 n) s = moverRow n r.1 f s := by
  simp only [unitRows, List.mem_cons, List.not_mem_nil, or_false] at hr
  rcases hr with rfl | rfl | rfl | rfl | rfl | rfl | rfl | rfl | rfl | rfl | rfl | rfl | rfl | rfl | rfl | rfl <;>
    exact ⟨_, fun _ _ => rfl⟩

theorem wait_signal_rows : (0x20, Instr.wait) ∈ unitRows ∧ (0x21, Instr.signal) ∈ unitRows := by simp [unitRows]

/-- Settles O48: an opcode outside the rows has no encoding, and a row's command runs only units of its own opcode. -/
theorem opcodesOfTable : Obligations.OpcodesOfTable := by
  refine ⟨fun w0 w1 unlisted => unitIllegal_of_mask w1 (unitMask_eq_none unlisted),
    fun r hr => ⟨r.1, 0, unitIllegal_bare hr⟩, rfl, fun r hr s n c u runs next => ?_⟩
  obtain ⟨f, row⟩ := exec_unitRow hr
  refine ⟨fun unlisted => ?_, fun x hx own other => ?_⟩
  · have mask := unitMask_eq_none unlisted
    obtain ⟨wait, signal⟩ := wait_signal_rows
    rw [row, moverRow_illegal f runs next (.inr mask) (unitIllegal_of_mask _ mask)
      ⟨(unlisted _ wait).symm, (unlisted _ signal).symm⟩]
  · rw [row, moverRow_other f next (own ▸ other) (unitMask_isSome hx own)]

/-! ## The program range (R86) -/

theorem inRange_iff (u : MUnit) (a : Int) : inRange u a = true ↔ (u.e.va : Int) ≤ a ∧ a < u.e.va + 16 * u.e.len := by
  rw [inRange, Bool.and_eq_true, decide_eq_true_iff, decide_eq_true_iff, progEnd]
  omega

theorem inRange_nat {u : MUnit} {a : Nat} (low : u.e.va ≤ a) (high : a < u.e.va + 16 * u.e.len) : inRange u a = true :=
  inRange_of (by omega) (by omega)

theorem outOfRange {u : MUnit} {a : Int} (h : a < u.e.va ∨ (u.e.va : Int) + 16 * u.e.len ≤ a) : inRange u a = false := by
  rw [← Bool.not_eq_true, inRange_iff]
  omega

/-! ## JUMP, LOOP and ENDL (R88 to R90) -/

section
variable (p : Params) (b : Block) {u : MUnit}

/-- Whether a JUMP is taken, by its condition (R88). -/
theorem jumpTaken_eq {taken : Bool}
    (h : bits u.w0 9 8 = 0 ∧ taken = true ∨ ∃ x, u.s.x.getD (bits u.w0 12 10) none = some x ∧ bits u.w0 9 8 ≠ 0 ∧
      taken = decide ((x = 0) ↔ bits u.w0 9 8 = 1)) : jumpTaken u = some taken := by
  unfold jumpTaken
  rcases h with ⟨always, rfl⟩ | ⟨x, hx, ne, rfl⟩
  · simp [always]
  · have reg : xReg u (bits u.w0 12 10) = some x := hx
    split
    · contradiction
    next one => simp [reg, one]
    next other => simp [reg, show bits u.w0 9 8 ≠ 1 from other]

section
variable {taken : Bool} (cond : jumpTaken u = some taken) (off : sgn 32 (bits u.w0 63 32) ≠ 0) (few : bits u.w0 19 16 ≤ 8)
  (opened : bits u.w0 19 16 ≤ u.s.loops.length)
include cond off few opened

/-- A legal JUMP goes on, leaves the range, or goes to its target with the levels popped (R88). -/
theorem unitJump_legal : unitJump p b u =
    if !taken then (.go (nextPc u), b)
    else if !inRange u (u.s.pc + 16 * sgn 32 (bits u.w0 63 32)) then (.bounds, b)
    else (.go (u.s.pc + 16 * sgn 32 (bits u.w0 63 32)).toNat, modStrand b u.n u.k (fun s =>
      { s with loops := s.loops.take (s.loops.length - bits u.w0 19 16) })) := by
  have legal : ¬ (sgn 32 (bits u.w0 63 32) = 0 ∨ u.s.loops.length < bits u.w0 19 16 ∨ 8 < bits u.w0 19 16) := by omega
  simp only [unitJump, cond, if_neg legal]
end

/-- The source of a LOOP's count (R89). -/
theorem loopSource_eq {src : Nat} (h : bits u.w0 9 8 = 0 ∧ src = u.w1 ∨ bits u.w0 9 8 = 1 ∧ src = u.s.arg.toNat ∨
    bits u.w0 9 8 = 2 ∧ u.s.x.getD (bits u.w0 12 10) none = some (BitVec.ofNat 64 src) ∧ src < 2 ^ 64) :
    loopSource u = some src := by
  unfold loopSource
  rcases h with ⟨imm, rfl⟩ | ⟨arg, rfl⟩ | ⟨reg, hx, small⟩
  · simp [imm]
  · simp [arg]
  · have value : xReg u (bits u.w0 12 10) = some (BitVec.ofNat 64 src) := hx
    simp only [reg, value, Option.map_some, BitVec.toNat_ofNat, Nat.mod_eq_of_lt small]

section
variable {src : Nat} (source : loopSource u = some src) (body : bits u.w0 47 24 ≠ 0) (room : u.s.loops.length < 8)
include source body room

/-- A legal LOOP leaves the range, skips its body, or opens its level (R89). -/
theorem unitLoop_legal : unitLoop p b u =
    if !inRange u ((u.s.pc + 16 * bits u.w0 47 24 : Nat) : Int) then (.bounds, b)
    else if ceilDiv src (2 ^ bits u.w0 21 16) = 0 then (.go (u.s.pc + 16 * bits u.w0 47 24 + 16), b)
    else (.go (nextPc u), modStrand b u.n u.k (fun s => { s with loops := s.loops ++
      [{ i := 0, count := ceilDiv src (2 ^ bits u.w0 21 16), body := nextPc u,
         endl := u.s.pc + 16 * bits u.w0 47 24 }] })) := by
  have legal : ¬ (bits u.w0 47 24 = 0 ∨ 8 ≤ u.s.loops.length) := by omega
  simp only [unitLoop, source, if_neg legal]
end

theorem ceilDiv_eq_zero {a m : Nat} (pos : 0 < m) : ceilDiv a m = 0 ↔ a = 0 := by
  rw [ceilDiv, Nat.div_eq_zero_iff]
  omega

theorem unitEndl_none (closed : u.s.loops = []) : unitEndl p b u = (.illegal, b) := by
  simp [unitEndl, closed]

section
variable {l : Loop} (last : u.s.loops.getLast? = some l)
include last

theorem unitEndl_elsewhere (away : l.endl ≠ u.s.pc) : unitEndl p b u = (.illegal, b) := by
  simp [unitEndl, last, away]

variable (here : l.endl = u.s.pc)
include here

theorem unitEndl_next (more : l.i + 1 < l.count) (inside : inRange u l.body = true) : unitEndl p b u = (.go l.body,
    modStrand b u.n u.k (fun s => { s with loops := s.loops.dropLast ++ [{ l with i := l.i + 1 }] })) := by
  simp [unitEndl, last, here, more, inside]

theorem unitEndl_leaves (more : l.i + 1 < l.count) (outside : inRange u l.body = false) :
    unitEndl p b u = (.bounds, b) := by
  simp [unitEndl, last, here, more, outside]

theorem unitEndl_closes (done : l.count ≤ l.i + 1) : unitEndl p b u = (.go (nextPc u),
    modStrand b u.n u.k (fun s => { s with loops := s.loops.dropLast })) := by
  simp [unitEndl, last, here, Nat.not_lt.2 done]
end
end

/-- Settles O1: each instruction by what it does with a legal unit. -/
theorem moverControlFlow : Obligations.MoverControlFlow := by
  intro s n c u
  refine ⟨fun h => ?_, fun h => ?_, fun h => ?_, fun h => ?_⟩ <;> obtain rfl := takes_stn h
  · exact (exec_nop _ _).trans (moverRow_goes h rfl)
  · exact (exec_halt _ _).trans (moverRow_goes h rfl)
  · rintro off rfl moves pop rfl few opened taken cond
    have jump := unitJump_legal s.par (atUnit s.b c u) (jumpTaken_eq cond) moves few opened
    refine ⟨?_, fun ht low high => ?_⟩
    · rintro rfl
      exact (exec_jump _ _).trans (moverRow_goes h jump)
    · subst ht
      rw [inRange_of low high] at jump
      exact (exec_jump _ _).trans (moverRow_goes h jump)
  · rintro src source body rfl ahead room low high
    have loop := unitLoop_legal s.par (atUnit s.b c u) (loopSource_eq source) ahead room
    rw [inRange_nat low high] at loop
    refine ⟨fun zero => ?_, fun pos => ?_⟩
    · rw [if_neg (by simp), if_pos ((ceilDiv_eq_zero (Nat.two_pow_pos _)).2 zero)] at loop
      exact (exec_loop _ _).trans (moverRow_goes h loop)
    · rw [if_neg (by simp), if_neg (mt (ceilDiv_eq_zero (Nat.two_pow_pos _)).1 pos)] at loop
      exact (exec_loop _ _).trans (moverRow_goes h loop)

/-! ## ENDL by its fields (R77, R90) -/

/-- Nothing lies outside a mask when the mask keeps the number. -/
theorem clearBits_eq_zero (x m : Nat) : clearBits x m = 0 ↔ x &&& m = x := by
  unfold clearBits
  refine ⟨fun outside => ?_, fun kept => by rw [kept, Nat.xor_self]⟩
  calc x &&& m = (x ^^^ (x &&& m)) ^^^ (x &&& m) := by rw [outside, Nat.zero_xor]
    _ = x := by rw [Nat.xor_assoc, Nat.xor_self, Nat.xor_zero]

theorem clearBits_byte (x : Nat) : clearBits x 0xFF = 0 ↔ x / 256 = 0 := by
  rw [clearBits_eq_zero, Nat.and_two_pow_sub_one_eq_mod x 8]
  omega

theorem unitIllegal_endl {w0 w1 : Nat} (own : opcode w0 = 0x05) :
    unitIllegal w0 w1 = false ↔ w0 / 256 = 0 ∧ w1 = 0 := by
  simp only [unitIllegal, unitMask, own, unitReservedValue, Bool.or_false, Bool.or_eq_false_iff, decide_eq_false_iff_not,
    ne_eq, Decidable.not_not, clearBits_byte]
  rw [clearBits_eq_zero, Nat.and_zero, eq_comm (a := 0)]

/-- Settles O49: an ENDL by its fields and by the innermost level; the longest LOOP is a legal one that opens its level. -/
theorem endlRule : Obligations.EndlRule := by
  intro s n c u runs next
  refine ⟨fun own => ⟨fun fields => ?_, fun high word => ?_⟩, fun own legal imm longest shift room ahead low high => ?_⟩
  · have bad : unitIllegal u.w0 u.w1 = true := by
      rw [← Bool.not_eq_false, unitIllegal_endl own]
      omega
    exact (exec_endl _ _).trans (moverRow_illegal _ runs next (.inl own) bad (by omega))
  · have h := takes_of runs next own ((unitIllegal_endl own).2 ⟨high, word⟩)
    obtain rfl := takes_stn h
    rw [exec_endl]
    refine ⟨fun closed => moverRow_refuses h (unitEndl_none _ _ closed),
      fun l last => ⟨fun away => ?_, fun here more low high => ?_, fun here done => ?_⟩⟩
    · exact moverRow_refuses h (unitEndl_elsewhere _ _ last away)
    · exact moverRow_goes h (unitEndl_next _ _ last here more (inRange_nat low high))
    · exact moverRow_goes h (unitEndl_closes _ _ last here done)
  · have h := takes_of runs next own legal
    obtain rfl := takes_stn h
    have loop := unitLoop_legal s.par (atUnit s.b c u) (loopSource_eq (.inl ⟨imm, longest.symm⟩)) (Nat.ne_of_gt ahead) room
    rw [inRange_nat (by omega) high, shift] at loop
    exact (exec_loop _ _).trans (moverRow_goes h loop)

/-- A unit that is the last of its range retires, and its strand stops past the end (R86). -/
theorem retired_pastEnd {b : Block} {u : MUnit} {pc : Nat} (runs : (getStrand b u.n u.k).st = .run)
    (past : inRange u pc = false) : retired b u pc = tick (stopStrand (modStrand (countCh b u.n u.s.chan 0x0B 1) u.n u.k
      (fun t => { t with pc := pc })) u.n u.k 0x13) u.n u.k := by
  simp [retired, retire, runs, past]

/-- Settles O50: a target outside the range stops the strand, before or after the unit retires. -/
theorem programBounds : Obligations.ProgramBounds := by
  intro s n c u
  refine ⟨fun h always moves few opened a ha out => ?_, fun h imm ahead room low high => ?_,
    fun h l last here more out => ?_, fun b runs past => ?_⟩
  · have jump := unitJump_legal s.par (atUnit s.b c u) (jumpTaken_eq (.inl ⟨always, rfl⟩)) moves few opened
    rw [← ha, outOfRange out] at jump
    exact (exec_jump _ _).trans (moverRow_leaves h jump)
  · have loop := unitLoop_legal s.par (atUnit s.b c u) (loopSource_eq (.inl ⟨imm, rfl⟩)) ahead room
    rw [outOfRange (by omega)] at loop
    exact (exec_loop _ _).trans (moverRow_leaves h loop)
  · exact (exec_endl _ _).trans (moverRow_leaves h (unitEndl_leaves _ _ last here more (outOfRange (by omega))))
  · exact ⟨_, retired_pastEnd runs (outOfRange (by omega)), by rw [get_modStrand], by simp [modStrand, setStrand]⟩

/-! ## Data operations (R91 to R96, R102, R103) -/

section
variable (p : Params) (b : Block) {u : MUnit}

theorem takeMove_inside (listVa : Option Nat) (aligned : descAddr u % 128 = 0)
    (inside : descAddr u + 128 ≤ u.e.va + 16 * u.e.len) : takeMove b u listVa =
      (.go (nextPc u), addOp b u .move (if listVa.isSome then Phase.list else Phase.desc) (descAddr u) listVa .no) := by
  have range : inRange u (descAddr u) = true := inRange_nat (Nat.le_add_right _ _) (by omega)
  simp [takeMove, aligned, range, progEnd, Nat.not_lt.2 inside]

/-- A legal MOVEB takes its descriptor as MOVE does, with the list element's address in list mode (R92, R93). -/
theorem unitMoveb_legal (level : bits u.w0 9 8 = 0 ∨ bits u.w0 12 10 < u.s.loops.length)
    (list : bit u.w0 14 = false ∨ bits u.w0 9 8 = 2)
    (aligned : bits u.w0 9 8 = 2 → u.s.arg.toNat % (if bit u.w0 13 then 8 else 4) = 0) :
    unitMoveb p b u = takeMove b u (if bits u.w0 9 8 = 2 then some (listVaOf u) else none) := by
  have open_ : ¬ (bits u.w0 9 8 ≠ 0 ∧ u.s.loops.length ≤ bits u.w0 12 10) := by omega
  have mode : ¬ (bit u.w0 14 = true ∧ bits u.w0 9 8 ≠ 2) := by
    rintro ⟨set, other⟩
    exact list.elim (by simp [set]) other
  have word : ¬ (bits u.w0 9 8 = 2 ∧ u.s.arg.toNat % (if bit u.w0 13 then 8 else 4) ≠ 0) := fun h => h.2 (aligned h.1)
  simp only [unitMoveb, if_neg open_, if_neg mode, if_neg word]

theorem listVaOf_level {l : Loop} (level : u.s.loops[bits u.w0 12 10]? = some l) :
    listVaOf u = (u.s.arg.toNat + (if bit u.w0 13 then 8 else 4) * (bits u.w0 63 48 + l.i)) % 2 ^ 64 := by
  simp [listVaOf, level]

theorem regionBad_eq_false {a : Nat} (filled : bits u.w0 39 16 ≠ 0) (aligned : a % 256 = 0)
    (fits : a + 256 * bits u.w0 39 16 ≤ p.tileSize.getD u.n 0) : regionBad p u a = false := by
  simpa [regionBad, filled, aligned] using fits

/-- What SETX does, by its source (R94). -/
theorem unitSetx_val (val : bits u.w0 12 11 = 0) : unitSetx p b u = (.go (nextPc u), modStrand b u.n u.k (fun t =>
    { t with x := t.x.set (bits u.w0 10 8) (some (BitVec.ofNat 64 (setxVal u.w0 u.w1))) })) := by
  simp [unitSetx, val]

theorem unitSetx_arg (arg : bits u.w0 12 11 = 1) : unitSetx p b u = (.go (nextPc u), modStrand b u.n u.k (fun t =>
    { t with x := t.x.set (bits u.w0 10 8) (some (BitVec.ofNat 64 (setxVal u.w0 u.s.arg.toNat))) })) := by
  simp [unitSetx, arg]

theorem unitSetx_clear (clear : bits u.w0 12 11 = 2) (noShift : bits u.w0 21 16 = 0) : unitSetx p b u =
    (.go (nextPc u), modStrand b u.n u.k (fun t => { t with x := t.x.set (bits u.w0 10 8) none })) := by
  simp [unitSetx, clear, noShift]

theorem unitSetx_memory (mem : bits u.w0 12 11 = 3) (aligned : (u.s.arg.toNat + u.w1) % 8 = 0) : unitSetx p b u =
    (.go (nextPc u), addOp b u .setx .desc ((u.s.arg.toNat + u.w1) % 2 ^ 64) none .setx) := by
  simp [unitSetx, mem, aligned]

theorem unitTload_loads (aligned : bits u.w1 56 0 % 64 = 0)
    (fresh : (codecSlot (getStn b u.n) (bits u.w0 9 8)).valid = false ∨
      (codecSlot (getStn b u.n) (bits u.w0 9 8)).gen ≠ bits u.w0 23 16) :
    unitTload p b u = (.go (nextPc u), addOp b u .tload .desc (bits u.w1 56 0) none .tload) := by
  have other : ¬ ((codecSlot (getStn b u.n) (bits u.w0 9 8)).valid = true ∧
      (codecSlot (getStn b u.n) (bits u.w0 9 8)).gen = bits u.w0 23 16) := by
    rintro ⟨valid, same⟩
    exact fresh.elim (by simp [valid]) (· same)
  simp only [unitTload, aligned, other, ne_eq, not_true_eq_false, or_self, if_false]

theorem unitStat_legal (aligned : bits u.w1 56 0 % 64 = 0) (record : bit u.w0 10 = true ∨ bits u.w1 56 0 = 0) :
    unitStat p b u = (.go (nextPc u), addOp b u .stat .desc (bits u.w1 56 0) none .stat) := by
  rcases record with record | record <;> simp [unitStat, record, aligned]
end

theorem codecSlot_atUnit (b : Block) (c : Cand) (u : MUnit) (i : Nat) :
    codecSlot (getStn (atUnit b c u) u.n) i = codecSlot (getStn b u.n) i := by
  simp [codecSlot]

/-- Settles O2: each instruction by what it does with a legal unit. -/
theorem moverOperations : Obligations.MoverOperations := by
  intro s n c u
  refine ⟨?_, ?_, fun h => ?_, fun h aligned sl hsl fresh => ?_, fun h aligned record => ?_⟩
  · rintro a rfl aligned inside
    refine ⟨fun h => ?_, fun h level list => ⟨fun other => ?_, ?_⟩⟩
    · exact (exec_move _ _).trans (moverRow_goes h (takeMove_inside _ none aligned inside))
    · have move := unitMoveb_legal s.par (atUnit s.b c u) level list (fun two => absurd two other)
      rw [if_neg other, takeMove_inside _ none aligned inside] at move
      exact (exec_moveb _ _).trans (moverRow_goes h move)
    · rintro w rfl two word l at_
      have move := unitMoveb_legal s.par (atUnit s.b c u) level list (fun _ => word)
      rw [if_pos two, takeMove_inside _ (some _) aligned inside, listVaOf_level at_] at move
      exact (exec_moveb _ _).trans (moverRow_goes h move)
  · rintro len rfl filled tile rfl
    refine ⟨fun h aligned fits => ?_, fun h aligned fits aligned' fits' => ?_⟩ <;> obtain rfl := takes_stn h
    · refine (exec_fill _ _).trans (moverRow_goes h ?_)
      simp only [unitFill, regionBad_eq_false s.par filled aligned fits, Bool.false_eq_true, if_false]
      rfl
    · refine (exec_copy _ _).trans (moverRow_goes h ?_)
      simp only [unitCopy, regionBad_eq_false s.par filled aligned fits, regionBad_eq_false s.par filled aligned' fits',
        Bool.or_self, Bool.false_eq_true, if_false]
      rfl
  · obtain rfl := takes_stn h
    rw [exec_setx]
    refine ⟨?_, fun clear noShift => moverRow_goes h (unitSetx_clear _ _ clear noShift),
      fun mem aligned => moverRow_goes h (unitSetx_memory _ _ mem aligned)⟩
    rintro src (⟨val, rfl⟩ | ⟨arg, rfl⟩)
    · exact moverRow_goes h (unitSetx_val _ _ val)
    · exact moverRow_goes h (unitSetx_arg _ _ arg)
  · obtain rfl := takes_stn h
    subst hsl
    rw [← codecSlot_atUnit s.b c u] at fresh
    exact (exec_tload _ _).trans (moverRow_goes h (unitTload_loads _ _ aligned fresh))
  · exact (exec_stat _ _).trans (moverRow_goes h (unitStat_legal _ _ aligned record))

/-! ## Waits, signals, fences and advice (R97 to R101, R104) -/

section
variable {p : Params} (b : Block) {u : MUnit}

/-- A station waits on the global tallies and on its own (R97). -/
theorem guardForeign_own {n t : Nat} (own : t < 8192 ∨ (t - 8192) / 512 = n) : guardForeign n true t = false := by
  unfold guardForeign talStn
  split
  next h =>
    split at h <;> simp_all
  · rfl

/-- The threshold of a WAIT, fixed or with the index of a level that is open (R97). -/
theorem waitThr_eq {thr : Nat} (h : bit u.w0 27 = false ∧ thr = bits u.w1 47 0 ∨ bit u.w0 27 = true ∧
    ∃ l, u.s.loops[bits u.w0 26 24]? = some l ∧ thr = (bits u.w1 47 0 + bits u.w1 63 48 * l.i) % 2 ^ 48) :
    waitThr u = thr ∧ ¬ (bit u.w0 27 = true ∧ u.s.loops.length ≤ bits u.w0 26 24) := by
  rcases h with ⟨fixed, rfl⟩ | ⟨level, l, hl, rfl⟩
  · simp [waitThr, fixed]
  · obtain ⟨inside, -⟩ := List.getElem?_eq_some_iff.1 hl
    exact ⟨by simp [waitThr, level, hl], fun h => absurd inside (Nat.not_lt.2 h.2)⟩

theorem unitWait_arms {thr : Nat} (real : talExists p (unitTally u) = true)
    (own : unitTally u < 8192 ∨ (unitTally u - 8192) / 512 = u.n) (good : (getTal b (unitTally u)).poison = false)
    (hthr : waitThr u = thr) (level : ¬ (bit u.w0 27 = true ∧ u.s.loops.length ≤ bits u.w0 26 24)) :
    unitWait p b u = (.go (nextPc u), addWaiter (modStrand b u.n u.k (fun x => { x with
      wait := .armed (unitTally u) thr (bits u.w0 29 28), waitTmo := bits u.w0 47 32, blocked := .wait })) (unitTally u)
      { kind := .wait, stn := u.n, strand := u.k, thr := thr, scope := scopeOf (bits u.w0 29 28) }) := by
  subst hthr
  simp only [unitWait, real, guardForeign_own own, good, if_neg level, Bool.not_true, Bool.false_eq_true, if_false]

theorem unitSignal_pends (real : talExists p (unitTally u) = true) (adds : bits u.w0 47 32 ≠ 0) :
    unitSignal p b u = (.go (nextPc u), modStrand b u.n u.k (fun x => { x with sigs := x.sigs ++
      [{ tally := unitTally u, cond := bits u.w0 25 24, scope := bits u.w0 27 26, amount := bits u.w0 47 32,
         upTo := b.nextId, lastOp := x.lastOp }] })) := by
  simp only [unitSignal, real, if_neg adds, Bool.not_true, Bool.false_eq_true, if_false]
end

/-- Settles O3: each instruction by what it does with a legal unit. -/
theorem moverSynchronisation : Obligations.MoverSynchronisation := by
  rintro s n c u t rfl
  refine ⟨fun h real own good thr hthr => ?_, fun h real adds => ?_, fun h => ?_, fun h => ?_⟩ <;> obtain rfl := takes_stn h
  · obtain ⟨thr, level⟩ := waitThr_eq hthr
    exact (exec_wait _ _).trans (moverRow_goes h (unitWait_arms _ (decide_eq_true real) own good thr level))
  · exact (exec_signal _ _).trans (moverRow_goes h (unitSignal_pends _ (decide_eq_true real) adds))
  · exact (exec_fence _ _).trans (moverRow_goes h rfl)
  · exact (exec_advise _ _).trans (moverRow_goes h rfl)

end Sys2Proof.Machine
end

section
/-! SUPPORT. Tallies and waits: the threshold test, signals that fire, landing barriers, acquires that settle and waits that
expire (R97 to R100, R231 to R234). -/
namespace Sys2Proof.Machine

/-! ## The threshold test (R97) -/

/-- Settles O16: the distance from the threshold to the value is their difference modulo 2^48. -/
theorem thresholdTest : Obligations.ThresholdTest := by
  intro v thr hv ht
  rw [talMet, decide_eq_true_iff, Nat.mod_eq_of_lt ht]
  refine ⟨fun near => ⟨_, near, ?_⟩, ?_⟩
  · omega
  · rintro ⟨d, near, rfl⟩
    omega

/-! ## Signals (R99, R100, R248) -/

theorem exec_signalFire (n k : Nat) (s : State) : exec (.signalFire n k) s =
    .next (s.put (if stnRuns s.b n then sigFire (tick s.b n k) n k else s.b)) := rfl

theorem sigFire_met {b : Block} {n k : Nat} {g : Sig} {rest : List Sig} (oldest : (getStrand b n k).sigs = g :: rest)
    (met : sigMet (getStn b n) k (getStrand b n k) g = true) :
    sigFire b n k = pushAdd (setStrand b n k { getStrand b n k with sigs := rest })
      ⟨.station n, g.tally, g.amount, some n, scopeOf g.scope, if g.cond = 1 then .system else .station, none⟩ := by
  simp [sigFire, oldest, met]

/-- Settles O13: the oldest signal leaves its strand, and its addition leaves for the tally. -/
theorem signalFires : Obligations.SignalFires := by
  rintro s n k b t g rest runs rfl rfl oldest met
  refine ⟨_, rfl, ?_⟩
  rw [exec_signalFire, if_pos runs, sigFire_met oldest met]
  rfl

/-! ## Barriers, acquires and waits by their condition (R98, R233, R234) -/

theorem exec_landingBarrier (n : Nat) (s : State) : exec (.landingBarrier n) s =
    .next (s.put (if isDead s.b then s.b else beginBarrier s.b n)) := rfl

theorem exec_barrierReport (n : Nat) (s : State) : exec (.barrierReport n) s =
    .next (s.put (if isDead s.b then s.b else reportBarrier s.b n)) := rfl

theorem exec_acquireComplete (n k : Nat) (s : State) : exec (.acquireComplete n k) s = .next (s.put (
    if (getStrand s.b n k).entry.isSome && !stnFenced s.b n && !isDead s.b then acqDone s.b n k else s.b)) := rfl

theorem exec_waitTimeout (n k : Nat) (s : State) : exec (.waitTimeout n k) s =
    .next (s.put (if stnFenced s.b n || isDead s.b then s.b else waitExpire s.b n k)) := rfl

/-- A WAIT whose acquire has settled lets its strand go on (R233). -/
theorem acqDone_wait {b : Block} {n k : Nat} {a : Acq} (wait : (getStrand b n k).wait = .acquiring a)
    (settled : acqSettled b a = true) (blocked : (getStrand b n k).blocked = .wait) :
    (getStrand (acqDone b n k) n k).wait = .none ∧ (getStrand (acqDone b n k) n k).blocked = .no := by
  simp [acqDone, acqStep, wait, settled, blocked]

theorem waitExpire_armed {b : Block} {n k tal thr sc : Nat} (wait : (getStrand b n k).wait = .armed tal thr sc)
    (limit : (getStrand b n k).waitTmo ≠ 0) : waitExpire b n k = tick (reqThaw (detachOps
      (stopAt b n k ((getStrand b n k).pc - 16) 0x15) n k) n) n k := by
  simp [waitExpire, wait, limit]

/-! ## What a barrier covers (R234) -/

theorem getStn_beginBarrier {b : Block} {n : Nat} (asked : (getStn b n).barReq ≠ []) : getStn (beginBarrier b n) n =
    { getStn b n with barReq := [], barriers := (getStn b n).barriers ++
        [{ tallies := (getStn b n).barReq, wids := departedWids (getStn b n) false,
           far := (getStn b n).wWrTags.map (fun e => e.2.wid), mark := b.nextId }] } := by
  simp [beginBarrier, asked]

/-- The writes that have departed and not landed, those through windows aside. -/
theorem mem_departedWids {st : Station} {w : Nat} : w ∈ departedWids st false ↔
    (∃ e ∈ st.wrTags, e.2.failed = false ∧ e.2.wid = w) ∨ (∃ e ∈ st.vWrTags, e.2.wid = w) ∨ ∃ e ∈ st.nearWr, e.wid = w := by
  simp only [departedWids, liveWr, List.mem_append, List.mem_map, List.mem_filter, Bool.not_eq_true', Bool.false_eq_true,
    if_false, List.not_mem_nil, or_false, and_assoc, or_assoc]

/-- Settles O17: barriers, acquires and expiries by their condition, and the new barrier by its fields. -/
theorem barriersAndWaits : Obligations.BarriersAndWaits := by
  refine ⟨fun s n k alive => ⟨?_, ?_, fun runs unfenced a wait settled blocked => ?_,
    fun unfenced tal thr sc wait limit => ?_⟩, fun b n asked => ?_⟩
  · rw [exec_landingBarrier, alive, if_neg Bool.false_ne_true]
  · rw [exec_barrierReport, alive, if_neg Bool.false_ne_true]
  · refine ⟨s.put (acqDone s.b n k), ?_, acqDone_wait wait settled blocked⟩
    rw [exec_acquireComplete, runs, unfenced, alive]
    rfl
  · rw [exec_waitTimeout, unfenced, alive, Bool.or_self, if_neg Bool.false_ne_true, waitExpire_armed wait limit]
  · rw [getStn_beginBarrier asked]
    exact ⟨_, rfl, rfl, rfl, rfl, fun e he good => mem_departedWids.2 (.inl ⟨e, he, good, rfl⟩),
      fun e he => mem_departedWids.2 (.inr (.inl ⟨e, he, rfl⟩)), fun e he => mem_departedWids.2 (.inr (.inr ⟨e, he, rfl⟩)),
      fun e he => List.mem_map.2 ⟨e, he, rfl⟩⟩

end Sys2Proof.Machine
end

section
/-! SUPPORT. The start stage of data operations: descriptors and side blocks that arrive, hazard entries, guards, codec slots
and shared resources (R84, R85, R112, R161, R178, R207, R222). -/
namespace Sys2Proof.Machine

/-! ## Commands by their condition -/

theorem exec_descriptorArrive (n k : Nat) (d side : Line) (ret : Ret) (s : State) :
    exec (.descriptorArrive n k d side ret) s = .next (s.put (descBack s.par s.b n k d side ret)) := rfl

theorem exec_hazardGrant {n k : Nat} {s : State} (runs : stnRuns s.b n = true) :
    exec (.hazardGrant n k) s = .next (s.put (tick (hazStep (tick s.b n k) n k) n k)) := by
  show effect _ s = _
  rw [effect_put, if_pos runs]

theorem exec_guardSatisfied {n k : Nat} {o : Op} {s : State} (waits : guardOp (getStrand s.b n k) = some o) :
    exec (.guardSatisfied n k) s = .next (s.put (if stnRuns s.b n && guardsOver (getStrand s.b n k) then
      tick (afterGuards s.b n k o) n k else s.b)) := by
  show effect _ s = _
  simp only [effect_put, waits]

theorem exec_guardTimeout {n k : Nat} {o : Op} {s : State} (waits : guardOp (getStrand s.b n k) = some o) :
    exec (.guardTimeout n k) s = .next (s.put (if rbits s.b (nearB n + 0x50) 15 0 ≠ 0 &&
      (waitArmed (getStrand s.b n k).guardS || waitArmed (getStrand s.b n k).guardD) && !stnFenced s.b n && !isDead s.b then
      tick (guardExpire s.b n k o) n k else s.b)) := by
  show effect _ s = _
  simp only [effect_put, waits]

theorem exec_codecBind {n k : Nat} {s : State} (runs : stnRuns s.b n = true) :
    exec (.codecBind n k) s = .next (s.put (tick (codecBind s.b n k) n k)) := by
  show effect _ s = _
  rw [effect_put, if_pos runs]

theorem exec_resourceGrant {n k : Nat} {s : State} (runs : stnRuns s.b n = true) :
    exec (.resourceGrant n k) s = .next (s.put (tick (resGrant (tick s.b n k) n k) n k)) := by
  show effect _ s = _
  rw [effect_put, if_pos runs]

/-! ## Descriptors and side blocks (R84, R112) -/

/-- A line that the strand still wants enters the descriptor cache, and the start stage looks at it. -/
theorem descBack_taken (p : Params) {b : Block} {n k : Nat} {f : Fetch} (d side : Line) {ret : Ret}
    (good : retCause p 3 ret = none) (recent : (getStn b n).oldPf.find? (fun f => f.k = k && f.va ≥ 2 ^ 60) = none)
    (asked : (getStn b n).pfOut.find? (fun f => f.k = k && f.va ≥ 2 ^ 60) = some f) (live : f.live = true)
    (takes : stnDiscards b n = false) : descBack p b n k d side ret =
      tick (descTry p (modStn (drained (withPf b n ((getStn b n).pfOut.erase f)) n (drainPf k f.va)) n (fun st => { st with
        dcache := dcachePut st.dcache f.pa (if f.va < 2 ^ 61 then d else side) k })) n k) n k := by
  rw [← stnDiscards_withPf b n (drainPf k f.va) ((getStn b n).pfOut.erase f)] at takes
  unfold withPf at *
  simp only [descBack, recent, asked, takes, good, live, Bool.not_true, Bool.false_eq_true, if_false]

section
variable (p : Params) {b : Block} {n k pa : Nat} {o : Op} {e : Entry} {c : Line}
  (front : frontOp (getStrand b n k) = some o) (move : o.kind = .move) (phase : o.phase = .desc)
  (entry : (getStrand b n k).entry = some e) (hit : xlPa e.xl o.desc = some pa)
  (cached : dcacheGet (getStn b n) (some pa) = some c)
include front move phase entry hit cached

/-- A descriptor without a side block starts its operation at once. -/
theorem descTry_noSide (alone : sideAddr o e c.toNat = none) : descTry p b n k = startMove p (modStn b n (fun st =>
    { st with dcache := dcachePut st.dcache pa c k })) n k o e c.toNat 0 := by
  have target : (if headIllegal p n (getStrand b n k) o c.toNat then none else sideAddr o e c.toNat) = none := by simp [alone]
  simp only [descTry, front, entry, move, phase, hit, cached, target, ne_eq, not_true_eq_false, decide_false, Bool.or_self,
    Bool.false_eq_true, if_false]

variable {sa : Nat} (legal : headIllegal p n (getStrand b n k) o c.toNat = false) (side : sideAddr o e c.toNat = some sa)
include legal side

/-- A side block that the cache does not hold is fetched. -/
theorem descTry_asks (missing : dcacheGet (getStn b n) (xlPa e.xl sa) = none) :
    descTry p b n k = blockAsk b n k sa (sa + 2 ^ 61) := by
  simp only [descTry, front, entry, move, phase, hit, cached, legal, side, missing, ne_eq, not_true_eq_false, decide_false,
    Bool.or_self, Bool.false_eq_true, if_false]
  cases xlPa e.xl sa <;> rfl

/-- A side block that the cache holds starts the operation. -/
theorem descTry_starts {spa : Nat} {c' : Line} (hit' : xlPa e.xl sa = some spa)
    (cached' : dcacheGet (getStn b n) (some spa) = some c') : descTry p b n k = startMove p (modStn (modStn b n (fun st =>
      { st with dcache := dcachePut st.dcache pa c k })) n (fun st => { st with dcache := dcachePut st.dcache spa c' k }))
      n k o e c.toNat c'.toNat := by
  simp only [descTry, front, entry, move, phase, hit, cached, legal, side, hit', cached', ne_eq, not_true_eq_false,
    decide_false, Bool.or_self, Bool.false_eq_true, if_false]
end

/-! ## Hazard entries (R222) -/

section
variable {b : Block} {n k : Nat} {o : Op} (unfenced : pageFence b (ordB n) = false)
include unfenced

theorem hazStep_resumes
    (ended : (getStrand b n k).ops.find? (fun x => x.phase = .conflict && !opConflict (getStn b n) k x) = some o) :
    hazStep b n k = afterConflict b n k o := by
  simp only [hazStep, unfenced, ended, Bool.false_eq_true, if_false]

theorem hazStep_grants
    (held : (getStrand b n k).ops.find? (fun x => x.phase = .conflict && !opConflict (getStn b n) k x) = none)
    (waits : hazWaiter b n k = some o) (turn : hazTurn b n k o = true) (room : hazUsed (getStn b n) + o.foots.length ≤ 64) :
    hazStep b n k = grantHaz b n k o := by
  have grants : hazNext b n k = some o := by simp [hazNext, waits, turn, room]
  simp only [hazStep, unfenced, held, grants, Bool.false_eq_true, if_false]
end

/-! ## Codec slots and shared resources (R161, R178) -/

theorem codecBind_binds {b : Block} {n k : Nat} {o : Op}
    (ready : (getStrand b n k).ops.find? (fun o => bindReady b n k o) = some o)
    (loaded : (bindSlots o).all (fun i => !(codecSlot (getStn b n) i).loading) = true) :
    codecBind b n k = modOp b n k o.id (fun x => { x with
      phase := .res, mv := x.mv.map (fun m => { m with bound := (bindSlots o).map (bindSlot (getStn b n)) }) }) := by
  have idle : (bindSlots o).any (fun i => (codecSlot (getStn b n) i).loading) = false := by
    simpa using loaded
  simp only [codecBind, ready, idle, Bool.false_eq_true, if_false]

section
variable {b : Block} {n k id : Nat} {rest : List (Nat × Nat)} {o : Op} {m : Mv}
  (oldest : (getStn b n).resQ = (k, id) :: rest) (op : findOp b n k id = some o) (mv : o.mv = some m)
include oldest op mv

theorem resGrant_grants (next : burstNext b n k o = true) (free : resFree (getStn b n) m = true) :
    resGrant b n k = beginIssue (setStn b n (giveRes (getStn b n) k id m)) n k id := by
  simp [resGrant, oldest, op, mv, next, free]

theorem resGrant_gives_up (later : burstNext b n k o = false) :
    resGrant b n k = modStn b n (fun st => { st with resQ := st.resQ.erase (k, id) }) := by
  simp [resGrant, oldest, op, mv, later]
end

/-- Settles O7: the descriptor's arrival and the start stage's look at it, then each grant by whose turn it is. -/
theorem startStage : Obligations.StartStage := by
  refine ⟨?_, ?_, fun s n k => ⟨?_, fun o waits runs ended => ?_, fun o waits => ⟨fun limit armed unfenced alive => ?_,
    fun srcOver dstOver => ?_⟩, fun o runs ready loaded => ?_, ?_⟩⟩
  · rintro s n k d side f b recent asked live going awake rfl
    rw [exec_descriptorArrive, descBack_taken _ d side (retCause_good _ _) recent asked live
      (stnDiscards_eq_false going awake)]
  · rintro p b n k pa o e c front move phase entry hit cached use rfl
    exact ⟨descTry_noSide p front move phase entry hit cached, fun sa legal side =>
      ⟨descTry_asks p front move phase entry hit cached legal side,
        fun spa c' => descTry_starts p front move phase entry hit cached legal side⟩⟩
  · rintro b o runs rfl unfenced
    rw [exec_hazardGrant runs]
    exact ⟨fun ended => by rw [hazStep_resumes unfenced ended],
      fun held waits turn room => by rw [hazStep_grants unfenced held waits turn room]⟩
  · rw [exec_guardSatisfied waits, runs, ended]
    rfl
  · have due : (rbits s.b (nearB n + 0x50) 15 0 ≠ 0 && (waitArmed (getStrand s.b n k).guardS ||
        waitArmed (getStrand s.b n k).guardD) && !stnFenced s.b n && !isDead s.b) = true := by
      simp [limit, armed, unfenced, alive]
    rw [exec_guardTimeout waits, if_pos due]
    rfl
  · rw [exec_guardTimeout waits]
    simp [srcOver, dstOver]
  · rw [exec_codecBind runs, codecBind_binds ready loaded]
  · rintro b id rest o m runs rfl oldest op mv
    rw [exec_resourceGrant runs]
    exact ⟨fun next free => by rw [resGrant_grants oldest op mv next free],
      fun later => by rw [resGrant_gives_up oldest op mv later]⟩

end Sys2Proof.Machine
end

section
/-! SUPPORT. The codec's blocks, TLOAD and STAT: what each command does when the work it takes is there (R103, R179, R186,
R190). -/
namespace Sys2Proof.Machine

/-! ## Commands at a station that runs -/

section
variable {n k : Nat} {s : State} (runs : stnRuns s.b n = true)
include runs

theorem exec_blockDecode : exec (.blockDecode n k) s = .next (s.put (decodeOne (tick s.b n k) n k)) := by
  show effect _ s = _
  rw [effect_put, if_pos runs]

theorem exec_blockEncode : exec (.blockEncode n k) s = .next (s.put (encodeOne (tick s.b n k) n k)) := by
  show effect _ s = _
  rw [effect_put, if_pos runs]

theorem exec_tloadMarkLoading : exec (.tloadMarkLoading n k) s = .next (s.put (tick (tloadMark s.b n k) n k)) := by
  show effect _ s = _
  rw [effect_put, if_pos runs]

theorem exec_tloadTableBuilt : exec (.tloadTableBuilt n k) s = .next (s.put (tick (tloadBuild s.b n k) n k)) := by
  show effect _ s = _
  rw [effect_put, if_pos runs]

theorem exec_statRecord : exec (.statRecord n k) s = .next (s.put (tick (statTake s.b n k) n k)) := by
  show effect _ s = _
  rw [effect_put, if_pos runs]
end

/-! ## Blocks (R186, R190) -/

theorem decodeOne_ready {b : Block} {n k : Nat} {o : Op} {m : Mv} {a h : Nat} {q : Bool} {r : Decoded}
    (ready : (getStrand b n k).ops.findSome? (fun o => if (o.phase = .issue ∨ o.phase = .issued) ∧ !opHeld b n k o then
      (nextDecode o).map (fun x => (o, x)) else none) = some (o, m, a, h, q))
    (decoded : r = decodeBlock m h q (blockPay m o a h) (blockBaseLine m o a)) :
    decodeOne b n k = tick (modOp (countCh (countCh (countCh b n (getStrand b n k).chan 0x14 1) n (getStrand b n k).chan 0x15
        (if !q && blockRead m h then hClen h else 0)) n (getStrand b n k).chan 0x16
        (if !q && !blockBad (cW m) (mvDelta m) h && !blockStale m h then 128 * hOlines h else 0)) n k o.id (fun x => { x with
      decoded := tput x.decoded (a / 4096) r.elems, cfaults := x.cfaults ++ blockFaults m a q r })) n k := by
  subst decoded
  simp only [decodeOne, ready]

theorem encodeOne_ready {b : Block} {n k : Nat} {o : Op} {m : Mv} {e : EncSpec} {l : List (Nat × Bool)} {blk : EncBlk}
    (ready : (getStrand b n k).ops.findSome? (fun o => if o.phase = .issue ∧ !opHeld b n k o then
      (nextEncode o).map (fun x => (o, x)) else none) = some (o, m, e, l))
    (encoded : blk = encodeBlock (mvWd m) (cEmode m.side) e.place e.lines l) :
    encodeOne b n k = tick (modOp (countCh b n (getStrand b n k).chan 0x16 blk.payload.length) n k o.id
      (fun x => { x with encoded := x.encoded ++ [blk] })) n k := by
  subst encoded
  simp only [encodeOne, ready]

/-! ## TLOAD marks its slot (R179, steps 2 to 4) -/

/-- A change of an operation that keeps its number leaves one found under that number, and it has the change. -/
theorem findOp_modOp {b : Block} {n k : Nat} {o : Op} {f : Op → Op} (held : o ∈ (getStrand b n k).ops)
    (keeps : ∀ x, (f x).id = x.id) : ∃ x, findOp (modOp b n k o.id f) n k o.id = some (f x) := by
  have same : (fun x : Op => decide (x.id = o.id)) ∘ (fun x => if x.id = o.id then f x else x) = fun x => decide (x.id = o.id) := by
    funext x
    by_cases own : x.id = o.id <;> simp [own, keeps]
  obtain ⟨x, found⟩ : ∃ x, (getStrand b n k).ops.find? (fun x => x.id = o.id) = some x :=
    Option.isSome_iff_exists.1 (List.find?_isSome.2 ⟨o, held, decide_eq_true rfl⟩)
  have own : x.id = o.id := by simpa using List.find?_some found
  refine ⟨x, ?_⟩
  simp only [findOp, modOp, get_modStrand, List.find?_map, same, found, Option.map_some, own, if_true]

/-- Which MOVEs wait to bind rests on the station's power alone, of all that the station holds. -/
theorem bindersHeld_setStn {b : Block} {n : Nat} {x : Station} (power : x.power = (getStn b n).power) (i : Nat) :
    bindersHeld (setStn b n x) n i = bindersHeld b n i := by
  have active : stnActive (setStn b n x) n = stnActive b n := by simp only [stnActive, get_setStn, power]
  have strands : stnStrands (setStn b n x) n = stnStrands b n := rfl
  simp only [bindersHeld, strands, bindReady, burstNext, nearOk, active, getStrand_setStn]
  rfl

/-- The block after a TLOAD has marked its slot LOADING. -/
def tloadMarked (b : Block) (n k : Nat) (o : Op) : Block :=
  modOp (withSlots b n ((getStn b n).slots.set (tloadSlot o) { codecSlot (getStn b n) (tloadSlot o) with loading := true }))
    n k o.id (fun x => { x with marked := true })

theorem findOp_tloadMarked {b : Block} {n k : Nat} {o : Op} (held : o ∈ (getStrand b n k).ops) :
    ((findOp (tloadMarked b n k o) n k o.id).map (·.marked)).getD false = true := by
  obtain ⟨x, found⟩ := findOp_modOp (b := withSlots b n ((getStn b n).slots.set (tloadSlot o)
    { codecSlot (getStn b n) (tloadSlot o) with loading := true })) (f := fun x => { x with marked := true })
    held (fun _ => rfl)
  rw [tloadMarked, found]
  rfl

/-- The only TLOAD of its slot, with no MOVE still to bind, marks it, and goes on to its table when no binding holds it. -/
theorem tloadMark_marks {b : Block} {n k : Nat} {o : Op}
    (oldest : (getStrand b n k).ops.find? (fun o => o.kind = .tload && o.phase = .bind) = some o)
    (earlier : earlierBound (getStrand b n k) o = true) (free : opHeld b n k o = false)
    (alone : (getStn b n).tloads = [(tloadSlot o, k, o.id)])
    (idle : (codecSlot (getStn b n) (tloadSlot o)).loading = false) (bound : bindersHeld b n (tloadSlot o) = false) :
    tloadMark b n k = if slotBound (tloadMarked b n k o) n (tloadSlot o) = 0 then
      modOp (tloadMarked b n k o) n k o.id (fun x => { x with phase := .issue }) else tloadMarked b n k o := by
  have queued : modStn b n (fun st => if st.tloads.any (fun e => e.2 = (k, o.id)) then st
      else { st with tloads := st.tloads ++ [(tloadSlot o, k, o.id)] }) = setStn b n (getStn b n) := by
    simp [modStn, alone]
  have turn : (getStn b n).tloads.find? (fun e => e.1 = tloadSlot o) = some (tloadSlot o, k, o.id) := by
    simp [alone]
  have mark : modOp (modStn (setStn b n (getStn b n)) n (fun st => { st with
      slots := st.slots.set (tloadSlot o) { codecSlot (getStn b n) (tloadSlot o) with loading := true } })) n k o.id
      (fun x => { x with marked := true }) = tloadMarked b n k o := by
    rw [modStn_setStn]
    rfl
  have marked := findOp_tloadMarked (List.mem_of_find?_eq_some oldest)
  have still : bindersHeld (setStn b n (getStn b n)) n (tloadSlot o) = false := (bindersHeld_setStn rfl _).trans bound
  simp only [tloadMark, oldest, earlier, free, queued, get_setStn, turn, idle, still, mark, marked, Bool.not_true, Bool.not_false,
    Bool.or_self, Bool.false_eq_true, if_false, decide_true, Bool.and_self, if_true, Bool.true_and, decide_eq_true_eq]

/-! ## TLOAD builds its slot (R179, step 5) -/

/-- A valid table makes the slot VALID with the load's generation, and the load leaves its strand. -/
theorem tloadBuild_valid {b : Block} {n k : Nat} {o : Op} {t0 t1 : Nat} {byte : Nat → Nat}
    (here : (getStrand b n k).ops.find? (fun o => o.kind = .tload && tableHere (getStn b n) k o && !opHeld b n k o) = some o)
    (head : (gotNum o.got 9 o.desc 8).map (·.1) = some t0) (tail : (gotNum o.got 9 (o.desc + 8) 8).map (·.1) = some t1)
    (bytes : byte = fun j => ((gotByte o.got 9 (o.desc + j)).map (·.1)).getD 0) (valid : tabValid t0 t1 byte = true) :
    tloadBuild b n k = relHaz (opRemove (modStrand (modStn (withSlots b n ((getStn b n).slots.set (tloadSlot o)
        ⟨true, false, bits o.w0.toNat 23 16, tabSyms t0 byte, tabEsc t0⟩)) n (fun st => { st with
          tloads := st.tloads.filter (fun e => e.2 ≠ (k, o.id)) })) n k
      (fun t => { t with blocked := if t.blocked = .tload then .no else t.blocked })) n k o.id) n := by
  subst bytes
  obtain ⟨⟨_, p0⟩, got0, rfl⟩ := Option.map_eq_some_iff.1 head
  obtain ⟨⟨_, p1⟩, got1, rfl⟩ := Option.map_eq_some_iff.1 tail
  simp only [tloadBuild, here, got0, got1, valid, if_true]
  rfl

/-! ## STAT (R103) -/

/-- A STAT that writes its record, and neither closes the interval nor pushes history, takes the record. -/
theorem statTake_writes {b : Block} {n k : Nat} {o : Op}
    (next : (getStrand b n k).ops.find? (fun o => o.kind = .stat && o.phase = .res) = some o)
    (earlier : ((getStrand b n k).ops.takeWhile (fun x => x.id ≠ o.id)).all shaperOver = true) (free : opHeld b n k o = false)
    (keep : bit o.w0.toNat 8 = false) (still : bit o.w0.toNat 9 = false) (writes : bit o.w0.toNat 10 = true) :
    statTake b n k = modOp b n k o.id (fun x => { x with phase := .issue, elem := some (wordsNum
      (statRecord (getStrand b n k).stats k false (bits o.w0.toNat 21 16) (getStrand b n k).seq)) }) := by
  simp only [statTake, next, earlier, free, keep, still, writes, Bool.not_true, Bool.or_self, Bool.false_eq_true, if_false, if_true]

/-- Settles O10: each command by the function it runs, on the operation that is ready for it. -/
theorem codecAndStatistics : Obligations.CodecAndStatistics := by
  rintro s n k b runs rfl
  refine ⟨?_, fun o m e l blk ready encoded => ?_, fun o oldest earlier free alone idle bound _ => ⟨_, rfl, ?_⟩,
    fun o here t0 t1 byte head tail bytes valid => ⟨_, rfl, ?_⟩, ?_⟩
  · rintro o m a h q _ r ready rfl decoded
    rw [exec_blockDecode runs, decodeOne_ready ready decoded]
  · rw [exec_blockEncode runs, encodeOne_ready ready encoded]
  · rw [exec_tloadMarkLoading runs, tloadMark_marks oldest earlier free alone idle bound]
    rfl
  · rw [exec_tloadTableBuilt runs, tloadBuild_valid here head tail bytes valid]
  · rintro o _ rfl next earlier free keep still writes
    rw [exec_statRecord runs, statTake_writes next earlier free keep still writes]

end Sys2Proof.Machine
end

section
/-! SUPPORT. The near port: its frame and slots, the locked stream's slot, and the tile's answers (R195 to R205, R214, R431,
R440). -/
namespace Sys2Proof.Machine

/-! ## Slots (R195 to R197, R204) -/

theorem exec_frameSync (n : Nat) (onTime : Bool) (s : State) : exec (.frameSync n onTime) s = .next (s.put (
    if onTime then setStn s.b n { getStn s.b n with slot := 0 }
    else senseEv (setStn s.b n { getStn s.b n with slot := 0 }) 0x54)) := rfl

theorem exec_nearSlot (n corrected : Nat) (beyond : BitVec 4) (s : State) :
    exec (.nearSlot n corrected beyond) s = .next (s.put (nearSlotStep s.b n corrected beyond.toNat)) := rfl

theorem exec_lineStaged {n : Nat} {s : State} (runs : nearRuns s.b n = true) :
    exec (.lineStaged n) s = .next (s.put (stageLine (tickStn s.b n) n)) := by
  show effect _ s = _
  rw [effect_put, if_pos runs]

/-- The frame has come to its next slot. -/
def slotPassed (b : Block) (n : Nat) : Block := setStn b n { getStn b n with slot := ((getStn b n).slot + 1) % 8 }

section
variable {b : Block} {n : Nat} (corrected rows : Nat)

theorem nearSlotStep_passes
    (idle : nearRuns (slotPassed b n) n = false ∨ bit (nearOwn (slotPassed b n) n) (getStn b n).slot = false) :
    nearSlotStep b n corrected rows = slotPassed b n := by
  refine if_pos ?_
  show (!nearRuns (slotPassed b n) n || !bit (nearOwn (slotPassed b n) n) (getStn b n).slot) = true
  obtain h | h := idle <;> simp [h]

section
variable (runs : nearRuns (slotPassed b n) n = true) (own : bit (nearOwn (slotPassed b n) n) (getStn b n).slot = true)
include runs own

/-- A slot that Bunar owns serves the locked stream, a write or a read, as NEAR_CFG says. -/
theorem nearSlotStep_owned : nearSlotStep b n corrected rows =
    if bit (nearLock (tickStn (slotPassed b n) n) n) (getStn b n).slot then
      if (lockChan (tickStn (slotPassed b n) n) n).isSome then lockedSlot (tickStn (slotPassed b n) n) n corrected rows
      else tickStn (slotPassed b n) n
    else if bit (nearWrs (tickStn (slotPassed b n) n) n) (getStn b n).slot then
      freeWrite (tickStn (slotPassed b n) n) n corrected rows
    else freeRead (tickStn (slotPassed b n) n) n := by
  refine if_neg ?_
  show ¬(!nearRuns (slotPassed b n) n || !bit (nearOwn (slotPassed b n) n) (getStn b n).slot) = true
  simp [runs, own]

theorem nearSlotStep_locked (lock : bit (nearLock (tickStn (slotPassed b n) n) n) (getStn b n).slot = true)
    (stream : (lockChan (tickStn (slotPassed b n) n) n).isSome = true) :
    nearSlotStep b n corrected rows = lockedSlot (tickStn (slotPassed b n) n) n corrected rows := by
  simp only [nearSlotStep_owned corrected rows runs own, lock, stream, if_true]

variable (free : bit (nearLock (tickStn (slotPassed b n) n) n) (getStn b n).slot = false)
include free

theorem nearSlotStep_write (write : bit (nearWrs (tickStn (slotPassed b n) n) n) (getStn b n).slot = true) :
    nearSlotStep b n corrected rows = freeWrite (tickStn (slotPassed b n) n) n corrected rows := by
  simp only [nearSlotStep_owned corrected rows runs own, free, write, Bool.false_eq_true, if_false, if_true]

theorem nearSlotStep_read (read : bit (nearWrs (tickStn (slotPassed b n) n) n) (getStn b n).slot = false) :
    nearSlotStep b n corrected rows = freeRead (tickStn (slotPassed b n) n) n := by
  simp only [nearSlotStep_owned corrected rows runs own, free, read, Bool.false_eq_true, if_false]
end
end

/-! ## The locked stream (R198, R204, R214) -/

@[simp] theorem getStn_nearCorrected (b : Block) (n corrected m : Nat) : getStn (nearCorrected b n corrected) m = getStn b m := by
  simp [nearCorrected, rcount]

/-- The rows beyond correction that the line itself asks for. -/
def lostRows (l : NearLine) (rows : Nat) : Nat := rows &&& poisonWords 256 l.mask

/-- The block once a write has departed in its slot and is counted, before any fault of its rows. -/
def lineSent (b : Block) (n : Nat) (l : NearLine) (corrected rows : Nat) : Block :=
  let sent := nearCorrected (modStn (newId b).2 n (fun st =>
    { st with nearWr := st.nearWr ++ [{ markRows l (lostRows l rows) with wid := b.nextId }] })) n corrected
  if l.chan = 32 then count sent (.station n) 0x08 1 none else countCh sent n l.chan 0x08 1

theorem getStn_lineSent (b : Block) (n : Nat) (l : NearLine) (corrected rows : Nat) :
    getStn (lineSent b n l corrected rows) n = { getStn b n with
      nearWr := (getStn b n).nearWr ++ [{ markRows l (lostRows l rows) with wid := b.nextId }] } := by
  unfold lineSent
  split <;> simp [getStn_newId]

theorem nearDepart_eq (b : Block) (n : Nat) (l : NearLine) (corrected rows : Nat) : nearDepart b n l corrected rows =
    if lostRows l rows = 0 ∨ l.link.isSome = true then lineSent b n l corrected rows
    else bufferFault (lineSent b n l corrected rows) n l.strand l.op (256 * l.line) := rfl

section
variable {b : Block} {n : Nat} (corrected rows : Nat)

theorem lockedSlot_carries {l : NearLine} {rest : List NearLine} (oldest : (getStn b n).staged = l :: rest) :
    lockedSlot b n corrected rows =
      if l.strand < 256 then tick (nearDepart (setStn b n { getStn b n with staged := rest }) n l corrected rows) n l.strand
      else nearDepart (setStn b n { getStn b n with staged := rest }) n l corrected rows := by
  simp only [lockedSlot, oldest, modStn]

theorem lockedSlot_late (empty : (getStn b n).staged = []) (live : streamLive b n = true) :
    lockedSlot b n corrected rows = count (rcount b (nearB n + 0x58) 1) (.station n) 0x0A 1 none := by
  simp only [lockedSlot, empty, live, if_true]
end

/-- Settles O11: the frame and the slots by what NEAR_CFG says of the slot, then the locked slot by the stream's oldest staged
line. -/
theorem nearPort : Obligations.NearPort := by
  refine ⟨?_, fun b n => ⟨fun l rest corrected rows oldest => ?_, fun empty live corrected rows =>
    lockedSlot_late corrected rows empty live⟩⟩
  · rintro s n _ _ rfl rfl
    refine ⟨exec_frameSync n true s, exec_frameSync n false s, fun corrected beyond => ⟨fun idle => ?_, ?_⟩, exec_lineStaged⟩
    · rw [exec_nearSlot, nearSlotStep_passes corrected _ idle]
      rfl
    · rintro runs own _ rfl
      refine ⟨fun lock stream => ?_, fun free write => ?_, fun free read => ?_⟩
      · rw [exec_nearSlot, nearSlotStep_locked corrected _ runs own lock stream]
        rfl
      · rw [exec_nearSlot, nearSlotStep_write corrected _ runs own free write]
        rfl
      · rw [exec_nearSlot, nearSlotStep_read corrected _ runs own free read]
        rfl
  · have sent := getStn_lineSent (setStn b n { getStn b n with staged := rest }) n l corrected rows
    rw [get_setStn] at sent
    refine ⟨_, congrArg Station.staged sent, congrArg Station.nearWr sent, _, rfl, ?_⟩
    rw [lockedSlot_carries corrected rows oldest, nearDepart_eq]
    rfl

/-! ## The tile's answers (R198, R199, R431) -/

theorem exec_nearReadData (n : Nat) (data : SLine) (ret : Ret) (corrected : Nat) (rerr : Bool) (s : State) :
    exec (.nearReadData n data ret corrected rerr) s = .next (s.put (nearReadBack s.b n data ret corrected rerr)) := rfl

theorem exec_nearWriteAck (n : Nat) (werr : Bool) (s : State) :
    exec (.nearWriteAck n werr) s = .next (s.put (nearWrDone s.par s.b n (if werr then some 0 else none))) := rfl

theorem exec_nearAckMissing (n : Nat) (s : State) :
    exec (.nearAckMissing n) s = .next (s.put (nearWrDone s.par s.b n (some 3))) := rfl

theorem nearCause_good (rows : Nat) : nearCause rows ⟨0, 0, 0⟩ false = none := by simp [nearCause]

/-- The block once the oldest read's answer has left the list, its corrected rows counted. -/
def readAnswered (b : Block) (n : Nat) (rest : List NearLine) (corrected : Nat) : Block :=
  nearCorrected (setStn b n { getStn b n with nearRd := rest }) n corrected

/-- Which reads are outstanding, and how many rows were corrected, do not decide whether a station takes what returns. -/
theorem stnDiscards_readAnswered (b : Block) (n : Nat) (rest : List NearLine) (corrected : Nat) :
    stnDiscards (readAnswered b n rest corrected) n = stnDiscards b n := by
  simp [stnDiscards, stnActive, readAnswered]

section
variable {b : Block} {n : Nat} {l : NearLine} {rest : List NearLine} (strand : l.link = none)
include strand

/-- Good data for the oldest read of a strand reaches its operation with no byte marked. -/
theorem nearReadBack_good (oldest : (getStn b n).nearRd = l :: rest) (takes : stnDiscards b n = false) (data : SLine)
    (corrected : Nat) : nearReadBack b n data ⟨0, 0, 0⟩ corrected false =
      opReadBack (readAnswered b n rest corrected) n l.strand l.op l.opd .scratch (256 * l.line) l.mask data.toNat
        (fun _ => false) none := by
  have clean : (fun i => false || (0 : BitVec 4).toNat.testBit (i / 64) || (0 : BitVec 4).toNat.testBit (i / 64)) =
      fun _ => false := by simp
  rw [← stnDiscards_readAnswered b n rest corrected] at takes
  unfold readAnswered at *
  simp only [nearReadBack, oldest, strand, takes, nearCause_good, clean, Bool.false_eq_true, if_false, Option.map_none]

section
variable (p : Params) (oldest : (getStn b n).nearWr = l :: rest)
include oldest

theorem nearWrDone_lands : nearWrDone p b n none = tick (setStn b n { getStn b n with nearWr := rest }) n l.strand := by
  simp only [nearWrDone, oldest, strand]

theorem nearWrDone_fails (cause : Nat) : nearWrDone p b n (some cause) =
    tick (opWriteFail (setStn b n { getStn b n with nearWr := rest }) n l.strand l.op (256 * l.line) cause false) n
      l.strand := by
  simp only [nearWrDone, oldest, strand]
end
end

/-- Settles O12: each answer goes to the oldest access outstanding, which leaves its list. -/
theorem tileAnswers : Obligations.TileAnswers := by
  intro s n l rest strand
  refine ⟨?_, ?_⟩
  · rintro oldest takes data corrected _ rfl
    rw [exec_nearReadData, nearReadBack_good strand oldest takes]
    rfl
  · rintro oldest _ rfl
    refine ⟨?_, ?_, ?_⟩
    · rw [exec_nearWriteAck, if_neg Bool.false_ne_true, nearWrDone_lands strand _ oldest]
    · rw [exec_nearWriteAck, if_pos rfl, nearWrDone_fails strand _ oldest]
    · rw [exec_nearAckMissing, nearWrDone_fails strand _ oldest]

end Sys2Proof.Machine
end

section
/-! SUPPORT. The additions that have reached a tally: which of them apply, what they make of its value and releases, and what
waits in a station's wake queue (R231, R248 to R255, R376). -/
namespace Sys2Proof.Machine

/-! ## The additions of a tally that wait behind none (R13, R248) -/

/-- An addition waits behind none when each earlier one of its source to another tally is for another unit. -/
theorem addBehind_eq_false {seen : List Add} {a : Add} (free : ∀ e ∈ seen, e.tally ≠ a.tally →
    sameSrc e.src a.src = true → talStn e.tally ≠ talStn a.tally) : addBehind seen a = false := by
  simpa [addBehind] using free

theorem addBehind_of_mem {seen : List Add} {e a : Add} (he : e ∈ seen) (other : e.tally ≠ a.tally)
    (source : sameSrc e.src a.src = true) (unit : talStn e.tally = talStn a.tally) : addBehind seen a = true :=
  List.any_eq_true.2 ⟨e, he, by simp [other, source, unit]⟩

section
variable (t : Nat) (adds : List Add)

theorem tally_of_mem_takeAdds (seen : List Add) {a : Add} (ha : a ∈ (takeAdds t seen adds).1) : a.tally = t := by
  induction adds generalizing seen with
  | nil => cases ha
  | cons x r ih =>
    by_cases takes : (x.tally = t && !addBehind seen x) = true
    · rw [takeAdds, if_pos takes] at ha
      obtain rfl | ha := List.mem_cons.1 ha
      · simp only [Bool.and_eq_true, decide_eq_true_eq] at takes
        exact takes.1
      · exact ih seen ha
    · rw [takeAdds, if_neg takes] at ha
      exact ih _ ha

/-- Each addition is taken or stays. -/
theorem length_takeAdds (seen : List Add) :
    (takeAdds t seen adds).1.length + (takeAdds t seen adds).2.length = adds.length := by
  induction adds generalizing seen with
  | nil => rfl
  | cons x r ih =>
    by_cases takes : (x.tally = t && !addBehind seen x) = true
    · have := ih seen
      simp only [takeAdds, if_pos takes, List.length_cons]
      omega
    · have := ih (seen ++ [x])
      simp only [takeAdds, if_neg takes, List.length_cons]
      omega

/-- When no addition waits behind another, all those to the tally are taken. -/
theorem takeAdds_free (seen : List Add) (free : ∀ a ∈ adds, ∀ e ∈ seen ++ adds, a.tally = t → e.tally ≠ t →
    sameSrc e.src a.src = true → talStn e.tally ≠ talStn t) :
    takeAdds t seen adds = (adds.filter (fun a => a.tally = t), adds.filter (fun a => a.tally ≠ t)) := by
  induction adds generalizing seen with
  | nil => rfl
  | cons x r ih =>
    by_cases own : x.tally = t
    · have first : addBehind seen x = false := addBehind_eq_false fun e he other source => by
        rw [own] at other ⊢
        exact free x (by simp) e (by simp [he]) own other source
      have later := ih seen fun a ha e he => free a (by simp [ha]) e (by
        rw [List.mem_append] at he ⊢
        exact he.imp_right (List.mem_cons_of_mem x))
      simp [takeAdds, own, first, later]
    · have later := ih (seen ++ [x]) fun a ha e he => free a (by simp [ha]) e (by simpa using he)
      simp [takeAdds, own, later]

/-- Behind an earlier addition to another tally of the same unit, of the source of all that follow, none is taken. -/
theorem takeAdds_behind {seen : List Add} {e : Add} (he : e ∈ seen) (other : e.tally ≠ t)
    (unit : talStn e.tally = talStn t) (source : ∀ a ∈ adds, sameSrc e.src a.src = true) :
    (takeAdds t seen adds).1 = [] := by
  induction adds generalizing seen with
  | nil => rfl
  | cons x r ih =>
    have stays : ¬ (x.tally = t && !addBehind seen x) = true := by
      rw [Bool.and_eq_true, decide_eq_true_eq]
      rintro ⟨rfl, ahead⟩
      simp [addBehind_of_mem he other (source x (by simp)) unit] at ahead
    rw [takeAdds, if_neg stays]
    exact ih (by simp [he]) fun a ha => source a (by simp [ha])
end

/-! ## What a tally holds once its additions have applied (R231, R248, R254, R255) -/

@[simp] theorem getTal_rcount (b : Block) (a d t : Nat) : getTal (rcount b a d) t = getTal b t := rfl

theorem releaseWaiter_tallies (b : Block) (t : Nat) (w : Waiter) : (releaseWaiter b t w).tallies = b.tallies :=
  (keep_releaseWaiter (keeps_agree 16908313 b) (by decide) (agree_refl _ b) t w).tallies rfl

/-- The test of a tally's waiters takes those that are met from its list, and leaves the rest of it (R250). -/
theorem getTal_testWaiters (b : Block) (t : Nat) : getTal (testWaiters b t) t =
    { getTal b t with waiters := (getTal b t).waiters.filter (fun w => !talMet (getTal b t).value.toNat w.thr) } := by
  unfold testWaiters getTal
  rw [forEach_keeps (·.tallies) _ _ fun b w => releaseWaiter_tallies b t w]
  exact tgetD_tput _ _ _ _

@[simp] theorem getTal_reqBarrier (b : Block) (n t : Nat) (sc : Scope) (x : Nat) :
    getTal (reqBarrier b n t sc) x = getTal b x := rfl

@[simp] theorem reqBarrier_nextId (b : Block) (n t : Nat) (sc : Scope) : (reqBarrier b n t sc).nextId = b.nextId := rfl

section
variable {b : Block} {t : Nat} {a : Add}

theorem addRel_settled (settled : relOf a b.nextId = none) : addRel b t a = (newId b).2 := by
  simp only [addRel, newId, settled]

/-- A release that is not settled from the start enters the tally, and asks for a barrier when its scope is wider. -/
theorem addRel_enters {r : Rel} (enters : relOf a b.nextId = some r) : addRel b t a =
    if scopeRank r.settled < scopeRank r.declared then
      reqBarrier (modTal (newId b).2 t (fun x => { x with rels := x.rels ++ [r] })) r.stn t r.declared
    else modTal (newId b).2 t (fun x => { x with rels := x.rels ++ [r] }) := by
  simp only [addRel, newId, enters]
end

theorem addRel_nextId (b : Block) (t : Nat) (a : Add) : (addRel b t a).nextId = b.nextId + 1 := by
  cases made : relOf a b.nextId with
  | none => rw [addRel_settled made]; rfl
  | some r =>
    rw [addRel_enters made]
    exact keep_ite (P := fun c => c.nextId = b.nextId + 1) rfl rfl

/-- An addition enters its release, under the next number, unless it is settled from the start. -/
theorem getTal_addRel (b : Block) (t : Nat) (a : Add) : getTal (addRel b t a) t =
    { getTal b t with rels := (getTal b t).rels ++ (relOf a b.nextId).toList } := by
  cases made : relOf a b.nextId with
  | none => simp [addRel_settled made, getTal, newId]
  | some r =>
    have entered := get_modTal (newId b).2 t (fun x => { x with rels := x.rels ++ [r] })
    rw [addRel_enters made]
    exact keep_ite (P := fun c => getTal c t = { getTal b t with rels := (getTal b t).rels ++ [r] })
      ((getTal_reqBarrier _ _ _ _ _).trans entered) entered

/-- The releases of additions, numbered in order from k. -/
def relsFrom (k : Nat) (l : List Add) : List Rel := (l.zipIdx).filterMap (fun e => relOf e.1 (k + e.2))

theorem relsFrom_cons (k : Nat) (a : Add) (l : List Add) :
    relsFrom k (a :: l) = (relOf a k).toList ++ relsFrom (k + 1) l := by
  have shift : (l.zipIdx (0 + 1)).filterMap (fun e => relOf e.1 (k + e.2)) = relsFrom (k + 1) l := by
    rw [List.zipIdx_succ, List.filterMap_map, relsFrom]
    congr 1
    funext e
    show relOf e.1 (k + (e.2 + 1)) = _
    rw [Nat.add_right_comm, Nat.add_assoc]
  rw [← shift, relsFrom, List.zipIdx_cons]
  cases h : relOf a k <;> simp [h]

theorem getTal_addRels (b : Block) (t : Nat) (l : List Add) : getTal (forEach l b (fun b a => addRel b t a)) t =
    { getTal b t with rels := (getTal b t).rels ++ relsFrom b.nextId l } := by
  induction l generalizing b with
  | nil => simp [forEach, relsFrom]
  | cons a l ih =>
    show getTal (forEach l (addRel b t a) _) t = _
    rw [ih, addRel_nextId, getTal_addRel, relsFrom_cons, List.append_assoc]

theorem applyAdds_poisoned {b : Block} {t : Nat} (l : List Add) (poison : (getTal b t).poison = true) :
    applyAdds b t l = b := by
  simp only [applyAdds, poison, if_true]

/-- A good tally takes the sum of its additions modulo 2^48 and their releases, and its waiters are tested then. -/
theorem getTal_applyAdds {b : Block} {t : Nat} (l : List Add) (good : (getTal b t).poison = false) :
    getTal (applyAdds b t l) t = { getTal b t with
      value := BitVec.ofNat 48 ((getTal b t).value.toNat + addSum l),
      rels := (getTal b t).rels ++ relsFrom b.nextId l,
      waiters := (getTal b t).waiters.filter (fun w =>
        !talMet (BitVec.ofNat 48 ((getTal b t).value.toNat + addSum l)).toNat w.thr) } := by
  unfold applyAdds
  extract_lets x sum summed entered recorded counted
  have value : getTal entered t = { x with
      value := BitVec.ofNat 48 (x.value.toNat + sum), rels := x.rels ++ relsFrom b.nextId l } := by
    rw [getTal_addRels, get_setTal]
    rfl
  have record : getTal recorded t = getTal entered t :=
    keep_ite (P := fun c => getTal c t = getTal entered t) (by rw [getTal_rcount, getTal_dataRec]) rfl
  have event : getTal counted t = getTal recorded t := by
    unfold counted
    cases talStn t with
    | none => exact getTal_count _ _ _ _ _ _
    | some n => rfl
  rw [if_neg (by simp [x, good]), getTal_testWaiters, event, record, value]
  rfl

/-! ## The wake queue (R251) -/

theorem getStn_reqThaw (b : Block) (n : Nat) : getStn (reqThaw b n) n =
    { getStn b n with wakeReq := (getStn b n).wakeReq || decide ((getStn b n).power ≠ .active) } := by
  unfold reqThaw
  dsimp only
  by_cases known : (getStn b n).power = .active ∨ (getStn b n).wakeReq = true
  · have stays : (getStn b n).wakeReq = ((getStn b n).wakeReq || decide ((getStn b n).power ≠ .active)) := by
      obtain active | asked := known
      · simp [active]
      · simp [asked]
    rw [if_pos known, ← stays]
  · rw [if_neg known, getStn_count, get_setStn]
    obtain ⟨asleep, -⟩ := not_or.1 known
    simp [asleep]

@[simp] theorem reqThaw_tallies (b : Block) (n : Nat) : (reqThaw b n).tallies = b.tallies :=
  (keep_reqThaw (keeps_agree 16777233 b) (by decide) (agree_refl _ b) n).tallies rfl

/-- The block with additions in a station's wake queue. -/
def wakeQueued (b : Block) (n t : Nat) (l : List Add) : Block :=
  modStn b n (fun st => { st with wakeQ := tput st.wakeQ t (tgetD st.wakeQ t [] ++ l) })

theorem wakeAdds_eq (b : Block) (n t : Nat) (l : List Add) : wakeAdds b n t l =
    if wakeMeets (getTal b t) (addSum (tgetD (getStn b n).wakeQ t [] ++ l)) then reqThaw (wakeQueued b n t l) n
    else wakeQueued b n t l := rfl

theorem wakeAdds_tallies (b : Block) (n t : Nat) (l : List Add) : (wakeAdds b n t l).tallies = b.tallies :=
  wakeAdds_eq b n t l ▸ keep_ite (P := fun c => c.tallies = b.tallies) (reqThaw_tallies _ n) rfl

theorem wakeAdds_wakeQ (b : Block) (n t : Nat) (l : List Add) :
    tget (getStn (wakeAdds b n t l) n).wakeQ t = some (tgetD (getStn b n).wakeQ t [] ++ l) := by
  have queued : tget (getStn (wakeQueued b n t l) n).wakeQ t = some (tgetD (getStn b n).wakeQ t [] ++ l) := by
    rw [wakeQueued, get_modStn, tget_tput]
  rw [wakeAdds_eq]
  refine keep_ite (P := fun c => tget (getStn c n).wakeQ t = _) ?_ queued
  rwa [getStn_reqThaw]

theorem wakeAdds_asks {b : Block} {n t : Nat} {l : List Add}
    (meets : wakeMeets (getTal b t) (addSum (tgetD (getStn b n).wakeQ t [] ++ l)) = true)
    (asleep : (getStn b n).power ≠ .active) : (getStn (wakeAdds b n t l) n).wakeReq = true := by
  rw [wakeAdds_eq, if_pos meets, getStn_reqThaw, wakeQueued, get_modStn]
  simp [asleep]

/-! ## Where the additions go (R248, R251, R376) -/

theorem exec_tallyAddition (t : Nat) (s : State) : exec (.tallyAddition t) s = .next (s.put (tallyAdd s.b t)) := rfl

section
variable {b : Block} {t : Nat} {l rest : List Add} (taken : takeAdds t [] b.adds = (l, rest)) (found : l ≠ [])
  (alive : isDead b = false)
include taken found alive

theorem tallyAdd_global (hub : talStn t = none) : tallyAdd b t =
    if hubOn b then sendAcks (applyAdds { b with adds := rest } t l) l
    else modPwr b (fun w => { w with hubGoingUp := true }) := by
  simp [tallyAdd, taken, found, alive, hub]

theorem tallyAdd_local {n : Nat} (station : talStn t = some n) : tallyAdd b t =
    if stnActive b n then sendAcks (applyAdds { b with adds := rest } t l) l
    else if wakeFull (getStn b n) t then reqThaw b n
    else sendAcks (wakeAdds { b with adds := rest } n t l) l := by
  simp [tallyAdd, taken, found, alive, station]
end

/-- Settles O14: which additions are taken, where they go by the power of their unit, and what they leave in the tally and in
the wake queue. -/
theorem tallyAdditions : Obligations.TallyAdditions := by
  refine ⟨?_, ?_, fun b t l => ⟨applyAdds_poisoned l, fun good => ?_⟩, fun b n t l =>
    ⟨wakeAdds_wakeQ b n t l, wakeAdds_tallies b n t l, wakeAdds_asks⟩⟩
  · intro t adds l rest taken
    obtain ⟨rfl, rfl⟩ := Prod.ext_iff.1 taken
    refine ⟨fun a => tally_of_mem_takeAdds t adds [], length_takeAdds t adds [], fun free => ?_, ?_⟩
    · rw [takeAdds_free t adds [] free]
      exact ⟨rfl, rfl⟩
    · rintro e r rfl other unit source
      rw [takeAdds, if_neg (by simp [other])]
      exact takeAdds_behind t r (by simp) other unit source
  · rintro s t l rest _ taken found alive rfl
    refine ⟨fun hub on => ?_, fun hub off => ?_, fun n station => ⟨fun active => ?_, fun sleeps room => ?_,
      fun sleeps full => ?_⟩⟩
    · rw [exec_tallyAddition, tallyAdd_global taken found alive hub, if_pos on]
    · rw [exec_tallyAddition, tallyAdd_global taken found alive hub, off, if_neg Bool.false_ne_true]
    · rw [exec_tallyAddition, tallyAdd_local taken found alive station, if_pos active]
    · rw [exec_tallyAddition, tallyAdd_local taken found alive station, sleeps, room, if_neg Bool.false_ne_true,
        if_neg Bool.false_ne_true]
    · rw [exec_tallyAddition, tallyAdd_local taken found alive station, sleeps, if_neg Bool.false_ne_true, if_pos full]
  · rw [getTal_applyAdds l good]
    exact ⟨BitVec.toNat_ofNat _ 48, rfl⟩

end Sys2Proof.Machine
end

section
/-! SUPPORT. Packets that terminate here: requests that a window or a station refuses, requests that a station takes, and
responses (R236, R287, R296 to R300). -/
namespace Sys2Proof.Machine

/-! ## Commands of a port that runs -/

section
variable {s : State} {p : Nat} (runs : linkOk s.b = true) (port : p < 5)
include runs port

theorem effect_port (f : Params → Block → Block) :
    effect (fun pr b => if linkOk b && p < 5 then f pr b else b) s = .next (s.put (f s.par s.b)) := by
  rw [effect_put, if_pos (by simp [runs, port])]

variable (bad : BitVec 10)

theorem exec_wr : exec (.wr p bad) s = .next (s.put (requestIn s.par s.b p 0 bad.toNat)) :=
  effect_port runs port fun pr b => requestIn pr b p 0 bad.toNat

theorem exec_rd : exec (.rd p bad) s = .next (s.put (requestIn s.par s.b p 1 bad.toNat)) :=
  effect_port runs port fun pr b => requestIn pr b p 1 bad.toNat

theorem exec_wack : exec (.wack p bad) s = .next (s.put (wackIn s.par s.b p bad.toNat)) :=
  effect_port runs port fun pr b => wackIn pr b p bad.toNat

theorem exec_rdata : exec (.rdata p bad) s = .next (s.put (rdataIn s.b p bad.toNat)) :=
  effect_port runs port fun _ b => rdataIn b p bad.toNat
end

theorem exec_rdTimeout {s : State} {n tag : Nat} (waits : (tget (getStn s.b n).wRdTags tag).isSome = true) :
    exec (.rdTimeout n tag) s = .next (s.put (winReadEnd s.b n tag 2 0 0 3)) := by
  show effect _ s = _
  rw [effect_put, if_pos waits]

/-! ## Requests (R236, R296) -/

/-- A request takes its place in its station's queue, in station order, and thaws the station. -/
def requestQueued (b : Block) (p : Nat) (k : Packet) (e : InPkt) : Block :=
  reqThaw (modStn b (winStn e.win) (fun st =>
    { st with inQ := st.inQ ++ [⟨p, k, e.win, st.nextOrd, e.pools⟩], nextOrd := st.nextOrd + 1 })) (winStn e.win)

section
variable {pr : Params} {b b' : Block} {p typ bad : Nat} {e : InPkt}

theorem requestIn_lost (taken : takeIn b p typ bad = some ((e, none), b')) :
    requestIn pr b p typ bad = badHeader (poolFree b' p e.pools) p := by
  simp only [requestIn, taken]

theorem requestIn_whole {k : Packet} (taken : takeIn b p typ bad = some ((e, some k), b')) :
    requestIn pr b p typ bad =
      if inOffside pr k e.win then linkRefuse (poolFree b' p e.pools) k 1
      else if inUnavail pr b' k e.win then linkRefuse (poolFree b' p e.pools) k 4
      else requestQueued b' p k e := by
  simp only [requestIn, taken, requestQueued]

/-! ## Responses (R298 to R300) -/

theorem wackIn_lost (taken : takeIn b p 2 bad = some ((e, none), b')) :
    wackIn pr b p bad = badHeader (poolFree b' p e.pools) p := by
  simp only [wackIn, taken]

theorem wackIn_whole {k : Packet} (taken : takeIn b p 2 bad = some ((e, some k), b')) : wackIn pr b p bad =
    if 1024 ≤ pktTag k then dropPkt (poolFree b' p e.pools)
    else winWriteEnd pr (poolFree b' p e.pools) (pktSstn k) (pktTag k) (pktResp k) 4 := by
  simp only [wackIn, taken]

theorem rdataIn_lost (taken : takeIn b p 3 bad = some ((e, none), b')) :
    rdataIn b p bad = badHeader (poolFree b' p e.pools) p := by
  simp only [rdataIn, taken]

theorem rdataIn_whole {k : Packet} (taken : takeIn b p 3 bad = some ((e, some k), b')) : rdataIn b p bad =
    if pktTag k < 1024 then dropPkt (poolFree b' p e.pools)
    else winReadEnd (laneTo (poolFree b' p e.pools) (pktSstn k) 128) (pktSstn k) (pktTag k - 1024) (pktResp k) k.data.toNat
      (pktPoison k) 4 := by
  simp only [rdataIn, taken]
end

/-- Settles O30: requests by what becomes of them at their window and station, responses by their tag. -/
theorem packetsTerminate : Obligations.PacketsTerminate := by
  intro s p runs port
  refine ⟨fun typ bad e b i kind => ?_, ?_, fun n tag => exec_rdTimeout⟩
  · have requests : exec i s = .next (s.put (requestIn s.par s.b p typ bad.toNat)) := by
      obtain ⟨rfl, rfl⟩ | ⟨rfl, rfl⟩ := kind
      · exact exec_wr runs port bad
      · exact exec_rd runs port bad
    refine ⟨fun lost => ?_, fun k taken => ⟨fun offside => ?_, fun admits unavail => ?_, fun admits serves => ?_⟩⟩
    · rw [requests, requestIn_lost lost]
    · rw [requests, requestIn_whole taken, if_pos offside]
    · rw [requests, requestIn_whole taken, admits, if_neg Bool.false_ne_true, if_pos unavail]
    · rw [requests, requestIn_whole taken, admits, serves, if_neg Bool.false_ne_true, if_neg Bool.false_ne_true]
      rfl
  · rintro bad e b _ rfl
    rw [exec_wack runs port bad, exec_rdata runs port bad]
    refine ⟨fun lost => ?_, fun lost => ?_, fun k => ⟨fun taken => ⟨fun own => ?_, fun other => ?_⟩,
      fun taken => ⟨fun own => ?_, fun other => ?_⟩⟩⟩
    · rw [wackIn_lost lost]
    · rw [rdataIn_lost lost]
    · rw [wackIn_whole taken, if_neg (Nat.not_le.2 own)]
    · rw [wackIn_whole taken, if_pos other]
    · rw [rdataIn_whole taken, if_neg (Nat.not_lt.2 own)]
      rfl
    · rw [rdataIn_whole taken, if_pos other]

end Sys2Proof.Machine
end

section
/-! SUPPORT. A tally beyond correction: what its page and the referee see of it, and what becomes of its waiters (R41, R255,
R257). -/
namespace Sys2Proof.Machine

/-! ## The counters of a tally page (R257) -/

/-- Four pages of link ports decode (R27). -/
theorem lport_lt_of_pageOf {a i : Nat} (h : pageOf a = some (.lport i)) : i < 4 := by
  unfold pageOf at h
  dsimp only at h
  generalize a / 0x1000 = q at h
  repeat' (refine ite_elim h ?_ ?_ <;> clear h <;> intro _ h)
  all_goals simp only [Option.some.injEq, Page.lport.injEq, reduceCtorEq] at h
  omega

/-- TAL_FAULT_COUNT resets to 0: where a register at 0x44 resets to another value, no tally has its page (R257). -/
theorem resetWord_talFaults (t : Nat) : resetWord (talPage t + 0x44) = 0 := by
  have aligned := talPage_aligned t
  have offset : (talPage t + 0x44) % 0x1000 = 0x44 := by omega
  have place : (talPage t + 0x44) / 0x1000 * 0x1000 = talPage t := by omega
  unfold resetWord
  rw [offset]
  cases page : pageOf (talPage t + 0x44) with
  | none => rfl
  | some pg =>
    have base : pageB pg = talPage t := (pageOf_base page).trans place
    unfold talPage gtalB ltalB stnB at base
    cases pg with
    | xlat | pwr | link =>
      simp only [pageB, xlatB, pwrB, linkB] at base
      split at base <;> omega
    | lport i =>
      have port := lport_lt_of_pageOf page
      simp only [pageB, lportB] at base
      split at base <;> omega
    | _ => rfl

/-- A counter that resets to 0 and is not full counts one more. -/
theorem rget_rcount_one {b : Block} {a : Nat} (zero : resetWord a = 0) (room : rget b a < 0xFFFFFFFF) :
    rget (rcount b a 1) a = rget b a + 1 := by
  have sum : satAdd 0xFFFFFFFF (rget b a) 1 = rget b a + 1 := by
    unfold satAdd
    omega
  rw [rcount, sum, rget_rset_of_ne_reset _ (by omega), Nat.mod_eq_of_lt (by omega)]

/-! ## The tally and its page (R41, R255) -/

@[simp] theorem rget_signalEv (b : Block) (src kind unit addr detail a : Nat) :
    rget (signalEv b src kind unit addr detail) a = rget b a := rfl

/-- The block with tally t marked as poisoned, before any of its waiters has stopped. -/
def markPoison (b : Block) (t : Nat) : Block :=
  rcount (signalEv (pageErr (setTal b t { getTal b t with waiters := [], poison := true }) (talPage t) 7 (talValAddr t) 0)
    ((talStn t).getD srcCfg) 0x46 noUnit (talValAddr t) (5 * 2 ^ 32)) (talPage t + 0x44) 1

theorem exec_tallyPoison {s : State} {t : Nat} (real : talExists s.par t = true) : exec (.tallyPoison t) s =
    .next (s.put (forEach (getTal s.b t).waiters (markPoison s.b t) poisonWaiter)) := by
  show effect _ s = _
  rw [effect_put, if_pos real]
  rfl

section
variable (b : Block) (t : Nat)

theorem getTal_markPoison : getTal (markPoison b t) t = { getTal b t with waiters := [], poison := true } := by
  rw [markPoison, getTal_rcount, getTal_signalEv, getTal_pageErr, get_setTal]

/-- The poison touches stored registers, tallies and the referee, and nothing else. -/
theorem markPoison_agree : Agree 0x200021 b (markPoison b t) :=
  have keeps := keeps_agree 0x200021 b
  have tally := keep_setTal keeps (by decide) (agree_refl _ b) t _
  keep_rcount keeps (by decide) (keep_signalEv keeps (by decide) (keep_pageErr keeps (by decide) tally _ _ _ _) _ _ _ _ _) _ _

/-- PARITY of the tally's page is set (R41). -/
theorem parity_markPoison : bit (rget (markPoison b t) (talPage t + 0x10)) 7 = true := by
  rw [markPoison, rcount, rget_rset_ne _ _ (by omega), rget_signalEv]
  exact bit_pageErr _ (talPage t) 7 (talValAddr t) 0 (talPage_aligned t) (by decide)

/-- TAL_FAULT_COUNT counts the poison event, up to its end (R257). -/
theorem faults_markPoison (room : rget b (talPage t + 0x44) < 0xFFFFFFFF) :
    rget (markPoison b t) (talPage t + 0x44) = rget b (talPage t + 0x44) + 1 := by
  have kept : ∀ c, rget (pageErr c (talPage t) 7 (talValAddr t) 0) (talPage t + 0x44) = rget c (talPage t + 0x44) :=
    fun c => rget_pageErr_ne c _ _ _ _ (.inr (by omega))
  rw [markPoison, rget_rcount_one (resetWord_talFaults t), rget_signalEv, kept, rget_setTal]
  rwa [rget_signalEv, kept, rget_setTal]
end

/-! ## The waiters (R255) -/

section
variable (b : Block) {w : Waiter}

theorem poisonWaiter_gop {i : Nat} (kind : w.kind = .gop i) : poisonWaiter b w = gopFail b i 5 := by
  simp only [poisonWaiter, kind]

theorem poisonWaiter_wait (kind : w.kind = .wait) : poisonWaiter b w = tick (reqThaw (stopAt b w.stn w.strand
    ((getStrand b w.stn w.strand).pc - 16) 0x15) w.stn) w.stn w.strand := by
  simp only [poisonWaiter, kind]

theorem poisonWaiter_guard {o : Op} (kind : w.kind = .gsrc ∨ w.kind = .gdst)
    (guards : guardOp (getStrand b w.stn w.strand) = some o) :
    poisonWaiter b w = tick (guardExpire b w.stn w.strand o) w.stn w.strand := by
  obtain kind | kind := kind <;> simp only [poisonWaiter, kind, guards]
end

/-- Settles O15: the tally and its page are poisoned first, then each waiter stops by its kind. -/
theorem tallyPoisoned : Obligations.TallyPoisoned := by
  refine ⟨fun s t real => ⟨markPoison s.b t, exec_tallyPoison real, getTal_markPoison s.b t, ?_⟩, fun b w =>
    ⟨fun i => poisonWaiter_gop b, poisonWaiter_wait b, fun o => poisonWaiter_guard b⟩⟩
  have frame := markPoison_agree s.b t
  exact ⟨frame.strands rfl, frame.stations rfl, frame.gops rfl, parity_markPoison s.b t, faults_markPoison s.b t⟩

end Sys2Proof.Machine
end

section
/-! SUPPORT. Range translation: walk requests, walks that end, fault batches, retries, forecasts and commits (R259 to R279). -/
namespace Sys2Proof.Machine

/-! ## Commands that the hub runs -/

section
variable {s : State} {p : Nat}

theorem exec_walkRequest (va : Nat) (works : hubWorks s.b = true) : exec (.walkRequest p va) s = .next (s.put (startWalkers
    (forEach ((partNeeds s.par s.b p).filter (fun x => x.va / 65536 = va / 65536)) s.b (fun b x => addNeed s.par b p x)))) := by
  show effect _ s = _
  rw [effect_put, works]
  rfl

theorem exec_walkDone (va : Nat) (group : List TabEntry) (err : Bool) (runs : walksRun s.b = true) :
    exec (.walkDone p va group err) s = .next (s.put (walkDone s.par s.b p va group err)) := by
  show effect _ s = _
  rw [effect_put, if_pos runs]

theorem exec_batchClose (works : hubWorks s.b = true) : exec (.batchClose p) s = .next (s.put (batchClose s.b p)) := by
  show effect _ s = _
  rw [effect_put, if_pos works]

theorem exec_batchLanded (err : Bool) (on : hubOn s.b = true) (hp : p < 16) :
    exec (.batchLanded p err) s = .next (s.put (batchLanded s.b p err)) := by
  show effect _ s = _
  rw [effect_put, if_pos ⟨on, hp⟩]

theorem exec_retryWalk (idx : Nat) (group : List TabEntry) (err : Bool) (runs : walksRun s.b = true) :
    exec (.retryWalk p idx group err) s = .next (s.put (retryWalk s.par s.b p idx group err)) := by
  show effect _ s = _
  rw [effect_put, if_pos runs]

theorem exec_forecastLanded (err : Bool) (on : hubOn s.b = true) (hp : p < 16) :
    exec (.forecastLanded p err) s = .next (s.put (fcLanded s.b p err)) := by
  show effect _ s = _
  rw [effect_put, if_pos ⟨on, hp⟩]

theorem exec_commitDrained (on : hubOn s.b = true) : exec (.commitDrained p) s = .next (s.put (commitDrained s.b p)) := by
  show effect _ s = _
  rw [effect_put, if_pos on]

section
variable (works : hubWorks s.b = true) (unfenced : pageFence s.b xlatB = false)
include works unfenced

theorem exec_commitStart (table : List TabEntry) (err : Bool) :
    exec (.commitStart p table err) s = .next (s.put (commitStart s.b p table err)) := by
  show effect _ s = _
  rw [effect_put, works, unfenced]
  rfl

theorem exec_commitSwitch : exec (.commitSwitch p) s = .next (s.put (commitSwitch s.b p)) := by
  show effect _ s = _
  rw [effect_put, works, unfenced]
  rfl
end
end

theorem hubOn_of_hubWorks {b : Block} (works : hubWorks b = true) : hubOn b = true := by
  simp only [hubWorks, Bool.and_eq_true] at works
  obtain ⟨⟨on, -⟩, -⟩ := works
  exact on

/-! ## Walk requests (R262, R263) -/

/-- A channel's need is the first request of an enabled partition where no walk waits or runs. -/
theorem addNeed_first (pr : Params) {b : Block} {p n c : Nat} {x : Need} (chan : x.req = .chan n c) (small : x.va < 2 ^ 57)
    (on : partOn b p = true) (empty : b.walks = []) : addNeed pr b p x =
      { b with walks := [⟨none, p, x.va, x.hi, x.write, x.cause, [x.req], false, false⟩] } := by
  have walked : ¬ (2 ^ 57 ≤ x.va ∨ (!partOn b p) = true) := by
    rw [on]
    rintro (h | h)
    · exact Nat.not_le.2 small h
    · cases h
  simp only [addNeed, chan]
  rw [if_neg walked, empty]
  rfl

/-! ## Walks that end (R261, R266, R268, R276) -/

/-- The entries that a walk has read: those of its group, and none where it reads no line. -/
def groupRead (addr : Option Nat) (group : List TabEntry) : Nat := if addr.isNone then 0 else group.length

section
variable (pr : Params) {b : Block} {p va : Nat} {w : Walk} {group : List TabEntry}
  (found : b.walks.find? (fun w => w.running && w.part = p && w.va / 65536 = va / 65536) = some w)
include found

theorem walkDone_stale (stale : w.stale = true) : walkDone pr b p va group false =
    startWalkers (walkEnd { b with walks := b.walks.filter (fun v => v ≠ w) } false
      (groupRead w.addr group)) := by
  simp only [walkDone, groupRead, found, stale, Bool.false_eq_true, if_true, if_false]

theorem walkDone_hit {l : List Xl} (live : w.stale = false) (hit : walkFind w.addr.isNone w.va w.hi group = .hit l) :
    walkDone pr b p va group false = startWalkers (forEach w.reqs
      (walkEnd { b with walks := b.walks.filter (fun v => v ≠ w) } false (groupRead w.addr group))
      (fun b r => giveHit pr b r l)) := by
  simp only [walkDone, groupRead, found, live, hit, Bool.false_eq_true, if_false]

theorem walkDone_miss {a : Bool} (live : w.stale = false) (miss : walkFind w.addr.isNone w.va w.hi group = .miss a) :
    walkDone pr b p va group false = startWalkers (missed (walkEnd { b with walks := b.walks.filter (fun v => v ≠ w) } true
      (groupRead w.addr group)) p w a) := by
  simp only [walkDone, groupRead, found, live, miss, Bool.false_eq_true, if_false]

/-- A walk whose read fails goes back to the queue, and its partition breaks. -/
theorem walkDone_fails {a : Nat} (read : w.addr = some a) : walkDone pr b p va group true =
    startWalkers (breakPart { b with walks := b.walks.map (fun v =>
      if v = w then { w with running := false, stale := false, addr := none } else v) } p a) := by
  simp only [walkDone, found, read, if_true]
end

/-! ## Batches and retries (R271, R272) -/

theorem batchLanded_good {b : Block} {p : Nat} {f : FRec} {mine : FRec → Bool}
    (oldest : (getPart b p).recs.find? (fun r => r.phase = .closed) = some f)
    (hmine : mine = (fun r => r.phase = .closed && r.batch = f.batch)) : batchLanded b p false =
      setCause (count (setPart b p { getPart b p with
        recs := (getPart b p).recs.map (fun r => if mine r then { r with phase := .written } else r)
        fqProd := ((getPart b p).fqProd + ((getPart b p).recs.filter mine).length) % 2 ^ 32 })
        .hub 0x06 ((getPart b p).recs.filter mine).length none) (1536 + p) 1 := by
  subst hmine
  simp only [batchLanded, oldest, Bool.false_eq_true, if_false]

section
variable (pr : Params) {b : Block} {p idx : Nat} {r : FRec} {group : List TabEntry}
  (noCommit : (getPart b p).cur = none) (noPend : (getPart b p).pend = none) (whole : (getPart b p).st ≠ .broken)
include noCommit noPend whole

/-- No commit, no pending one and no break holds the retry back. -/
theorem retry_free : ((getPart b p).cur.isSome || (getPart b p).pend.isSome || partBroken (getPart b p)) = false := by
  simp [partBroken, noCommit, noPend, whole]

variable (found : (getPart b p).recs.find? (fun f => f.phase = .retry && f.idx = idx) = some r) (on : partOn b p = true)
include found on

theorem retryWalk_hit {l : List Xl}
    (hit : walkFind (walkAddr (getPart b p) r.va).isNone r.va (r.va + 65535) group = .hit l) :
    retryWalk pr b p idx group false = forEach r.reqs
      (walkEnd (setPart b p { getPart b p with recs := (getPart b p).recs.filter (fun f => f ≠ r) }) false
        (groupRead (walkAddr (getPart b p) r.va) group)) (fun b y => giveHit pr b y l) := by
  simp only [retryWalk, groupRead, found, retry_free noCommit noPend whole, on, hit, Bool.not_true,
    Bool.false_eq_true, if_false]

/-- A granule that the table still lacks is offside for the requesters of its record (R266). -/
theorem retryWalk_miss {a : Bool}
    (miss : walkFind (walkAddr (getPart b p) r.va).isNone r.va (r.va + 65535) group = .miss a) :
    retryWalk pr b p idx group false = forEach r.reqs
      (walkEnd (setPart b p { getPart b p with recs := (getPart b p).recs.filter (fun f => f ≠ r) }) true
        (groupRead (walkAddr (getPart b p) r.va) group))
      (fun b y => giveOffside pr b y (some (r.va / 65536 * 65536))) := by
  simp only [retryWalk, groupRead, found, retry_free noCommit noPend whole, on, miss, Bool.not_true,
    Bool.false_eq_true, if_false]
end

/-! ## Forecasts (R274) -/

theorem getPart_fcLanded {b : Block} {p : Nat} {r : FcRec} {rest : List FcRec} (queue : (getPart b p).fcQ = r :: rest) :
    getPart (fcLanded b p false) p = { getPart b p with fcQ := rest, fcProd := (r.seq + 1) % 2 ^ 32 } := by
  simp only [fcLanded, queue, Bool.false_eq_true, if_false]
  split
  · rw [getPart_setCause, get_setPart]
  · rw [get_setPart]

/-- Settles O18: each command by what the hub finds, a walk that ends by its read, its staleness and its outcome. -/
theorem translationCommands : Obligations.TranslationCommands := by
  refine ⟨fun s p on => ⟨?_, ?_, exec_batchClose, ?_, ?_⟩, fun s p r rest on hp queue => ?_⟩
  · intro x n c works only chan small enabled idle
    rw [exec_walkRequest _ works, only, forEach, List.foldl_cons, addNeed_first _ chan small enabled idle]
    rfl
  · rintro w group va runs found _ _ rfl rfl
    refine ⟨fun stale => ?_, fun l live hit => ?_, fun a live miss => ?_, fun a read => ?_⟩
    · rw [exec_walkDone _ _ _ runs, walkDone_stale _ found stale]
      rfl
    · rw [exec_walkDone _ _ _ runs, walkDone_hit _ found live hit]
      rfl
    · rw [exec_walkDone _ _ _ runs, walkDone_miss _ found live miss]
      rfl
    · rw [exec_walkDone _ _ _ runs, walkDone_fails _ found read]
  · rintro hp f mine oldest hmine _ rfl _ rfl
    rw [exec_batchLanded _ on hp, batchLanded_good oldest hmine]
  · rintro r group l runs found noCommit noPend whole enabled _ _ _ rfl rfl rfl
    refine ⟨fun hit => ?_, fun a miss => ?_⟩
    · rw [exec_retryWalk _ _ _ runs, retryWalk_hit _ noCommit noPend whole found enabled hit]
      rfl
    · rw [exec_retryWalk _ _ _ runs, retryWalk_miss _ noCommit noPend whole found enabled miss]
      rfl
  · have landed := getPart_fcLanded queue
    refine ⟨_, exec_forecastLanded false on hp, ?_, ?_⟩
    · rw [put_b, landed]
    · rw [put_b, landed]

/-! ## Commits (R267, R268) -/

/-- A partition at the switch of its commit: the new table and index are in force, and the bursts of a list must drain. -/
def switchedPart (x : Part) (c : Commit) (drain : List (Nat × Nat)) : Part :=
  { x with table := some (c.tbase, c.tcount), keys := c.keys, gen := (x.gen + 1) % 65536
           st := .draining, cur := some { c with stage := 2, before := .ready }, drain := drain }

section
variable {b : Block} {p : Nat} {c : Commit} (cur : (getPart b p).cur = some c)
include cur

theorem commitStart_reads {table : List TabEntry} (waits : c.stage = 0) (bank : b.standby = none)
    (first : b.commitQ.head? = some p) (aligned : c.tbase % 512 = 0) (fits : c.tcount ≤ 65536)
    (whole : table.length = c.tcount) (good : tableErr 0 table = 0) : commitStart b p table false =
      modPart (count { b with standby := some p } .hub 0x0C (32 * c.tcount) none) p
        (fun x => { x with cur := some { c with stage := 1, keys := tableKeys table } }) := by
  simp [commitStart, cur, waits, bank, first, aligned, Nat.not_lt.2 fits, whole, good]

section
variable (built : c.stage = 1)
include built

theorem commitSwitch_plain (plain : c.revoke = false) : commitSwitch b p = startWalkers (commitDone
    { setPart b p (switchedPart (getPart b p) c []) with
      standby := none, commitQ := b.commitQ.filter (· ≠ p) } p) := by
  simp [commitSwitch, switchedPart, cur, built, plain, modPart]

theorem commitSwitch_revokes (revokes : c.revoke = true) {d : Block} (hd : d = markStale
    { setPart b p (switchedPart (getPart b p) c (staleBursts b p)) with
      standby := none, commitQ := b.commitQ.filter (· ≠ p) } p) : commitSwitch b p = startWalkers
    { d with walks := d.walks.map (fun w => if w.part = p && w.running then { w with stale := true } else w) } := by
  simp [commitSwitch, switchedPart, cur, built, revokes, modPart, hd]
end

theorem commitDrained_completes (switched : c.stage = 2) (served : (getPart b p).drain = []) :
    commitDrained b p = commitDone b p := by
  simp [commitDrained, cur, switched, served]
end

/-! ## What a commit leaves (R267, R277, R279) -/

section
variable {b : Block} {p : Nat}

theorem getPart_endCommit (alone : (getPart b p).pend = none) :
    getPart (endCommit b p) p = { getPart b p with cur := none, pend := none } := by
  have same (sb : Option Nat) (q : List Nat) : getPart { b with standby := sb, commitQ := q } p = getPart b p := rfl
  simp only [endCommit, same, alone, get_modPart]

/-- A commit that is done leaves its partition in the state that the switch set and a broken walk since may have changed. -/
theorem getPart_commitDone (alone : (getPart b p).pend = none) : getPart (commitDone b p) p =
    { getPart b p with
      st := ((getPart b p).cur.map (·.before)).getD .ready, cerr := 0, cur := none, pend := none } := by
  unfold commitDone
  cases cur : (getPart b p).cur <;>
    rw [getPart_setCause, getPart_endCommit (by rw [get_modPart]; exact alone), get_modPart] <;> rfl

/-- A cause that resets to 0 reads 1 once it is latched (R64). -/
theorem bit_setCause {vec m c k i : Nat} (hv : vecRegs vec = some (c, k)) (clear : bit (resetWord c) i = false) (hi : i < 32)
    (latched : m.testBit i = true) : bit (rget (setCause b vec m) c) i = true := by
  have set : bit (rget (rsetBits b c m) c) i = true :=
    bit_rset_of_reset_clear b clear hi (by rw [Nat.testBit_or, latched, Bool.or_true])
  unfold setCause irqAfter
  simp only [hv]
  split
  · rwa [irqPend_keeps (rget · c) (fun _ _ => rfl)]
  · exact set

variable (hp : p < 16)
include hp

theorem vecRegs_part : vecRegs (1536 + p) = some (xpR p 0x44, xpR p 0x48) := by
  unfold vecRegs
  rw [if_neg (by omega), if_pos (by omega), Nat.add_sub_cancel_left]

/-- COMMIT among a partition's causes resets to 0 (R279). -/
theorem xpCause_reset_commit : bit (resetWord (xpR p 0x44)) 2 = false := by
  have all : ∀ p < 16, bit (resetWord (xpR p 0x44)) 2 = false := by decide
  exact all p hp

theorem commitDone_latches : bit (rget (commitDone b p) (xpR p 0x44)) 2 = true :=
  bit_setCause (vecRegs_part hp) (xpCause_reset_commit hp) (by decide) (by decide)
end

/-- Settles O19: a commit stage by stage, then the partition that a commit leaves and the cause it latches. -/
theorem commits : Obligations.Commits := by
  refine ⟨fun s p c works free cur => ⟨?_, ?_, ?_, ?_⟩, fun b p hp alone => ?_⟩
  · intro table waits bank first aligned fits whole good
    rw [exec_commitStart works free, commitStart_reads cur waits bank first aligned fits whole good]
  · rintro _ built plain rfl
    rw [exec_commitSwitch works free, commitSwitch_plain cur built plain]
    rfl
  · rintro _ d built revokes rfl hd
    rw [exec_commitSwitch works free, commitSwitch_revokes cur built revokes hd]
  · intro switched served
    rw [exec_commitDrained (hubOn_of_hubWorks works), commitDrained_completes cur switched served]
  · have left := getPart_commitDone alone
    refine ⟨fun empty => ?_, fun c cur => ?_, ?_, ?_, commitDone_latches hp⟩
    · rw [left, empty]; rfl
    · rw [left, cur]; rfl
    · rw [left]
    · rw [left]

end Sys2Proof.Machine
end

section
/-! SUPPORT. Writes of partitions' registers, of a link port's PAGE_CTRL and of global-operation slots (R267, R272, R274, R278,
R301, R302, R308, R315). -/
namespace Sys2Proof.Machine

/-! ## What the units do with their registers -/

section
variable (p : Params) (b : Block) (q : Nat) (r : RegRow) (w : Nat) (med : Option Med)

/-- Two of the first sixteen registers of a partition act when they are written; the others store what is written (R279). -/
theorem regWrite_part {off : Nat} (low : off < 0x40) : regWrite p b .xlat (0x800 + 0x80 * q + off) r w med =
    (.ok (if off = 0 then xpCtrl p b q w else if off = 0x24 then fqResolve b q w
      else storeReg b .xlat (0x800 + 0x80 * q + off) r w), b) := by
  have row : ¬ 0x800 + 0x80 * q + off < 0x800 := by omega
  have place : 0x800 + 0x80 * q + off - 0x800 = 0x80 * q + off := by omega
  have inPart : (0x80 * q + off) % 0x80 = off := by omega
  have part : (0x80 * q + off) / 0x80 = q := by omega
  have cause : ¬ (0x800 + 0x80 * q + off) % 0x80 = 0x44 := by omega
  have mask : ¬ (0x800 + 0x80 * q + off) % 0x80 = 0x48 := by omega
  have counts : isCount .xlat (0x800 + 0x80 * q + off) = false := by
    simp only [isCount, Bool.or_eq_false_iff, Bool.and_eq_false_iff, decide_eq_false_iff_not]
    omega
  have cap : ¬ 0x800 + 0x80 * q + off = 0x44 := by omega
  simp only [regWrite, causeVec, maskVec, counts, row, place, inPart, part, cause, mask, cap, and_false, Bool.false_eq_true,
    if_false]
  split
  · rfl
  · split <;> rfl

theorem regWrite_xpCtrl : regWrite p b .xlat (0x800 + 0x80 * q) r w med = (.ok (xpCtrl p b q w), b) :=
  regWrite_part p b q r w med (off := 0) (by decide)

theorem regWrite_fqCons : regWrite p b .xlat (0x800 + 0x80 * q + 0x24) r w med = (.ok (fqResolve b q w), b) :=
  regWrite_part p b q r w med (off := 0x24) (by decide)

theorem regWrite_padvPost : regWrite p b (.part q) 0x4C r w med =
    (.ok (fcAdvise b q (rget64 b (partB q + 0x40)) (rget b (partB q + 0x48)) (bits w 2 0) true 0 0), b) := rfl

theorem regWrite_gopCtrl : regWrite p b .link (0x100 + 0x40 * q) r w med = gopCtrl p b q w := by
  have row : 0x100 ≤ 0x100 + 0x40 * q := by omega
  have place : 0x100 + 0x40 * q - 0x100 = 0x40 * q := by omega
  have drops : ¬ 0x100 + 0x40 * q = 0x50 := by omega
  have late : ¬ 0x100 + 0x40 * q = 0x58 := by omega
  simp [regWrite, causeVec, maskVec, isCount, row, place, drops, late]
end

/-! ## XP_CTRL (R267, R278) -/

/-- A commit is requested by a write that leaves ENABLE as it is. -/
theorem xpCtrl_commits (p : Params) {b : Block} {q w : Nat} (same : partOn b q = bit w 0) (commit : bit w 1 = true) :
    xpCtrl p b q w = commitReq (rset b (xpR q 0) (w &&& 1)) q (bit w 2) := by
  simp [xpCtrl, same, commit]

theorem xpCtrl_disables (p : Params) {b : Block} {q w : Nat} (was : partOn b q = true) (off : bit w 0 = false)
    (plain : bit w 1 = false) : xpCtrl p b q w = xlatOff p (rset b (xpR q 0) (w &&& 1)) q := by
  simp [xpCtrl, was, off, plain]

theorem bit_commit_plain (w : Nat) : bit (clearBits (w ||| 2) 4) 1 = true ∧ bit (clearBits (w ||| 2) 4) 2 = false := by
  have two : Nat.testBit 2 1 = true := by decide
  have four : Nat.testBit 4 1 = false ∧ Nat.testBit 4 2 = true := by decide
  simp [bit, clearBits, Nat.testBit_xor, Nat.testBit_and, Nat.testBit_or, two, four]

theorem bit_commit_revoking (w : Nat) : bit (w ||| 6) 1 = true ∧ bit (w ||| 6) 2 = true := by
  have six : Nat.testBit 6 1 = true ∧ Nat.testBit 6 2 = true := by decide
  simp [bit, Nat.testBit_or, six]

/-- ENABLE as XP_CTRL stores it. -/
theorem clear_enable_and_one (w : Nat) : clearBits w 1 &&& 1 = 0 := by
  have off := bit_clear_enable w
  rw [Nat.and_one_is_mod]
  simpa [bit] using off

/-! ## Writes of partitions that the port answers -/

section
variable {s : State} {p : Nat} {a : Attr} {r : RegRow} (hp : p < 16)
include hp

/-- A write of a partition's register on the XLAT page, whatever the command. -/
theorem xpWrite_takes {off v : Nat} {b' y : Block} (fits : v < 2 ^ 32) (small : off < 0x80) (aligned : off % 4 = 0)
    (h : takesWrite s.par s.b (wacc (xpR p off) v a) .xlat r = true)
    (e : regWrite s.par (counted s.b) .xlat (0x800 + 0x80 * p + off) r v none = (.ok b', y)) :
    writeIf (p < 16) (xpR p off) v a s = .next (s.put (wrote b' (xpR p off))) := by
  rw [writeIf_true (decide_eq_true hp)]
  exact takesWrite_effect h (by unfold xpR xlatB; omega) (by unfold xpR xlatB; omega) fits
    (by simp only [xpR, pageB]; omega) (by unfold xpR xlatB; omega) e

/-- A write of XP_CTRL, whatever its command. -/
theorem xpCtrl_takes {v : Nat} {b' : Block} (fits : v < 2 ^ 32)
    (h : takesWrite s.par s.b (wacc (xpR p 0) v a) .xlat r = true) (e : xpCtrl s.par (counted s.b) p v = b') :
    writeIf (p < 16) (xpR p 0) v a s = .next (s.put (wrote b' (xpR p 0))) :=
  xpWrite_takes hp fits (by decide) rfl h (e ▸ regWrite_xpCtrl s.par (counted s.b) p r v none)

theorem faultResolve_takes {w : Word} (h : takesWrite s.par s.b (wacc (xpR p 0x24) w.toNat a) .xlat r = true) :
    exec (.faultResolve p w a) s = .next (s.put (wrote (fqResolve (counted s.b) p w.toNat) (xpR p 0x24))) :=
  xpWrite_takes hp w.isLt (by decide) rfl h (regWrite_fqCons s.par (counted s.b) p r w.toNat none)

theorem commit_takes {w : Word} {v : Nat} (hv : v = clearBits (w.toNat ||| 2) 4)
    (h : takesWrite s.par s.b (wacc (xpR p 0) v a) .xlat r = true) (same : partOn (counted s.b) p = bit v 0) :
    exec (.commit p w a) s =
      .next (s.put (wrote (commitReq (rset (counted s.b) (xpR p 0) (v &&& 1)) p false) (xpR p 0))) := by
  subst hv
  obtain ⟨commit, plain⟩ := bit_commit_plain w.toNat
  refine xpCtrl_takes hp (clearBits_lt (Nat.or_lt_two_pow w.isLt (by decide)) (by decide)) h ?_
  rw [xpCtrl_commits _ same commit, plain]

theorem revokingCommit_takes {w : Word} {v : Nat} (hv : v = w.toNat ||| 6)
    (h : takesWrite s.par s.b (wacc (xpR p 0) v a) .xlat r = true) (same : partOn (counted s.b) p = bit v 0) :
    exec (.revokingCommit p w a) s =
      .next (s.put (wrote (commitReq (rset (counted s.b) (xpR p 0) (v &&& 1)) p true) (xpR p 0))) := by
  subst hv
  obtain ⟨commit, revokes⟩ := bit_commit_revoking w.toNat
  refine xpCtrl_takes hp (Nat.or_lt_two_pow w.isLt (by decide)) h ?_
  rw [xpCtrl_commits _ same commit, revokes]

theorem xlatDisable_takes {w : Word} {v : Nat} (hv : v = clearBits w.toNat 1)
    (h : takesWrite s.par s.b (wacc (xpR p 0) v a) .xlat r = true) (was : partOn (counted s.b) p = true)
    (plain : bit v 1 = false) : exec (.xlatDisable p w a) s =
      .next (s.put (wrote (xlatOff s.par (rset (counted s.b) (xpR p 0) 0) p) (xpR p 0))) := by
  subst hv
  refine xpCtrl_takes hp (clearBits_lt w.isLt (by decide)) h ?_
  rw [xpCtrl_disables _ was (bit_clear_enable _) plain, clear_enable_and_one]

theorem padvPost_takes {w : Word} (h : takesWrite s.par s.b (wacc (partB p + 0x4C) w.toNat a) (.part p) r = true) :
    exec (.padvPost p w a) s = .next (s.put (wrote (fcAdvise (counted s.b) p (rget64 (counted s.b) (partB p + 0x40))
      (rget (counted s.b) (partB p + 0x48)) (bits w.toNat 2 0) true 0 0) (partB p + 0x4C))) := by
  show writeIf (decide (p < 16)) _ _ _ s = _
  rw [writeIf_true (decide_eq_true hp)]
  exact takesWrite_effect h (by unfold partB; omega) (by unfold partB; omega) w.isLt rfl (by unfold partB; omega)
    (regWrite_padvPost _ _ _ _ _ _)
end

/-! ## ENABLE of a port (R301, R302, R315) -/

theorem baseOf_lport {p : Nat} (hp : p < 4) : baseOf (BitVec.ofNat 24 (lportB p)) = lportB p := by
  simp only [baseOf, lportB, BitVec.toNat_ofNat]
  omega

/-! The word that keeps FENCE of the old value c and sets ENABLE to v. -/
section
variable (c : Nat) {v : Nat} (hv : v ≤ 1)

theorem and_two_cases : c &&& 2 = 0 ∨ c &&& 2 = 2 := by
  have bound : c &&& 2 ≤ 2 := Nat.and_le_right
  have even : (c &&& 2) % 2 = 0 := by
    rw [← Nat.and_one_is_mod, Nat.and_assoc]
    exact Nat.and_zero c
  omega

include hv

theorem enableWord_and_three : ((c &&& 2) ||| v) &&& 3 = (c &&& 2) + v := by
  obtain rfl | rfl := Nat.le_one_iff_eq_zero_or_eq_one.1 hv <;> obtain fence | fence := and_two_cases c <;> rw [fence] <;> rfl

theorem enableWord_lock : (c ||| ((c &&& 2) ||| v)) &&& 8 = c &&& 8 := by
  have low : ((c &&& 2) ||| v) &&& 8 = 0 := by
    obtain rfl | rfl := Nat.le_one_iff_eq_zero_or_eq_one.1 hv <;> obtain fence | fence := and_two_cases c <;> rw [fence] <;> rfl
  rw [Nat.and_or_distrib_right, low, Nat.or_zero]

theorem bit_enableWord : bit ((c &&& 2) ||| v) 0 = bit v 0 ∧ bit ((c &&& 2) ||| v) 1 = bit c 1 ∧
    bit ((c &&& 2) ||| v) 2 = false := by
  have two : Nat.testBit 2 0 = false ∧ Nat.testBit 2 1 = true ∧ Nat.testBit 2 2 = false := by decide
  have high (i : Nat) : Nat.testBit v (i + 1) = false := Nat.testBit_lt_two_pow (by
    have := Nat.one_lt_two_pow (Nat.succ_ne_zero i)
    omega)
  simp [bit, Nat.testBit_or, Nat.testBit_and, two, high]
end

/-- PAGE_CTRL after ENABLE has been written with v over the old value c: FENCE, SOFT_RESET and LOCK stay. -/
def turnedCtrl (c v : Nat) : Nat := (c &&& 2) + v + (c &&& 4) + (c &&& 8)

/-- A write of a port's PAGE_CTRL that changes ENABLE and neither FENCE nor SOFT_RESET is stored, and ENABLE acts. -/
theorem ctrlWrite_lport (pr : Params) (b : Block) (p : Nat) {v : Nat} (hv : v ≤ 1)
    (turns : bit (rget b (lportB p + 8)) 0 ≠ bit v 0) :
    ctrlWrite pr b (.lport p) ((rget b (lportB p + 8) &&& 2) ||| v) =
      if bit v 0 then portOn pr (rset b (lportB p + 8) (turnedCtrl (rget b (lportB p + 8)) v)) p
      else portOffReq (rset b (lportB p + 8) (turnedCtrl (rget b (lportB p + 8)) v)) p := by
  obtain ⟨enable, fence, reset⟩ := bit_enableWord (rget b (lportB p + 8)) hv
  have changes : (bit v 0 != bit (rget b (lportB p + 8)) 0) = true := bne_iff_ne.2 turns.symm
  simp [ctrlWrite, turnedCtrl, pageUnitless, pageB, enableSide, enable, fence, reset, changes, enableWord_and_three _ hv,
    enableWord_lock _ hv]

section
variable {s : State} {p : Nat} {a : Attr} {r : RegRow} (hp : p < 4)
  (same : rget s.b (lportB p + 8) = rget (counted s.b) (lportB p + 8))
include hp same

/-- A write of a port's PAGE_CTRL that sets ENABLE to v and keeps FENCE. -/
theorem lportCtrl_takes {v : Nat} (hv : v ≤ 1)
    (h : takesCtrl s.par s.b (wacc (lportB p + 8) ((rget s.b (lportB p + 8) &&& 2) ||| v) a) (.lport p) r = true) :
    ctrlCmd (lportB p) 2 v a s = .next (s.put (wrote (ctrlWrite s.par (counted s.b) (.lport p)
      ((rget (counted s.b) (lportB p + 8) &&& 2) ||| v)) (lportB p + 8))) := by
  have takes := ctrlCmd_takes (s := s) (page := BitVec.ofNat 24 (lportB p)) (a := a) (pg := .lport p) (r := r) (m := 2) (v := v)
    (by decide) (by omega)
  rw [baseOf_lport hp] at takes
  rw [← same]
  exact takes h

theorem portEnable_takes
    (h : takesCtrl s.par s.b (wacc (lportB p + 8) ((rget s.b (lportB p + 8) &&& 2) ||| 1) a) (.lport p) r = true)
    (off : bit (rget s.b (lportB p + 8)) 0 = false) :
    exec (.portEnable p a) s = .next (s.put (wrote (portOn s.par (rset (counted s.b) (lportB p + 8)
      (turnedCtrl (rget s.b (lportB p + 8)) 1)) p)
      (lportB p + 8))) := by
  have write : exec (.portEnable p a) s = ctrlCmd (lportB p) 2 1 a s := by
    show effect _ s = effect _ s
    rw [effect_put, effect_put, if_pos hp]
  have set : bit 1 0 = true := by decide
  rw [write, lportCtrl_takes hp same (Nat.le_refl 1) h,
    ctrlWrite_lport _ _ _ (Nat.le_refl 1) (by rw [← same, off, set]; decide), if_pos set, ← same]

theorem portDisable_takes
    (h : takesCtrl s.par s.b (wacc (lportB p + 8) (rget s.b (lportB p + 8) &&& 2) a) (.lport p) r = true)
    (on : bit (rget s.b (lportB p + 8)) 0 = true) :
    exec (.portDisable p a) s = .next (s.put (wrote (portOffReq (rset (counted s.b) (lportB p + 8)
      (turnedCtrl (rget s.b (lportB p + 8)) 0)) p)
      (lportB p + 8))) := by
  have write : exec (.portDisable p a) s = ctrlCmd (lportB p) 2 0 a s := by
    show effect _ s = effect _ s
    rw [effect_put, effect_put, if_pos hp, Nat.or_zero]
  have clear : bit 0 0 = false := by decide
  rw [write, lportCtrl_takes hp same (Nat.zero_le 1) (by rwa [Nat.or_zero]),
    ctrlWrite_lport _ _ _ (Nat.zero_le 1) (by rw [← same, on, clear]; decide), clear, if_neg Bool.false_ne_true, ← same]
end

/-! ## EN of a global-operation slot (R308) -/

/-- A slot takes its control word where EN does not rise, or the tallies that it needs exist. -/
theorem gopCtrl_takes (p : Params) {b g : Block} {j w : Nat}
    (hg : g = rset b (gopR j 0) (mergeBits (rget b (gopR j 0)) w 0xE))
    (real : bit w 0 = false ∨ gopEn b j = true ∨ gopBadTally p g j = none) :
    gopCtrl p b j w = (.ok (gopSetEn p g j (bit w 0)), b) := by
  subst hg
  have good : (if bit w 0 && !gopEn b j then
      gopBadTally p (rset b (gopR j 0) (mergeBits (rget b (gopR j 0)) w 0xE)) j else none) = none := by
    obtain low | was | real := real
    · rw [low, Bool.false_and, if_neg Bool.false_ne_true]
    · rw [was, Bool.not_true, Bool.and_false, if_neg Bool.false_ne_true]
    · rw [real, ite_self]
  simp only [gopCtrl, good]

theorem gopEnable_takes {s : State} {j : Nat} {w : Word} {a : Attr} {r : RegRow} {g : Block} (hj : j < 8)
    (h : takesWrite s.par s.b (wacc (gopR j 0) w.toNat a) .link r = true)
    (hg : g = rset (counted s.b) (gopR j 0) (mergeBits (rget (counted s.b) (gopR j 0)) w.toNat 0xE))
    (real : bit w.toNat 0 = false ∨ gopEn (counted s.b) j = true ∨ gopBadTally s.par g j = none) :
    exec (.gopEnable j w a) s = .next (s.put (wrote (gopSetEn s.par g j (bit w.toNat 0)) (gopR j 0))) := by
  show writeIf (decide (j < 8)) _ _ _ s = _
  rw [writeIf_true (decide_eq_true hj)]
  refine takesWrite_effect (off := 0x100 + 0x40 * j) h (by unfold gopR linkB; omega) (by unfold gopR linkB; omega) w.isLt
    (by simp only [gopR, pageB]; omega) (by unfold gopR linkB; omega) ?_ (y := counted s.b)
  rw [regWrite_gopCtrl, gopCtrl_takes _ hg real]

/-- Settles O22: each write by its register's unit. -/
theorem partitionAndLinkWrites : Obligations.PartitionAndLinkWrites := by
  refine ⟨?_, ?_⟩
  · rintro s p w a r _ hp rfl
    exact ⟨faultResolve_takes hp, fun v hv => commit_takes hp hv, fun v hv => revokingCommit_takes hp hv,
      fun v hv => xlatDisable_takes hp hv, padvPost_takes hp⟩
  · rintro s p a r _ c rfl rfl same
    exact ⟨fun hp h off => ⟨turnedCtrl _ 1, rfl, portEnable_takes hp same h off⟩,
      fun hp h on => ⟨turnedCtrl _ 0, rfl, portDisable_takes hp same h on⟩,
      fun j w g hj h hg real => gopEnable_takes hj h hg real⟩

end Sys2Proof.Machine
end

section
/-! SUPPORT. Link ports, their flits and the slots of global operations (R281 to R286, R301 to R313). -/
namespace Sys2Proof.Machine

/-! ## Commands by their condition -/

/-- A command that leaves the block leaves the state. -/
theorem effect_same {s : State} {f : Params → Block → Block} (same : f s.par s.b = s.b) : effect f s = .next s := by
  rw [effect_put, same]
  rfl

section
variable {s : State} {c : Params → Block → Bool} {f : Params → Block → Block}

/-- A command has its effect where its condition holds. -/
theorem effect_when (holds : c s.par s.b = true) :
    effect (fun p b => if c p b then f p b else b) s = .next (s.put (f s.par s.b)) := by
  rw [effect_put, if_pos holds]

/-- A command whose condition does not hold changes nothing. -/
theorem effect_held (fails : c s.par s.b = false) : effect (fun p b => if c p b then f p b else b) s = .next s :=
  effect_same (if_neg (by rw [fails]; exact Bool.false_ne_true))
end

section
variable {s : State} {p : Nat} (runs : linkOk s.b = true) (port : p < 4)
include runs port

theorem exec_portDrained : exec (.portDrained p) s = .next (s.put (portDrained s.b p)) :=
  effect_when (by simp [runs, port])

theorem exec_linkUp (trains : (getPort s.b p).st = .train) :
    exec (.linkUp p) s = .next (s.put (portSync s.b p (getPort s.b p).outQ)) :=
  effect_when (by simp [runs, port, trains])

theorem exec_linkDown (linked : portTraining (getPort s.b p).st = true ∨ (getPort s.b p).st = .up) :
    exec (.linkDown p) s = .next (s.put (portLeave s.b p .down 2 5)) :=
  effect_when (by simp [runs, port, linked])

theorem exec_trainTimeout (trains : portTraining (getPort s.b p).st = true) :
    exec (.trainTimeout p) s = .next (s.put (portLeave s.b p .down 2 3)) :=
  effect_when (by simp [runs, port, trains])

theorem exec_hello (h0 : DWord) : exec (.hello p h0) s = .next (s.put (helloIn s.b p h0.toNat)) :=
  effect_when (by simp [runs, port])

theorem exec_stop : exec (.stop p) s = .next (s.put (stopIn s.b p)) :=
  effect_when (by simp [runs, port])

theorem exec_flitReceive (raw : SLine) (marked lone : Bool) : exec (.flitReceive p raw marked lone) s =
    .next (s.put (if lone then rcount s.b (lportB p + 0x48) 1 else flitIn s.par s.b p raw.toNat marked)) := by
  show effect _ s = _
  rw [effect_put, if_neg (by simp [runs, port])]

theorem exec_replayTimeout (linked : portLinked (getPort s.b p) = true) : exec (.replayTimeout p) s =
    .next (s.put (resend (modPort s.b p (fun pt => { pt with nakSent := false })) p)) := by
  unfold portLinked at linked
  exact effect_when (by simp only [runs, port, linked, decide_true, Bool.and_self])

variable (linked : portLinked (getPort s.b p) = true) (h0 h1 : DWord)
include linked

theorem exec_gup : exec (.gup p h0 h1) s = .next (s.put (gupIn s.par s.b p h0)) :=
  effect_when (by simp [runs, port, linked])

theorem exec_gdown : exec (.gdown p h0 h1) s = .next (s.put (gdownIn s.par s.b p h0 h1)) :=
  effect_when (by simp [runs, port, linked])
end

section
variable {s : State} {p : Nat} (port : p < 4) (linked : portLinked (getPort s.b p) = true)
include port linked

/-- What an output port sends, by whether the chip is in dead ball (R286, R304). -/
theorem exec_packetForward (on : hubOn s.b = true) (bad : BitVec 10) : exec (.packetForward p bad) s = .next (s.put (
    if isDead s.b then deadSend s.b p else if linkOk s.b then portSend s.b p bad.toNat else s.b)) := by
  unfold portLinked at linked
  show effect _ s = _
  rw [effect_put, if_neg (by simp [on, port, linked])]
end

section
variable {s : State} {j : Nat} (runs : linkOk s.b = true) (slot : j < 8)
include runs slot

theorem exec_gopArrive : exec (.gopArrive j) s = .next (s.put (gopArrive s.par s.b j)) :=
  effect_when (by simp [runs, slot])

theorem exec_broadcastReadDone (v : DWord) (err : Bool) : exec (.broadcastReadDone j v err) s =
    .next (s.put (gopRun s.par (castRead s.b j v err) j)) :=
  effect_when (by simp [runs, slot])

theorem exec_gopResetSettled (acted : (getGop s.b j).acted = true)
    (settled : (List.range 4).all (fun i => !portTraining (getPort s.b i).st) = true) : exec (.gopResetSettled j) s =
    .next (s.put (gopRun s.par (modGop s.b j (fun g => { g with settled := true })) j)) :=
  effect_when (by simp only [runs, slot, acted, settled, decide_true, Bool.and_self])

theorem exec_gopTimeout (arrived : (getGop s.b j).st = .gather ∨ (getGop s.b j).st = .release) :
    exec (.gopTimeout j) s = .next (s.put (gopFail s.b j 3)) :=
  effect_when (by simp [runs, slot, arrived])
end

/-- A link engine that works is powered and not in dead ball (R304). -/
theorem linkOk_spec {b : Block} (runs : linkOk b = true) : hubOn b = true ∧ isDead b = false := by
  simp only [linkOk, hubWorks, Bool.and_eq_true, Bool.not_eq_true'] at runs
  exact ⟨runs.1.1.1, runs.1.1.2⟩

theorem portTraining_iff (st : PortSt) : portTraining st = true ↔ st = .train ∨ st = .sync := by
  simp [portTraining]

theorem portLinked_iff (pt : Port) : portLinked pt = true ↔ pt.st = .up ∨ pt.st = .sync := by
  simp [portLinked]

/-! ## Port states (R301 to R304) -/

section
variable {b : Block} {p : Nat}

theorem portDrained_empty (up : (getPort b p).st = .up) (closing : (getPort b p).closing = true)
    (acked : (getPort b p).replay = []) (sent : (getPort b p).outQ = []) : portDrained b p =
      setPort b p { freshPort (getPort b p) .off [] with inQ := (getPort b p).inQ, retCred := (getPort b p).retCred } := by
  simp [portDrained, up, closing, acked, sent]

/-- A HELLO in SYNC names the partner, and the port goes UP or to MISMATCH by it. -/
theorem helloIn_sync (h : Nat) (sync : (getPort b p).st = .sync) {y : Block}
    (named : y = setPort b p { getPort b p with peerChip := bits h 15 6, peerPort := bits h 27 26 }) :
    helloIn b p h = if helloOk y p h then setCause (modPort y p (fun pt => { pt with st := .up })) (1552 + p) 1
      else portLeave y p .mismatch 8 5 := by
  subst named
  simp [helloIn, sync, lpUp, lpMismatch]

theorem stopIn_up (up : (getPort b p).st = .up) : stopIn b p = portLeave b p .stopped 4 5 := by
  rw [stopIn, if_pos up, lpStop]
end

/-- Settles O28: each event by its own command, then HELLO by whether it is valid. -/
theorem portStatesMove : Obligations.PortStatesMove := by
  rintro s p _ runs port rfl
  refine ⟨fun up closing acked sent => ?_, ?_, fun linked => ?_, fun trains => ?_, ?_, fun up => ?_⟩
  · rw [exec_portDrained runs port, portDrained_empty up closing acked sent]
  · rintro trains _ rfl
    rw [exec_linkUp runs port trains]
    rfl
  · rw [exec_linkDown runs port (by rwa [portTraining_iff, or_assoc])]
  · rw [exec_trainTimeout runs port ((portTraining_iff _).2 trains)]
  · intro h0 sync b named
    rw [exec_hello runs port, helloIn_sync _ sync named]
    exact ⟨fun valid => by rw [if_pos valid], fun invalid => by rw [invalid, if_neg Bool.false_ne_true]⟩
  · rw [exec_stop runs port, stopIn_up up]

/-! ## Flits (R284 to R286) -/

section
variable (pr : Params) {b : Block} {p w : Nat} {marked : Bool} (linked : portLinked (getPort b p) = true)
include linked

/-- What becomes of a flit at a port that takes flits. -/
theorem flitIn_linked : flitIn pr b p w marked =
    if marked || bits w 2047 1984 ≠ flitCrc w || lcwBad w then flitBad b p
    else if lcwVc w = 7 then takeLcw b p w
    else if lcwSeq w ≠ (getPort b p).rxNext then flitBad b p
    else bodyIn pr (takeLcw (setPort b p { getPort b p with rxNext := (getPort b p).rxNext + 1, nak := false, nakSent := false })
      p w) p w := by
  have takes : ¬ ((getPort b p).st ≠ .up ∧ (getPort b p).st ≠ .sync) := fun ⟨notUp, notSync⟩ =>
    ((portLinked_iff _).1 linked).elim notUp notSync
  rw [flitIn, if_neg takes]

/-- A flit whose contents stand gives its control word, and its units where it has any and its sequence number is the one
expected. -/
theorem flitIn_sound (unmarked : marked = false) (crc : bits w 2047 1984 = flitCrc w) (fields : lcwBad w = false) :
    flitIn pr b p w marked = if lcwVc w = 7 then takeLcw b p w
      else if lcwSeq w ≠ (getPort b p).rxNext then flitBad b p
      else bodyIn pr (takeLcw (setPort b p { getPort b p with
        rxNext := (getPort b p).rxNext + 1, nak := false, nakSent := false }) p w) p w := by
  rw [flitIn_linked pr linked, if_neg (by simp [unmarked, crc, fields])]

theorem flitIn_discarded (void : marked = true ∨ bits w 2047 1984 ≠ flitCrc w ∨ lcwBad w = true ∨
    (lcwVc w ≠ 7 ∧ lcwSeq w ≠ (getPort b p).rxNext)) : flitIn pr b p w marked = flitBad b p := by
  rw [flitIn_linked pr linked]
  split
  · rfl
  next sound =>
    have unexpected : lcwVc w ≠ 7 ∧ lcwSeq w ≠ (getPort b p).rxNext := by
      obtain bad | bad | bad | unexpected := void
      · simp [bad] at sound
      · simp [bad] at sound
      · simp [bad] at sound
      · exact unexpected
    rw [if_neg unexpected.1, if_pos unexpected.2]
end

/-! ## Acknowledgements (R286) -/

section
variable {pt : Port} {ack : BitVec 16} {d n : Nat} (covers : d = (ack - pt.txAcked).toNat)
  (out : n = (pt.txNext - 1 - pt.txAcked).toNat)
include covers out

/-- An ACK that acknowledges nothing new, or what has not been sent, changes nothing. -/
theorem takeAck_stale (stale : d = 0 ∨ n < d) : takeAck pt ack = pt := by
  subst covers out
  exact if_pos stale

/-- An ACK of flits that are out frees those up to its own. -/
theorem takeAck_advances (fresh : ¬ (d = 0 ∨ n < d)) : takeAck pt ack = { pt with
    txAcked := ack, resends := 0, replay := pt.replay.filter (fun f => decide (d < (f.seq - pt.txAcked).toNat)),
    replayed := pt.replayed - (pt.replay.filter (fun f => decide ((f.seq - pt.txAcked).toNat ≤ d))).length } := by
  subst covers out
  exact if_neg fresh

theorem takeAck_replay : (takeAck pt ack).replay = if d = 0 ∨ n < d then pt.replay
    else pt.replay.filter (fun f => decide (d < (f.seq - pt.txAcked).toNat)) := by
  split
  next stale => rw [takeAck_stale covers out stale]
  next fresh => rw [takeAck_advances covers out fresh]

theorem takeAck_keeps : (takeAck pt ack).txNext = pt.txNext ∧ (takeAck pt ack).outQ = pt.outQ ∧
    (takeAck pt ack).credits = pt.credits := by
  by_cases stale : d = 0 ∨ n < d
  · rw [takeAck_stale covers out stale]
    exact ⟨rfl, rfl, rfl⟩
  · rw [takeAck_advances covers out stale]
    exact ⟨rfl, rfl, rfl⟩
end

/-- Settles O29: a flit by whether it is there, sound and expected, a port's turn by dead ball, an ACK by what it covers. -/
theorem flitsMove : Obligations.FlitsMove := by
  refine ⟨?_, ?_⟩
  · rintro s p _ port rfl
    refine ⟨?_, fun runs takes => exec_replayTimeout runs port ((portLinked_iff _).2 takes), fun bad takes => ?_⟩
    · rintro raw m _ rfl runs
      refine ⟨exec_flitReceive runs port raw m true, fun takes => ?_⟩
      have linked : portLinked (getPort s.b p) = true := (portLinked_iff _).2 takes
      have arrives : exec (.flitReceive p raw m false) s = .next (s.put (flitIn s.par s.b p raw.toNat m)) :=
        exec_flitReceive runs port raw m false
      rw [arrives]
      refine ⟨fun unmarked crc fields units expected => ?_, fun unmarked crc fields idle => ?_, fun void => ?_⟩
      · rw [flitIn_sound _ linked unmarked crc fields, if_neg units, if_neg fun other => other expected]
      · rw [flitIn_sound _ linked unmarked crc fields, if_pos idle]
      · rw [flitIn_discarded _ linked void, flitBad]
    · have turn := fun on => exec_packetForward port ((portLinked_iff _).2 takes) on bad
      refine ⟨fun runs => ?_, fun on dead => ?_⟩
      · obtain ⟨on, alive⟩ := linkOk_spec runs
        rw [turn on, alive, if_neg Bool.false_ne_true, if_pos runs]
      · rw [turn on, if_pos dead]
  · intro pt ack d n covers out
    refine ⟨takeAck_replay covers out, fun new sent => ?_, takeAck_keeps covers out⟩
    rw [takeAck_advances covers out (by omega)]
    exact ⟨rfl, rfl⟩

/-! ## Slots of global operations (R306 to R313) -/

section
variable (pr : Params) {b : Block} {j : Nat}

section
variable (port : Nat) {h0 : DWord} (names : swSlot h0.toNat = j)
  (counts : (getGop b j).st ≠ .failed ∨ swFail h0.toNat = false)
include names counts

/-- A GUP is recorded unless it is a FAIL for a slot that has failed. -/
theorem gupIn_records : gupIn pr b port h0 =
    gopRun pr (setGop b j { getGop b j with ups := (getGop b j).ups ++ [(port, h0)] }) j := by
  subst names
  refine if_neg fun ⟨failed, fail⟩ => ?_
  obtain lives | succeeds := counts
  · exact lives failed
  · exact absurd fail (by simp [succeeds])

/-- A GDOWN is recorded unless it is such a FAIL or a later copy of a reset's. -/
theorem gdownIn_records {h1 : DWord} (first : (getGop b j).acted = false ∨ swKind h0.toNat ≠ 3 ∨
    swResume h1.toNat = true ∨ swFail h0.toNat = true) : gdownIn pr b port h0 h1 =
    gopRun pr (setGop b j { getGop b j with downs := (getGop b j).downs ++ [(port, h0, h1)] }) j := by
  subst names
  refine if_neg ?_
  rintro (⟨failed, fail⟩ | ⟨acted, kind, again, succeeds⟩)
  · obtain lives | good := counts
    · exact lives failed
    · exact absurd fail (by simp [good])
  · obtain fresh | other | resume | fail := first
    · exact absurd acted (by simp [fresh])
    · exact other kind
    · exact absurd again (by simp [resume])
    · exact absurd succeeds (by simp [fail])
end

theorem gopArrive_settled {a : Acq} (acquires : (getGop b j).acq = .acquiring a) (armed : (getGop b j).st = .armed)
    (settled : acqSettled b a = true) : gopArrive pr b j = gopRun pr (modGop b j (fun g =>
      { g with st := .gather, acq := .done, reading := gopKind b j = 1 })) j := by
  simp only [gopArrive, acquires, armed, settled, decide_true, Bool.and_self, if_true]

theorem castRead_value (v : DWord) (reads : (getGop b j).reading = true) : castRead b j v false = toChildren
    (count (setGop b j { getGop b j with reading := false, value := v }) .hub 0x0C 8 none) j (myChip b)
    (mkSweep 9 j 1 (gopPar (getGop b j)) false (myChip b) v.toNat) (fun b => gopComplete b j) := by
  simp only [castRead, reads, Bool.not_true, Bool.false_eq_true, if_false]

theorem castRead_error (v : DWord) (reads : (getGop b j).reading = true) : castRead b j v true = gopFail b j 0 := by
  simp only [castRead, reads, Bool.not_true, Bool.false_eq_true, if_false, if_true]
end

/-- Settles O31: packets by what they record, then each event by its slot's state. -/
theorem globalOperationsMove : Obligations.GlobalOperationsMove := by
  rintro s j _ runs slot rfl
  refine ⟨?_, fun a acquires armed settled => ?_, fun v reads => ⟨?_, ?_⟩, fun acted quiet => ?_, exec_gopTimeout runs slot⟩
  · intro p h0 h1 port takes names counts
    have linked : portLinked (getPort s.b p) = true := (portLinked_iff _).2 takes
    refine ⟨?_, fun first => ?_⟩
    · rw [exec_gup runs port linked, gupIn_records _ _ names counts]
    · rw [exec_gdown runs port linked, gdownIn_records _ _ names counts first]
  · rw [exec_gopArrive runs slot, gopArrive_settled _ acquires armed settled]
  · rw [exec_broadcastReadDone runs slot, castRead_value v reads]
  · rw [exec_broadcastReadDone runs slot, castRead_error v reads]
  · refine exec_gopResetSettled runs slot acted (List.all_eq_true.2 fun i used => ?_)
    obtain ⟨trains, syncs⟩ := quiet i (List.mem_range.1 used)
    simp [portTraining, trains, syncs]

end Sys2Proof.Machine
end

section
/-! SUPPORT. What dead ball holds (R304, R342, R359). -/
namespace Sys2Proof.Machine

/-! ## Units in dead ball -/

section
variable {b : Block} (dead : isDead b = true)
include dead

theorem stnRuns_dead (n : Nat) : stnRuns b n = false := by simp [stnRuns, dead]

theorem hubWorks_dead : hubWorks b = false := by simp [hubWorks, dead]

theorem linkOk_dead : linkOk b = false := by simp [linkOk, hubWorks_dead dead]

theorem walksRun_dead : walksRun b = false := by simp [walksRun, hubWorks_dead dead]

theorem vaultRuns_dead : vaultRuns b = false := by simp [vaultRuns, dead]

theorem vaultReady_dead : vaultReady b = false := by simp [vaultReady, vaultRuns_dead dead]

theorem tallyAdd_dead (t : Nat) : tallyAdd b t = b := if_pos (.inr dead)

theorem lullEntry_dead (n : Nat) : lullEntry b n = b := by simp [lullEntry, dead]

theorem offEntry_dead (n : Nat) : offEntry b n = b := by simp [offEntry, dead]

theorem thaw_dead (n : Nat) : thaw b n = b := by simp [thaw, dead]

theorem opChange_dead (p : Params) (g : Nat) : opChange p b g = b := by simp [opChange, dead]

theorem railGood_dead (g : Nat) : railGood b g = b := by
  unfold railGood
  split
  · rfl
  · exact if_pos dead

theorem capRaise_dead (g : Nat) : capRaise b g = b := by simp [capRaise, dead]
end

/-- A mover's instruction of a station that does not run changes nothing. -/
theorem moverRow_held {s : State} {n : Nat} (op : Nat) (f : Params → Block → MUnit → Took × Block)
    (stands : stnRuns s.b n = false) : moverRow n op f s = .next s :=
  effect_same (by simp [runUnit, stands])

/-- Settles O56: every command that is held asks whether its unit works, and in dead ball no unit does. -/
theorem deadBallHolds : Obligations.DeadBallHolds := by
  intro c s dead held
  have link : linkOk s.b = false := linkOk_dead dead
  have hub : hubWorks s.b = false := hubWorks_dead dead
  have vault : vaultReady s.b = false := vaultReady_dead dead
  cases c with
  | nop n | halt n | jump n | loop n | endl n | move n | moveb n | fill n | copy n | setx n | wait n | signal n | fence n
  | tload n | stat n | advise n => exact moverRow_held _ _ (stnRuns_dead dead n)
  | hazardGrant n k | codecBind n k | resourceGrant n k | readBurstIssue n | writeBurstIssue n _ _ | blockDecode n k
  | blockEncode n k | tloadMarkLoading n k | tloadTableBuilt n k | statRecord n k | signalFire n k =>
    exact effect_held (stnRuns_dead dead n)
  | entryDispatch n c => exact effect_same (by simp [hub])
  | entryComplete n k | landingBarrier n | barrierReport n | acquireComplete n k | waitTimeout n k =>
    exact effect_same (by simp [dead])
  | guardSatisfied n k | guardTimeout n k => exact effect_same (by split <;> simp [dead, stnRuns_dead dead n])
  | tallyAddition t => exact effect_same (tallyAdd_dead dead t)
  | walkRequest p va => exact effect_same (by simp [hub])
  | walkDone p va group err | retryWalk p i group err => exact effect_held (walksRun_dead dead)
  | batchClose p | commitStart p table err | commitSwitch p => exact effect_held (by simp [hub])
  | portDrained p | linkUp p | linkDown p | trainTimeout p | hello p h0 | replayTimeout p | wr p bad | rd p bad | wack p bad
  | rdata p bad | stop p | gup p h0 h1 | gdown p h0 h1 | gopArrive j | broadcastReadDone j v err | gopResetSettled j
  | gopTimeout j => exact effect_held (by simp [link])
  | flitReceive p raw marked lone => exact effect_same (by simp [link])
  | closeComplete | deleteDrained | codewordDecoded n k cw ok data | rallyStep n k cw ok data | vaultPadTimeout obj
  | programFail obj page ch | scrubRead obj seg cw high bad | refresh obj seg | wearLevel =>
    exact effect_held (by simp [vault])
  | mount geometryOk copy => exact effect_held (by simp [vaultRuns_dead dead])
  | vaultReadTimeout n tag | vaultWriteLine n tag => exact effect_held (by simp [dead])
  | fenceTimeout src | hubPowerDown | hubPowerUp => exact effect_same (by simp [dead])
  | lullEntry n => exact effect_same (lullEntry_dead dead n)
  | offEntry n => exact effect_same (offEntry_dead dead n)
  | thaw n => exact effect_same (thaw_dead dead n)
  | opPointChange g => exact effect_same (opChange_dead dead _ g)
  | railGood g => exact effect_same (railGood_dead dead g)
  | capRaise g => exact effect_same (by simp [capRaise_dead dead])
  | _ => exact absurd held Bool.false_ne_true

end Sys2Proof.Machine
end

section
/-! SUPPORT. What the commands of each family leave of the block as it was, and that no command but a reset leaves dead ball
(R360). -/
namespace Sys2Proof.Machine

/-! ## The fields that a command may write -/

/-- A set of fields, by the bits that `Agree` gives them. -/
def fieldBits (l : List Nat) : Nat := l.foldr (fun i m => 1 <<< i ||| m) 0

/-- The fields that the frames of the families list, those of MOUNT, and all fields. -/
def moverFields : Nat := fieldBits [0, 3, 4, 5, 7, 8, 15, 17, 21, 24, 30]
def channelFields : Nat := fieldBits [0, 2, 3, 4, 5, 6, 7, 8, 13, 14, 15, 21, 24]
def tallyFields : Nat := fieldBits [0, 3, 4, 5, 6, 7, 8, 15, 16, 17, 21, 22, 24, 30]
def dataFields : Nat := fieldBits [0, 2, 3, 4, 5, 6, 7, 8, 11, 12, 13, 14, 15, 16, 17, 18, 19, 21, 24, 25, 30, 31]
def xlatFields : Nat := fieldBits [0, 2, 3, 4, 5, 7, 8, 9, 10, 13, 14, 15, 21, 24]
def portFields : Nat := fieldBits [0, 4, 15, 16, 21, 24, 31]
def packetFields : Nat := fieldBits [0, 3, 4, 5, 6, 7, 8, 13, 14, 15, 16, 17, 18, 19, 21, 24, 25, 31]
def powerFields : Nat := fieldBits [0, 3, 4, 15, 21, 22, 23, 31]
def mgmtFields : Nat := fieldBits [0, 15, 20, 21, 22, 23, 31]
def vaultFields : Nat := fieldBits [0, 15, 20, 21, 23, 24]
def mountFields : Nat := fieldBits [0, 3, 4, 5, 7, 8, 15, 20, 21, 24]
def allFields : Nat := 2 ^ 32 - 1

/-- The fields that the frame of the command's family lists; any field for a command of no family. -/
def frameFields (c : Instr) : Nat :=
  if moverCommand c then moverFields
  else if channelCommand c then channelFields
  else if tallyCommand c then tallyFields
  else if dataCommand c then dataFields
  else if xlatCommand c then xlatFields
  else if portCommand c then portFields
  else if packetCommand c then packetFields
  else if powerCommand c then powerFields
  else if mgmtCommand c then mgmtFields
  else if vaultCommand c then vaultFields
  else match c with
    | .mount _ _ => mountFields
    | _ => allFields

/-- Every command but the two resets writes the fields of its frame only, and does not leave dead ball. -/
theorem exec_agree {c : Instr} {s t : State} (e : exec c s = .next t) (full : c ≠ .fullReset)
    (pon : ∀ k, c ≠ .powerOnReset k) : Agree (frameFields c) s.b t.b := by
  cases c with
  | fullReset => exact absurd rfl full
  | powerOnReset key => exact absurd rfl (pon key)
  | nop => exact row_nop (keeps_agree moverFields _) (by decide) (agree_refl _ _) e
  | halt => exact row_halt (keeps_agree moverFields _) (by decide) (agree_refl _ _) e
  | jump => exact row_jump (keeps_agree moverFields _) (by decide) (agree_refl _ _) e
  | loop => exact row_loop (keeps_agree moverFields _) (by decide) (agree_refl _ _) e
  | endl => exact row_endl (keeps_agree moverFields _) (by decide) (agree_refl _ _) e
  | move => exact row_move (keeps_agree moverFields _) (by decide) (agree_refl _ _) e
  | moveb => exact row_moveb (keeps_agree moverFields _) (by decide) (agree_refl _ _) e
  | fill => exact row_fill (keeps_agree moverFields _) (by decide) (agree_refl _ _) e
  | copy => exact row_copy (keeps_agree moverFields _) (by decide) (agree_refl _ _) e
  | setx => exact row_setx (keeps_agree moverFields _) (by decide) (agree_refl _ _) e
  | wait => exact row_wait (keeps_agree moverFields _) (by decide) (agree_refl _ _) e
  | signal => exact row_signal (keeps_agree moverFields _) (by decide) (agree_refl _ _) e
  | fence => exact row_fence (keeps_agree moverFields _) (by decide) (agree_refl _ _) e
  | tload => exact row_tload (keeps_agree moverFields _) (by decide) (agree_refl _ _) e
  | stat => exact row_stat (keeps_agree moverFields _) (by decide) (agree_refl _ _) e
  | advise => exact row_advise (keeps_agree moverFields _) (by decide) (agree_refl _ _) e
  | doorbellWrite => exact row_doorbellWrite (keeps_agree allFields _) (by decide) (agree_refl _ _) e
  | channelEnable => exact row_channelEnable (keeps_agree allFields _) (by decide) (agree_refl _ _) e
  | channelDisable => exact row_channelDisable (keeps_agree allFields _) (by decide) (agree_refl _ _) e
  | resume => exact row_resume (keeps_agree allFields _) (by decide) (agree_refl _ _) e
  | entryReadReturn => exact row_entryReadReturn (keeps_agree channelFields _) (by decide) (agree_refl _ _) e
  | entryDispatch => exact row_entryDispatch (keeps_agree channelFields _) (by decide) (agree_refl _ _) e
  | instructionLineReturn => exact row_instructionLineReturn (keeps_agree channelFields _) (by decide) (agree_refl _ _) e
  | entryComplete => exact row_entryComplete (keeps_agree channelFields _) (by decide) (agree_refl _ _) e
  | statusWriteLanded => exact row_statusWriteLanded (keeps_agree channelFields _) (by decide) (agree_refl _ _) e
  | interruptSend => exact row_interruptSend (keeps_agree channelFields _) (by decide) (agree_refl _ _) e
  | interruptCauseClear => exact row_interruptCauseClear (keeps_agree allFields _) (by decide) (agree_refl _ _) e
  | descriptorArrive => exact row_descriptorArrive (keeps_agree allFields _) (by decide) (agree_refl _ _) e
  | hazardGrant => exact row_hazardGrant (keeps_agree moverFields _) (by decide) (agree_refl _ _) e
  | guardSatisfied => exact row_guardSatisfied (keeps_agree moverFields _) (by decide) (agree_refl _ _) e
  | guardTimeout => exact row_guardTimeout (keeps_agree moverFields _) (by decide) (agree_refl _ _) e
  | codecBind => exact row_codecBind (keeps_agree moverFields _) (by decide) (agree_refl _ _) e
  | resourceGrant => exact row_resourceGrant (keeps_agree moverFields _) (by decide) (agree_refl _ _) e
  | readBurstIssue => exact row_readBurstIssue (keeps_agree dataFields _) (by decide) (agree_refl _ _) e
  | writeBurstIssue => exact row_writeBurstIssue (keeps_agree dataFields _) (by decide) (agree_refl _ _) e
  | readReturn => exact row_readReturn (keeps_agree dataFields _) (by decide) (agree_refl _ _) e
  | writeCompletion => exact row_writeCompletion (keeps_agree dataFields _) (by decide) (agree_refl _ _) e
  | landTimeout => exact row_landTimeout (keeps_agree dataFields _) (by decide) (agree_refl _ _) e
  | invalidationSend => exact row_invalidationSend (keeps_agree dataFields _) (by decide) (agree_refl _ _) e
  | invalidationAck => exact row_invalidationAck (keeps_agree dataFields _) (by decide) (agree_refl _ _) e
  | invalidationTimeout => exact row_invalidationTimeout (keeps_agree dataFields _) (by decide) (agree_refl _ _) e
  | blockDecode => exact row_blockDecode (keeps_agree moverFields _) (by decide) (agree_refl _ _) e
  | blockEncode => exact row_blockEncode (keeps_agree moverFields _) (by decide) (agree_refl _ _) e
  | tloadMarkLoading => exact row_tloadMarkLoading (keeps_agree moverFields _) (by decide) (agree_refl _ _) e
  | tloadTableBuilt => exact row_tloadTableBuilt (keeps_agree moverFields _) (by decide) (agree_refl _ _) e
  | statRecord => exact row_statRecord (keeps_agree moverFields _) (by decide) (agree_refl _ _) e
  | frameSync => exact row_frameSync (keeps_agree dataFields _) (by decide) (agree_refl _ _) e
  | nearSlot => exact row_nearSlot (keeps_agree dataFields _) (by decide) (agree_refl _ _) e
  | lineStaged => exact row_lineStaged (keeps_agree dataFields _) (by decide) (agree_refl _ _) e
  | nearReadData => exact row_nearReadData (keeps_agree dataFields _) (by decide) (agree_refl _ _) e
  | nearWriteAck => exact row_nearWriteAck (keeps_agree dataFields _) (by decide) (agree_refl _ _) e
  | nearAckMissing => exact row_nearAckMissing (keeps_agree dataFields _) (by decide) (agree_refl _ _) e
  | signalFire => exact row_signalFire (keeps_agree tallyFields _) (by decide) (agree_refl _ _) e
  | tallyAddition => exact row_tallyAddition (keeps_agree tallyFields _) (by decide) (agree_refl _ _) e
  | landingBarrier => exact row_landingBarrier (keeps_agree tallyFields _) (by decide) (agree_refl _ _) e
  | barrierReport => exact row_barrierReport (keeps_agree tallyFields _) (by decide) (agree_refl _ _) e
  | acquireComplete => exact row_acquireComplete (keeps_agree tallyFields _) (by decide) (agree_refl _ _) e
  | waitTimeout => exact row_waitTimeout (keeps_agree tallyFields _) (by decide) (agree_refl _ _) e
  | talAdd => exact row_talAdd (keeps_agree allFields _) (by decide) (agree_refl _ _) e
  | talVal => exact row_talVal (keeps_agree allFields _) (by decide) (agree_refl _ _) e
  | tallyPoison => exact row_tallyPoison (keeps_agree tallyFields _) (by decide) (agree_refl _ _) e
  | walkRequest => exact row_walkRequest (keeps_agree xlatFields _) (by decide) (agree_refl _ _) e
  | walkDone => exact row_walkDone (keeps_agree xlatFields _) (by decide) (agree_refl _ _) e
  | batchClose => exact row_batchClose (keeps_agree xlatFields _) (by decide) (agree_refl _ _) e
  | batchLanded => exact row_batchLanded (keeps_agree xlatFields _) (by decide) (agree_refl _ _) e
  | faultResolve => exact row_faultResolve (keeps_agree allFields _) (by decide) (agree_refl _ _) e
  | retryWalk => exact row_retryWalk (keeps_agree xlatFields _) (by decide) (agree_refl _ _) e
  | commit => exact row_commit (keeps_agree allFields _) (by decide) (agree_refl _ _) e
  | revokingCommit => exact row_revokingCommit (keeps_agree allFields _) (by decide) (agree_refl _ _) e
  | commitStart => exact row_commitStart (keeps_agree xlatFields _) (by decide) (agree_refl _ _) e
  | commitSwitch => exact row_commitSwitch (keeps_agree xlatFields _) (by decide) (agree_refl _ _) e
  | commitDrained => exact row_commitDrained (keeps_agree xlatFields _) (by decide) (agree_refl _ _) e
  | xlatDisable => exact row_xlatDisable (keeps_agree allFields _) (by decide) (agree_refl _ _) e
  | padvPost => exact row_padvPost (keeps_agree allFields _) (by decide) (agree_refl _ _) e
  | forecastLanded => exact row_forecastLanded (keeps_agree xlatFields _) (by decide) (agree_refl _ _) e
  | portEnable => exact row_portEnable (keeps_agree allFields _) (by decide) (agree_refl _ _) e
  | portDisable => exact row_portDisable (keeps_agree allFields _) (by decide) (agree_refl _ _) e
  | portDrained => exact row_portDrained (keeps_agree portFields _) (by decide) (agree_refl _ _) e
  | linkUp => exact row_linkUp (keeps_agree portFields _) (by decide) (agree_refl _ _) e
  | linkDown => exact row_linkDown (keeps_agree portFields _) (by decide) (agree_refl _ _) e
  | trainTimeout => exact row_trainTimeout (keeps_agree portFields _) (by decide) (agree_refl _ _) e
  | hello => exact row_hello (keeps_agree portFields _) (by decide) (agree_refl _ _) e
  | flitReceive => exact row_flitReceive (keeps_agree packetFields _) (by decide) (agree_refl _ _) e
  | replayTimeout => exact row_replayTimeout (keeps_agree portFields _) (by decide) (agree_refl _ _) e
  | packetForward => exact row_packetForward (keeps_agree portFields _) (by decide) (agree_refl _ _) e
  | wr => exact row_wr (keeps_agree packetFields _) (by decide) (agree_refl _ _) e
  | rd => exact row_rd (keeps_agree packetFields _) (by decide) (agree_refl _ _) e
  | wack => exact row_wack (keeps_agree packetFields _) (by decide) (agree_refl _ _) e
  | rdata => exact row_rdata (keeps_agree packetFields _) (by decide) (agree_refl _ _) e
  | rdTimeout => exact row_rdTimeout (keeps_agree packetFields _) (by decide) (agree_refl _ _) e
  | stop => exact row_stop (keeps_agree portFields _) (by decide) (agree_refl _ _) e
  | gup => exact row_gup (keeps_agree packetFields _) (by decide) (agree_refl _ _) e
  | gdown => exact row_gdown (keeps_agree packetFields _) (by decide) (agree_refl _ _) e
  | gopEnable => exact row_gopEnable (keeps_agree allFields _) (by decide) (agree_refl _ _) e
  | gopArrive => exact row_gopArrive (keeps_agree packetFields _) (by decide) (agree_refl _ _) e
  | broadcastReadDone => exact row_broadcastReadDone (keeps_agree packetFields _) (by decide) (agree_refl _ _) e
  | gopResetSettled => exact row_gopResetSettled (keeps_agree packetFields _) (by decide) (agree_refl _ _) e
  | gopTimeout => exact row_gopTimeout (keeps_agree packetFields _) (by decide) (agree_refl _ _) e
  | create => exact row_create (keeps_agree allFields _) (by decide) (agree_refl _ _) e
  | close => exact row_close (keeps_agree allFields _) (by decide) (agree_refl _ _) e
  | closeComplete => exact row_closeComplete (keeps_agree vaultFields _) (by decide) (agree_refl _ _) e
  | delete => exact row_delete (keeps_agree allFields _) (by decide) (agree_refl _ _) e
  | deleteDrained => exact row_deleteDrained (keeps_agree vaultFields _) (by decide) (agree_refl _ _) e
  | format => exact row_format (keeps_agree allFields _) (by decide) (agree_refl _ _) e
  | mount => exact row_mount (keeps_agree mountFields _) (by decide) (agree_refl _ _) e
  | codewordDecoded => exact row_codewordDecoded (keeps_agree allFields _) (by decide) (agree_refl _ _) e
  | rallyStep => exact row_rallyStep (keeps_agree allFields _) (by decide) (agree_refl _ _) e
  | vaultReadTimeout => exact row_vaultReadTimeout (keeps_agree allFields _) (by decide) (agree_refl _ _) e
  | vaultWriteLine => exact row_vaultWriteLine (keeps_agree allFields _) (by decide) (agree_refl _ _) e
  | pageProgrammed => exact row_pageProgrammed (keeps_agree allFields _) (by decide) (agree_refl _ _) e
  | vaultPadTimeout => exact row_vaultPadTimeout (keeps_agree vaultFields _) (by decide) (agree_refl _ _) e
  | programFail => exact row_programFail (keeps_agree allFields _) (by decide) (agree_refl _ _) e
  | eraseFail => exact row_eraseFail (keeps_agree vaultFields _) (by decide) (agree_refl _ _) e
  | scrubRead => exact row_scrubRead (keeps_agree vaultFields _) (by decide) (agree_refl _ _) e
  | refresh => exact row_refresh (keeps_agree vaultFields _) (by decide) (agree_refl _ _) e
  | wearLevel => exact row_wearLevel (keeps_agree vaultFields _) (by decide) (agree_refl _ _) e
  | logQueueCommand => exact row_logQueueCommand (keeps_agree vaultFields _) (by decide) (agree_refl _ _) e
  | sourceEvent => exact row_sourceEvent (keeps_agree allFields _) (by decide) (agree_refl _ _) e
  | recordQueue => exact row_recordQueue (keeps_agree allFields _) (by decide) (agree_refl _ _) e
  | escalationWindowEnd => exact row_escalationWindowEnd (keeps_agree allFields _) (by decide) (agree_refl _ _) e
  | fenceComplete => exact row_fenceComplete (keeps_agree allFields _) (by decide) (agree_refl _ _) e
  | fenceTimeout => exact row_fenceTimeout (keeps_agree allFields _) (by decide) (agree_refl _ _) e
  | haltReport => exact row_haltReport (keeps_agree allFields _) (by decide) (agree_refl _ _) e
  | safeTimeout => exact row_safeTimeout (keeps_agree allFields _) (by decide) (agree_refl _ _) e
  | fcStatusClear => exact row_fcStatusClear (keeps_agree allFields _) (by decide) (agree_refl _ _) e
  | fcPop => exact row_fcPop (keeps_agree allFields _) (by decide) (agree_refl _ _) e
  | fcRecLatch => exact row_fcRecLatch (keeps_agree allFields _) (by decide) (agree_refl _ _) e
  | driverDb => exact row_driverDb (keeps_agree allFields _) (by decide) (agree_refl _ _) e
  | softReset => exact row_softReset (keeps_agree allFields _) (by decide) (agree_refl _ _) e
  | softResetBegin => exact row_softResetBegin (keeps_agree allFields _) (by decide) (agree_refl _ _) e
  | softResetDone => exact row_softResetDone (keeps_agree allFields _) (by decide) (agree_refl _ _) e
  | fenceSet => exact row_fenceSet (keeps_agree allFields _) (by decide) (agree_refl _ _) e
  | fenceClear => exact row_fenceClear (keeps_agree allFields _) (by decide) (agree_refl _ _) e
  | lock => exact row_lock (keeps_agree allFields _) (by decide) (agree_refl _ _) e
  | pageErrClear => exact row_pageErrClear (keeps_agree allFields _) (by decide) (agree_refl _ _) e
  | registerWrite => exact row_registerWrite (keeps_agree allFields _) (by decide) (agree_refl _ _) e
  | wideReadLatch => exact row_wideReadLatch (keeps_agree allFields _) (by decide) (agree_refl _ _) e
  | wideWriteShadow => exact row_wideWriteShadow (keeps_agree allFields _) (by decide) (agree_refl _ _) e
  | hazInfoLatch => exact row_hazInfoLatch (keeps_agree allFields _) (by decide) (agree_refl _ _) e
  | configAccessThaw => exact row_configAccessThaw (keeps_agree allFields _) (by decide) (agree_refl _ _) e
  | registerCodeError => exact row_registerCodeError (keeps_agree allFields _) (by decide) (agree_refl _ _) e
  | stationWake => exact row_stationWake (keeps_agree allFields _) (by decide) (agree_refl _ _) e
  | lullEntry => exact row_lullEntry (keeps_agree powerFields _) (by decide) (agree_refl _ _) e
  | offEntry => exact row_offEntry (keeps_agree powerFields _) (by decide) (agree_refl _ _) e
  | transitionDone => exact row_transitionDone (keeps_agree allFields _) (by decide) (agree_refl _ _) e
  | thaw => exact row_thaw (keeps_agree powerFields _) (by decide) (agree_refl _ _) e
  | thawDone => exact row_thawDone (keeps_agree allFields _) (by decide) (agree_refl _ _) e
  | hubPowerDown => exact row_hubPowerDown (keeps_agree powerFields _) (by decide) (agree_refl _ _) e
  | hubPowerUp => exact row_hubPowerUp (keeps_agree powerFields _) (by decide) (agree_refl _ _) e
  | opPointChange => exact row_opPointChange (keeps_agree powerFields _) (by decide) (agree_refl _ _) e
  | railGood => exact row_railGood (keeps_agree powerFields _) (by decide) (agree_refl _ _) e
  | railTimeout => exact row_railTimeout (keeps_agree powerFields _) (by decide) (agree_refl _ _) e
  | thermalSample => exact row_thermalSample (keeps_agree powerFields _) (by decide) (agree_refl _ _) e
  | droopTrip => exact row_droopTrip (keeps_agree powerFields _) (by decide) (agree_refl _ _) e
  | clockMonitorTrip => exact row_clockMonitorTrip (keeps_agree powerFields _) (by decide) (agree_refl _ _) e
  | aoRefclkLoss => exact row_aoRefclkLoss (keeps_agree allFields _) (by decide) (agree_refl _ _) e
  | capRaise => exact row_capRaise (keeps_agree powerFields _) (by decide) (agree_refl _ _) e
  | ping => exact row_ping (keeps_agree mgmtFields _) (by decide) (agree_refl _ _) e
  | getInfo => exact row_getInfo (keeps_agree mgmtFields _) (by decide) (agree_refl _ _) e
  | powerRead => exact row_powerRead (keeps_agree mgmtFields _) (by decide) (agree_refl _ _) e
  | logRead => exact row_logRead (keeps_agree mgmtFields _) (by decide) (agree_refl _ _) e
  | logMark => exact row_logMark (keeps_agree mgmtFields _) (by decide) (agree_refl _ _) e
  | setBudget => exact row_setBudget (keeps_agree mgmtFields _) (by decide) (agree_refl _ _) e
  | updateBegin => exact row_updateBegin (keeps_agree mgmtFields _) (by decide) (agree_refl _ _) e
  | updateData => exact row_updateData (keeps_agree mgmtFields _) (by decide) (agree_refl _ _) e
  | updateCommit => exact row_updateCommit (keeps_agree mgmtFields _) (by decide) (agree_refl _ _) e
  | resetMgmt => exact row_resetMgmt (keeps_agree mgmtFields _) (by decide) (agree_refl _ _) e
  | logFlush => exact row_logFlush (keeps_agree mgmtFields _) (by decide) (agree_refl _ _) e
  | getStats => exact row_getStats (keeps_agree mgmtFields _) (by decide) (agree_refl _ _) e
  | timeSync => exact row_timeSync (keeps_agree mgmtFields _) (by decide) (agree_refl _ _) e
  | ready => exact row_ready (keeps_agree mgmtFields _) (by decide) (agree_refl _ _) e
  | alert => exact row_alert (keeps_agree mgmtFields _) (by decide) (agree_refl _ _) e
  | recovery => exact row_recovery (keeps_agree mgmtFields _) (by decide) (agree_refl _ _) e
  | mailboxTake => exact row_mailboxTake (keeps_agree mgmtFields _) (by decide) (agree_refl _ _) e
  | m2hAck => exact row_m2hAck (keeps_agree allFields _) (by decide) (agree_refl _ _) e
  | watchdogExpiry => exact row_watchdogExpiry (keeps_agree mgmtFields _) (by decide) (agree_refl _ _) e
  | mgmtRestart => exact row_mgmtRestart (keeps_agree mgmtFields _) (by decide) (agree_refl _ _) e
  | mgmtMemoryError => exact row_mgmtMemoryError (keeps_agree mgmtFields _) (by decide) (agree_refl _ _) e
  | logAppend => exact row_logAppend (keeps_agree mgmtFields _) (by decide) (agree_refl _ _) e
  | logCopy => exact row_logCopy (keeps_agree mgmtFields _) (by decide) (agree_refl _ _) e
  | budgetEvaluate => exact row_budgetEvaluate (keeps_agree mgmtFields _) (by decide) (agree_refl _ _) e
  | counterFreeze => exact row_counterFreeze (keeps_agree allFields _) (by decide) (agree_refl _ _) e
  | counterRelease => exact row_counterRelease (keeps_agree allFields _) (by decide) (agree_refl _ _) e
  | windowBoundary => exact row_windowBoundary (keeps_agree allFields _) (by decide) (agree_refl _ _) e
  | aoReady => exact row_aoReady (keeps_agree allFields _) (by decide) (agree_refl _ _) e
  | hubReady => exact row_hubReady (keeps_agree allFields _) (by decide) (agree_refl _ _) e
  | vgoodFall => exact row_vgoodFall (keeps_agree powerFields _) (by decide) (agree_refl _ _) e
  | vaultChannelFailed => exact row_vaultChannelFailed (keeps_agree vaultFields _) (by decide) (agree_refl _ _) e
  | blockErased => exact row_blockErased (keeps_agree vaultFields _) (by decide) (agree_refl _ _) e
  | hubPowerUpDone => exact row_hubPowerUpDone (keeps_agree allFields _) (by decide) (agree_refl _ _) e
  | mgmtAccessFault => exact row_mgmtAccessFault (keeps_agree mgmtFields _) (by decide) (agree_refl _ _) e
  | watchdogRestart => exact row_watchdogRestart (keeps_agree mgmtFields _) (by decide) (agree_refl _ _) e
  | wrapperInstructionLoad => exact row_wrapperInstructionLoad (keeps_agree allFields _) (by decide) (agree_refl _ _) e

/-! ## Frames as equations -/

/-- A field's value after a change of the fields of m, and before it. -/
def pick {α : Type} (m i : Nat) (new old : α) : α := if m.testBit i then new else old

/-- The block b with the fields of m taken from b'. -/
def mixed (m : Nat) (b b' : Block) : Block :=
  { regs := pick m 0 b'.regs b.regs, cfg := pick m 1 b'.cfg b.cfg,
    chans := pick m 2 b'.chans b.chans, strands := pick m 3 b'.strands b.strands,
    stations := pick m 4 b'.stations b.stations, tallies := pick m 5 b'.tallies b.tallies,
    adds := pick m 6 b'.adds b.adds, walks := pick m 7 b'.walks b.walks,
    parts := pick m 8 b'.parts b.parts, standby := pick m 9 b'.standby b.standby,
    commitQ := pick m 10 b'.commitQ b.commitQ, invQ := pick m 11 b'.invQ b.invQ,
    invals := pick m 12 b'.invals b.invals, hubWr := pick m 13 b'.hubWr b.hubWr,
    hubQ := pick m 14 b'.hubQ b.hubQ, irqs := pick m 15 b'.irqs b.irqs,
    ports := pick m 16 b'.ports b.ports, gops := pick m 17 b'.gops b.gops,
    linkReset := pick m 18 b'.linkReset b.linkReset, colour := pick m 19 b'.colour b.colour,
    vault := pick m 20 b'.vault b.vault, ref := pick m 21 b'.ref b.ref,
    pwr := pick m 22 b'.pwr b.pwr, mgmt := pick m 23 b'.mgmt b.mgmt,
    counters := pick m 24 b'.counters b.counters, frzTime := pick m 25 b'.frzTime b.frzTime,
    aoTime := pick m 26 b'.aoTime b.aoTime, ponTime := pick m 27 b'.ponTime b.ponTime,
    badRegs := pick m 28 b'.badRegs b.badRegs, hazLatch := pick m 29 b'.hazLatch b.hazLatch,
    nextId := pick m 30 b'.nextId b.nextId, fresh := pick m 31 b'.fresh b.fresh }

theorem eq_pick {α : Type} {m i : Nat} {new old : α} (kept : m.testBit i = false → new = old) : new = pick m i new old := by
  unfold pick
  split
  · rfl
  next out => exact kept (by simpa using out)

theorem Agree.eq_mixed {m : Nat} {b b' : Block} (h : Agree m b b') : b' = mixed m b b' := by
  obtain ⟨regs, cfg, chans, strands, stations, tallies, adds, walks, parts, standby, commitQ, invQ, invals, hubWr,
    hubQ, irqs, ports, gops, linkReset, colour, vault, ref, pwr, mgmt, counters, frzTime, aoTime, ponTime, badRegs,
    hazLatch, nextId, fresh, -⟩ := h
  cases b'
  simp only [mixed, Block.mk.injEq]
  exact ⟨eq_pick regs, eq_pick cfg, eq_pick chans, eq_pick strands, eq_pick stations, eq_pick tallies, eq_pick adds,
    eq_pick walks, eq_pick parts, eq_pick standby, eq_pick commitQ, eq_pick invQ, eq_pick invals, eq_pick hubWr, eq_pick
    hubQ, eq_pick irqs, eq_pick ports, eq_pick gops, eq_pick linkReset, eq_pick colour, eq_pick vault, eq_pick ref,
    eq_pick pwr, eq_pick mgmt, eq_pick counters, eq_pick frzTime, eq_pick aoTime, eq_pick ponTime, eq_pick badRegs,
    eq_pick hazLatch, eq_pick nextId, eq_pick fresh⟩

theorem frame_eq {m : Nat} {b b' x : Block} (h : Agree m b b') (eq : mixed m b b' = x) : b' = x := h.eq_mixed.trans eq

/-! ## The families -/

/-- Settles O57: each command of a family leaves the block that its frame gives. -/
theorem stationFrames : Obligations.StationFrames := by
  intro c s t e
  refine ⟨fun fam => ?_, fun fam => ?_, fun fam => ?_, fun fam => ?_⟩
  · refine frame_eq (m := moverFields) (b := s.b) ?_ (by simp [mixed, pick, moverFields, fieldBits, Nat.testBit])
    cases c with
    | nop | halt | jump | loop | endl | move | moveb | fill | copy | setx | wait | signal | fence | tload | stat |
    advise | hazardGrant | guardSatisfied | guardTimeout | codecBind | resourceGrant | blockDecode | blockEncode |
    tloadMarkLoading | tloadTableBuilt | statRecord =>
      exact exec_agree e nofun nofun
    | _ => exact absurd fam Bool.false_ne_true
  · refine frame_eq (m := channelFields) (b := s.b) ?_ (by simp [mixed, pick, channelFields, fieldBits, Nat.testBit])
    cases c with
    | entryReadReturn | entryDispatch | instructionLineReturn | entryComplete | statusWriteLanded | interruptSend =>
      exact exec_agree e nofun nofun
    | _ => exact absurd fam Bool.false_ne_true
  · refine frame_eq (m := tallyFields) (b := s.b) ?_ (by simp [mixed, pick, tallyFields, fieldBits, Nat.testBit])
    cases c with
    | signalFire | tallyAddition | landingBarrier | barrierReport | acquireComplete | waitTimeout | tallyPoison =>
      exact exec_agree e nofun nofun
    | _ => exact absurd fam Bool.false_ne_true
  · refine frame_eq (m := dataFields) (b := s.b) ?_ (by simp [mixed, pick, dataFields, fieldBits, Nat.testBit])
    cases c with
    | frameSync | nearSlot | lineStaged | nearReadData | nearWriteAck | nearAckMissing | readBurstIssue |
    writeBurstIssue | readReturn | writeCompletion | landTimeout | invalidationSend | invalidationAck |
    invalidationTimeout =>
      exact exec_agree e nofun nofun
    | _ => exact absurd fam Bool.false_ne_true

/-- Settles O58: each command of a family leaves the block that its frame gives. -/
theorem hubFrames : Obligations.HubFrames := by
  intro c s t e
  refine ⟨fun fam => ?_, fun fam => ?_, fun fam => ?_⟩
  · refine frame_eq (m := xlatFields) (b := s.b) ?_ (by simp [mixed, pick, xlatFields, fieldBits, Nat.testBit])
    cases c with
    | walkRequest | walkDone | batchClose | batchLanded | retryWalk | commitStart | commitSwitch | commitDrained |
    forecastLanded =>
      exact exec_agree e nofun nofun
    | _ => exact absurd fam Bool.false_ne_true
  · refine frame_eq (m := portFields) (b := s.b) ?_ (by simp [mixed, pick, portFields, fieldBits, Nat.testBit])
    cases c with
    | portDrained | linkUp | linkDown | trainTimeout | hello | replayTimeout | packetForward | stop =>
      exact exec_agree e nofun nofun
    | _ => exact absurd fam Bool.false_ne_true
  · refine frame_eq (m := packetFields) (b := s.b) ?_ (by simp [mixed, pick, packetFields, fieldBits, Nat.testBit])
    cases c with
    | flitReceive | wr | rd | wack | rdata | rdTimeout | gup | gdown | gopArrive | broadcastReadDone | gopResetSettled
    | gopTimeout =>
      exact exec_agree e nofun nofun
    | _ => exact absurd fam Bool.false_ne_true

/-- Settles O59: each command of a family leaves the block that its frame gives, and MOUNT by its own. -/
theorem serviceFrames : Obligations.ServiceFrames := by
  intro c s t e
  refine ⟨fun fam => ?_, fun fam => ?_, fun fam => ?_, ?_⟩
  · refine frame_eq (m := powerFields) (b := s.b) ?_ (by simp [mixed, pick, powerFields, fieldBits, Nat.testBit])
    cases c with
    | lullEntry | offEntry | thaw | hubPowerDown | hubPowerUp | opPointChange | railGood | railTimeout | thermalSample
    | droopTrip | clockMonitorTrip | capRaise | vgoodFall =>
      exact exec_agree e nofun nofun
    | _ => exact absurd fam Bool.false_ne_true
  · refine frame_eq (m := mgmtFields) (b := s.b) ?_ (by simp [mixed, pick, mgmtFields, fieldBits, Nat.testBit])
    cases c with
    | ping | getInfo | powerRead | logRead | logMark | setBudget | updateBegin | updateData | updateCommit | resetMgmt
    | logFlush | getStats | timeSync | ready | alert | recovery | mailboxTake | watchdogExpiry | mgmtRestart |
    mgmtMemoryError | logAppend | logCopy | budgetEvaluate | mgmtAccessFault | watchdogRestart =>
      exact exec_agree e nofun nofun
    | _ => exact absurd fam Bool.false_ne_true
  · refine frame_eq (m := vaultFields) (b := s.b) ?_ (by simp [mixed, pick, vaultFields, fieldBits, Nat.testBit])
    cases c with
    | closeComplete | deleteDrained | refresh | wearLevel | scrubRead | vaultPadTimeout | eraseFail |
    vaultChannelFailed | blockErased | logQueueCommand =>
      exact exec_agree e nofun nofun
    | _ => exact absurd fam Bool.false_ne_true
  · rintro ⟨g, m, rfl⟩
    exact frame_eq (m := mountFields) (exec_agree e nofun nofun) (by simp [mixed, pick, mountFields, fieldBits, Nat.testBit])

/-! ## Dead ball -/

/-- A cycle of AO_REFCLK does not leave dead ball. -/
theorem aoTick_dead {p : Params} {b : Block} (dead : isDead b = true) : isDead (aoTick p b) = true :=
  (keep_aoTick (keeps_agree allFields b) (by decide) (agree_refl _ _) p).dead dead

/-- Settles O55: every command but the resets, and a cycle of the clock, keep dead ball; a full reset starts a new
  referee. -/
theorem onlyResetLeavesDeadBall : Obligations.OnlyResetLeavesDeadBall := by
  refine ⟨fun c s t dead e full pon => (exec_agree e full pon).dead dead, fun s t dead empty e => ?_,
    fun s => ⟨_, rfl, rfl⟩⟩
  obtain rfl : onBlock aoTick s = t := by simpa [step, empty, idle, effect] using e
  exact aoTick_dead dead

end Sys2Proof.Machine
end

section
/-! SUPPORT. The step and its queue: a command at the front, a cycle of AO_REFCLK without one, and that every command answers. -/
namespace Sys2Proof.Machine

/-- The events of a cycle are counted in counters, and read no clock of the block's own. -/
theorem clockEvents_agree (p : Params) (b : Block) : Agree 16777217 b (clockEvents p b) :=
  keep_clockEvents (keeps_agree _ b) (by decide) (agree_refl _ b) p

@[simp] theorem aoTick_aoTime (p : Params) (b : Block) : (aoTick p b).aoTime = b.aoTime + 1 :=
  congrArg (· + 1) ((clockEvents_agree p b).aoTime rfl)

@[simp] theorem aoTick_ponTime (p : Params) (b : Block) : (aoTick p b).ponTime = b.ponTime + 1 :=
  congrArg (· + 1) ((clockEvents_agree p b).ponTime rfl)

theorem step_cons {s : State} {c : Instr} {rest : List Instr} (queue : s.pending = c :: rest) :
    step s = exec c { s with pending := rest } := by simp [step, queue]

theorem step_nil {s : State} (queue : s.pending = []) : step s = .next (s.put (aoTick s.par s.b)) := by
  simp [step, queue, idle, effect_put]

/-- Settles O51: the two cases of the queue, and the two times of a cycle. -/
theorem stepRunsFront : Obligations.StepRunsFront := fun _ =>
  ⟨fun _ _ queue => step_cons queue, fun queue => ⟨step_nil queue, aoTick_aoTime _ _, aoTick_ponTime _ _⟩⟩

/-- Settles O52: every command is an effect on the block and the wrapper. -/
theorem everyCommandCompletes : Obligations.EveryCommandCompletes := by
  intro c s
  obtain ⟨b, w, answers, -⟩ := exec_next c s
  exact ⟨_, answers, rfl, rfl⟩

end Sys2Proof.Machine
end

section
/-! SUPPORT. Accesses of VT_CMD and of the collector's page: the command that a word of VT_CMD names, FC_STATUS as a pair,
FC_POP, FC_REC0 and the FENCE of the FC page (R324, R344, R346, R354, R361, R362). -/
namespace Sys2Proof.Machine

/-! ## VT_CMD (R324, R344) -/

/-- What a command of VT_CMD does once it is stored, with what the medium answers. -/
def vtRuns (p : Params) (b : Block) (op o : Nat) (m : Med) : Block :=
  match op with
  | 1 => cmdCreate p b o
  | 2 => cmdClose b o m.headers
  | 3 => cmdDelete b o
  | 4 => cmdFormat p b m.geometryOk m.bad
  | 5 => cmdMount b
  | _ => b

/-- A mask of k bits from bit n keeps that field in its place. -/
theorem and_field_mask (w k n : Nat) : w &&& (2 ^ k - 1) <<< n = (w >>> n % 2 ^ k) <<< n := by
  refine Nat.eq_of_testBit_eq fun i => ?_
  simp only [Nat.testBit_and, Nat.testBit_shiftLeft, Nat.testBit_two_pow_sub_one, Nat.testBit_mod_two_pow,
    Nat.testBit_shiftRight]
  by_cases high : n ≤ i
  · rw [Nat.add_sub_cancel' high]
    simp [high, Bool.and_comm]
  · simp [high]

/-- The word that names a command and its object. -/
def vtWord (op o : Nat) : Nat := op + o * 2 ^ 8

section
variable {op o : Nat} (hop : op < 8)
include hop

theorem vtWord_op : bits (vtWord op o) 2 0 = op := by
  simp only [bits, vtWord, Nat.shiftRight_zero]
  omega

variable (ho : o < 4096)
include ho

theorem vtWord_lt : vtWord op o < 2 ^ 32 := by
  unfold vtWord
  omega

theorem vtWord_obj : bits (vtWord op o) 19 8 = o := by
  simp only [bits, vtWord, Nat.shiftRight_eq_div_pow]
  omega

theorem vtWord_kept : vtWord op o &&& 0xFFF00 = o * 2 ^ 8 := by
  have field : vtWord op o >>> 8 % 2 ^ 12 = o := by
    simp only [vtWord, Nat.shiftRight_eq_div_pow]
    omega
  have kept := and_field_mask (vtWord op o) 12 8
  rw [field] at kept
  exact kept.trans (Nat.shiftLeft_eq o 8)

/-- A command written to VT_CMD while the vault is not busy. -/
theorem vtCmd_word (p : Params) {b : Block} (free : b.vault.busy = 0) (m : Med) :
    vtCmd p b (vtWord op o) (some m) = .ok (vtRuns p (rset b (vaultB + 0x48) (o * 2 ^ 8)) op o m) := by
  simp only [vtCmd, free, ne_eq, not_true_eq_false, if_false, vtWord_op hop, vtWord_obj hop ho, vtWord_kept hop ho,
    Option.isNone_some, Bool.false_and, Bool.false_eq_true, Option.getD_some]
  rfl

/-- A write of VT_CMD that the port takes does what the command does. -/
theorem vtCmdAcc_takes {s : State} {a : Attr} {r : RegRow} {b' : Block}
    (h : takesWrite s.par s.b (wacc (vaultB + 0x48) (vtWord op o) a) .vault r = true) {m : Med}
    (e : vtCmd s.par (counted s.b) (vtWord op o) (some m) = .ok b') :
    effect (fun p b => vtCmdAcc p b op o m a) s = .next (s.put (wrote b' (vaultB + 0x48))) := by
  have addr : accAddr (wacc (vaultB + 0x48) (vtWord op o) a) = vaultB + 0x48 := accAddr_wacc _ _ _ (by decide) (by decide)
  have done := takesWrite_perform (med := some m) (b' := b') (y := counted s.b) h (by
    rw [addr, wacc_data _ _ (vtWord_lt hop ho)]
    exact Prod.ext e rfl)
  have acc : vtCmdAcc s.par s.b op o m a = cfgAccess s.par s.b (wacc (vaultB + 0x48) (vtWord op o) a) (some m) := by
    rw [vtCmdAcc, Nat.mod_eq_of_lt ho]
    rfl
  rw [effect_put, acc, done, addr, codeAddr_of_pair_ne_two _ (by simp [takesWrite_pair h])]
  rfl
end

/-- Settles O23: the word of VT_CMD names the command and its object, and each command is the one that it names. -/
theorem vaultCommandWrites : Obligations.VaultCommandWrites := by
  rintro s obj a r b op o hobj hop h ho busy rfl
  have free : (counted s.b).vault.busy = 0 := by rw [counted, count_vault, busy]
  have small : o < 4096 := by
    rw [ho]
    split <;> omega
  have takes (m : Med) := vtCmdAcc_takes hop small h (vtCmd_word hop small s.par free m)
  refine ⟨?_, ?_, ?_, ?_⟩
  · rintro rfl
    obtain rfl : o = obj := ho
    exact takes _
  · rintro headers rfl
    obtain rfl : o = obj := ho
    exact takes _
  · rintro rfl
    obtain rfl : o = obj := ho
    exact takes _
  · rintro g bad rfl
    obtain rfl : o = 0 := ho
    exact takes _

/-! ## The collector's page (R346, R354, R361, R362) -/

section
variable {s : State} {a : Attr} {r rh : RegRow}

theorem fcStatusClear_takes {w : DWord}
    (h : takesPair s.par s.b (fcB + 0x40) (lo32 w.toNat) (hi32 w.toNat) a .fc r rh = true) :
    exec (.fcStatusClear w a) s = .next (s.put (wrote (fcStatusWrite (unshadowed (shadowed s.b (fcB + 0x40)
      (BitVec.ofNat 32 (lo32 w.toNat))) (fcB + 0x40)) w.toNat) (fcB + 0x40))) := by
  have value : lo32 w.toNat + hi32 w.toNat * 2 ^ 32 = w.toNat := by
    have := w.isLt
    unfold lo32 hi32
    omega
  show effect _ s = _
  have pair := cfgWrite_pair (lo := lo32 w.toNat) (hi := hi32 w.toNat) (by decide) (by decide)
    (Nat.mod_lt _ (by decide)) (Nat.mod_lt _ (by decide)) (by decide) h
  rw [value] at pair
  exact congrArg (fun b => Host.Outcome.next (s.put b)) pair

theorem fcPop_takes {w : Word} (h : takesWrite s.par s.b (wacc (fcB + 0xA0) w.toNat a) .fc r = true) :
    exec (.fcPop w a) s = .next (s.put (wrote (popRec (counted s.b)) (fcB + 0xA0))) := by
  show writeIf true _ _ _ s = _
  rw [writeIf_true rfl]
  exact takesWrite_effect h (by decide) (by decide) w.isLt rfl (by decide) (y := counted s.b) rfl

theorem fcRecLatch_takes (h : takesRead s.par s.b (racc (fcB + 0x80) a) .fc r = true) (single : r.pair = 0) :
    exec (.fcRecLatch a) s = .next (s.put (respond (latchRec (counted s.b)) .ok
      (readReg s.par (latchRec (counted s.b)) .fc 0x80))) := by
  have off : accAddr (racc (fcB + 0x80) a) % 0x1000 = 0x80 := by
    rw [accAddr_racc _ _ (by decide) (by decide)]
    rfl
  show Host.Outcome.next (s.put (cfgAccess s.par s.b (racc (fcB + 0x80) a) none)) = _
  rw [takesRead_perform h single, off]
  rfl

/-- A write of 1 to FENCE of the FC page is the driver's dead ball (R365). -/
theorem ctrlWrite_driverDb (p : Params) (b : Block) {c : Nat} (fence : bit c 1 = true) : ctrlWrite p b .fc c =
    srcEvent (rsetBits b (fcB + 8) 2)
      { src := srcColl, kind := 0x59, unit := noUnit, addr := 0, detail := BitVec.ofNat 64 (5 * 2 ^ 32) } := by
  simp [ctrlWrite, pageUnitless, fence, pageB]

theorem driverDb_takes {c : Nat} (hc : c = (rget s.b (fcB + 8) &&& 1) ||| 2)
    (h : takesCtrl s.par s.b (wacc (fcB + 8) c a) .fc r = true) :
    exec (.driverDb a) s = .next (s.put (wrote (srcEvent (rsetBits (counted s.b) (fcB + 8) 2)
      { src := srcColl, kind := 0x59, unit := noUnit, addr := 0, detail := BitVec.ofNat 64 (5 * 2 ^ 32) }) (fcB + 8))) := by
  subst hc
  have takes := ctrlCmd_takes (s := s) (page := BitVec.ofNat 24 fcB) (a := a) (pg := .fc) (r := r) (m := 1) (v := 2)
    (by decide) (by decide)
  rw [show baseOf (BitVec.ofNat 24 fcB) = fcB from by decide] at takes
  show ctrlCmd fcB 1 2 a s = _
  rw [takes h, ctrlWrite_driverDb _ _ (bit_or_resume _)]
end

/-- Settles O24: FC_STATUS as a pair, FC_POP as one register, FC_REC0 by a read that latches, FENCE by PAGE_CTRL. -/
theorem collectorAccesses : Obligations.CollectorAccesses := by
  rintro s a r rh b rfl
  exact ⟨fun w h => ⟨_, rfl, fcStatusClear_takes h⟩, fun w => fcPop_takes, fcRecLatch_takes, fun c => driverDb_takes⟩

end Sys2Proof.Machine
end

section
/-! SUPPORT. The record that enters the queue, the ends of escalation windows and fences, halts and SAFE_OUT, what off loses,
and the counters' windows (R347, R349 to R354, R359, R370, R392, R396). -/
namespace Sys2Proof.Machine

/-! ## The queue (R347, R353, R354, R363) -/

section
variable (b : Block) (r : Rec)

theorem enqueue_ref : (enqueue b r).ref =
    { b.ref with queue := b.ref.queue ++ [{ r with seq := b.ref.seq }], seq := b.ref.seq + 1 } := by
  unfold enqueue
  extract_lets was b1 b2
  have kept : b2.ref = b1.ref := count_ref _ _ _ _ _
  split
  · rw [setCause_ref, kept]
    rfl
  · exact kept

/-- The first record of an empty queue latches the RECORD cause. -/
theorem enqueue_cause (empty : b.ref.queue = []) : bit (rget (enqueue b r) (fcB + 0x58)) 0 = true := by
  simp only [enqueue, empty, List.length_nil, if_true]
  exact bit_setCause (c := fcB + 0x58) (k := fcB + 0x5C) rfl (by decide) (by decide) (by decide)

/-- With no summary due and room in the queue, the oldest record of the next source in rotation goes. -/
theorem queueOne_held {b : Block} {r : Rec} {i : Nat} {rest : List Rec} (room : b.ref.queue.length < 512)
    (noSummary : summarySrc b = none) (turn : holdSrc b = some i) (held : (getSrc b i).hold = r :: rest) :
    queueOne b = enqueue (modRef (modSrc b i (fun s => { s with hold := rest })) (fun x => { x with rot := i + 1 })) r := by
  simp only [queueOne, Nat.not_le.2 room, if_false, noSummary, turn, held]
end

/-- Settles O38: the record leaves its source's buffer, and enters the queue under the collector's SEQ. -/
theorem recordsQueue : Obligations.RecordsQueue := by
  intro s i r rest boot room noSummary turn held
  have run : exec .recordQueue s = .next (s.put (queueOne s.b)) := by
    show effect _ s = _
    rw [effect_put, if_neg boot]
  refine ⟨_, run, ?_⟩
  rw [put_b, queueOne_held room noSummary turn held]
  refine ⟨by rw [enqueue_ref]; rfl, by rw [enqueue_ref]; rfl, ?_, fun empty => enqueue_cause _ _ empty⟩
  rw [getSrc_congr (b := modSrc s.b i (fun s => { s with hold := rest })) (by rw [enqueue_ref]; rfl)]
  simp [modSrc]

/-! ## Fences and halts (R349 to R351, R358, R359, R361) -/

/-- The event of a fence that has not completed in time (R351, R353). -/
def lateFence (src : Nat) : Ev :=
  { src := src, kind := 0x56, unit := noUnit, addr := 0, detail := BitVec.ofNat 64 (3 * 2 ^ 32) }

/-- A late fence is a critical event, which enters dead ball, and the port then answers what waits. -/
theorem fenceTimeout_critical {s : State} {src : Nat} (fencing : (getSrc s.b src).fencing = true)
    (alive : isDead s.b = false) : ∃ b, exec (.fenceTimeout src) s = .next (s.put (cfgPump s.par b)) ∧ isDead b = true ∧
      (getSrc b src).st = .critical := by
  obtain ⟨critical, dead⟩ := srcEvent_criticalKind (b := s.b) (e := lateFence src) rfl
  refine ⟨_, ?_, dead, critical⟩
  show effect _ s = _
  rw [effect_put, if_pos ⟨fencing, by simp [alive]⟩]
  change Host.Outcome.next (s.put (deadPump s.par s.b (srcEvent s.b (lateFence src)))) = _
  rw [deadPump, dead, alive]
  rfl

theorem haltReport_station {p : Params} {b : Block} {n : Nat} (dead : isDead b = true) (present : n < p.stations)
    (still : inTransition b n = false) :
    haltReport p b (some n) = safeNow p (modStn b n (fun x => { x with halted := true })) := by
  simp [haltReport, dead, present, still]

theorem haltReport_links {p : Params} {b : Block} (dead : isDead b = true)
    (quiet : ∀ i, i < p.linkPorts → (getPort b i).st ≠ .up ∨ (getPort b i).stopSent = true) :
    haltReport p b none = safeNow p (modRef b (fun r => { r with linkHalted := true })) := by
  have all : (List.range p.linkPorts).all (fun i => (getPort b i).st ≠ .up || (getPort b i).stopSent) = true := by
    simpa [List.all_eq_true] using quiet
  simp only [haltReport, dead, Bool.not_true, Bool.false_eq_true, if_false, all, if_true]

/-- Settles O39: windows and fences by their flags, then the reports of dead ball and its timer. -/
theorem fencesAndHalts : Obligations.FencesAndHalts := by
  refine ⟨fun s src us => ⟨fun opened => ?_, fun fencing stopped => ?_, fenceTimeout_critical⟩,
    fun s dead => ⟨fun n present still => ?_, fun quiet => ?_, fun waits => ?_⟩⟩
  · exact effect_when (c := fun _ b => (getSrc b src).window) opened
  · exact effect_when (c := fun _ b => (getSrc b src).fencing && unitStopped b (srcTarget src)) (by simp [fencing, stopped])
  · exact congrArg (fun b => Host.Outcome.next (s.put b)) (haltReport_station dead present still)
  · exact congrArg (fun b => Host.Outcome.next (s.put b)) (haltReport_links dead quiet)
  · have run : exec .safeTimeout s = .next (s.put (modRef s.b (fun r => { r with safe := true, haltIncomplete := true }))) := by
      show effect _ s = _
      rw [effect_put, if_pos ⟨dead, by simp [waits]⟩]
    exact ⟨_, run, rfl, rfl, by simp [safeOut, modRef]⟩

/-! ## Off (R370) -/

theorem getStn_offLoss (b : Block) (n : Nat) : getStn (offLoss b n) n =
    { getStn b n with dcache := [], pfQ := [], hist := [], slots := List.replicate 4 CSlot.reset } :=
  get_setStn b n _

/-- What a strand of a station in off keeps, and what it loses. -/
def strandOff (t : Strand) : Strand :=
  { t with lines := [], ranges := [], stats := Stats.reset, entry := t.entry.map (fun x => { x with xl := [] }) }

theorem offLoss_strands (b : Block) (n : Nat) :
    (offLoss b n).strands = b.strands.map (fun e => if e.1 / 256 = n then (e.1, strandOff e.2) else e) := rfl

/-- Settles O42: the station by its table, the strands by the station that their number names. -/
theorem offLoses : Obligations.OffLoses := by
  intro b n
  rw [getStn_offLoss]
  refine ⟨rfl, rfl, rfl, rfl, rfl, rfl, rfl, rfl, rfl, fun m other => getStn_setStn_ne _ other, ?_, ?_⟩ <;> rw [offLoss_strands]
  · intro e mem other
    exact List.mem_map.2 ⟨e, mem, if_neg other⟩
  · intro e mem own
    obtain ⟨t, old, rfl⟩ := List.mem_map.1 mem
    by_cases his : t.1 / 256 = n
    · rw [if_pos his]
      exact ⟨rfl, rfl, rfl, t.2, old, rfl, rfl, rfl, rfl, rfl, rfl, by simp [strandOff, Option.map_map, Function.comp_def]⟩
    · rw [if_neg his] at own
      exact absurd own his

/-! ## Windows of counters (R392, R396) -/

/-- Settles O46: at its boundary the counter shows its accumulator. -/
theorem windowsEnd : Obligations.WindowsEnd := by
  rintro s l i x rfl present low window runs boundary
  have run : exec (.windowBoundary l i) s = .next (s.put (windowEnd s.b l i)) := by
    show effect _ s = _
    rw [effect_put, if_pos ⟨present, low⟩]
  refine ⟨_, run, ?_⟩
  rw [put_b, windowEnd, if_pos ⟨window, by simp [runs], boundary⟩]
  exact ⟨congrArg _ (tgetD_tput _ _ _ _), congrArg _ (tgetD_tput _ _ _ _), congrArg _ (tgetD_tput _ _ _ _), rfl⟩

end Sys2Proof.Machine
end

section
/-! SUPPORT. Resets, start-up and the test wrapper's instruction (R360, R387, R388, R438). -/
namespace Sys2Proof.Machine

theorem exec_powerOnReset (key : BitVec 384) (s : State) : exec (.powerOnReset key) s =
    .next { s with b := powerOn s.b key, tap := { s.tap with instr := 0 } } := rfl

theorem exec_fullReset (s : State) : exec .fullReset s =
    .next { s with b := fullReset s.b, tap := { instr := 0, resetN := false } } := rfl

theorem exec_wrapperInstructionLoad (code : BitVec 8) (s : State) : exec (.wrapperInstructionLoad code) s =
    .next { s with tap := { s.tap with instr := wrapCode s.tap.resetN code.toNat } } := rfl

/-! ## Start-up (R388) -/

theorem aoReady_releases {s : State} (boot : s.b.pwr.boot = .reset) (free : wrapTest s.tap.instr = false) :
    exec .aoReady s = .next { (s.put (cfgPump s.par (modPwr s.b (fun w => { w with boot := .aoReady })))) with
      tap := { s.tap with resetN := true } } :=
  if_pos ⟨boot, by simp [free]⟩

/-- The hub of a block that starts up: its core runs, and the management processor leaves reset into the ROM. -/
def hubStarted (b : Block) : Block :=
  modMgmt (modPwr b (fun w => { w with boot := .hubReady, hubOn := true }))
    (fun m => if m.st = .reset then { m with st := .rom, wdog := true, wdogMs := 1000 } else m)

theorem hubReady_starts {s : State} (boot : s.b.pwr.boot = .aoReady) (empty : s.b.cfg.held = []) :
    exec .hubReady s = .next (s.put (hubStarted s.b)) := by
  show effect _ s = _
  rw [effect_put, if_pos boot]
  exact congrArg (fun b => Host.Outcome.next (s.put b)) (if_pos empty)

theorem hubStarted_mgmt {b : Block} (fresh : b.mgmt.st = .reset) : (hubStarted b).mgmt.st = .rom := by
  simp [hubStarted, modMgmt, modPwr, fresh]

/-! ## The wrapper (R438) -/

theorem wrapTest_iff (code : Nat) : wrapTest code = true ↔ 1 ≤ code ∧ code ≤ 4 := by simp [wrapTest]

theorem wrapTest_eq_false {code : Nat} (h : code = 0 ∨ 4 < code) : wrapTest code = false := by
  rw [← Bool.not_eq_true, wrapTest_iff]
  omega

theorem wrapCode_test {code : Nat} (h : 1 ≤ code ∧ code ≤ 4) (resetN : Bool) :
    wrapCode resetN code = if resetN then 0 else code := by
  rw [wrapCode, if_neg (by omega), (wrapTest_iff code).2 h]
  cases resetN <;> rfl

theorem wrapCode_bypass {code : Nat} (h : code = 0 ∨ 5 < code) (resetN : Bool) : wrapCode resetN code = 0 := by
  rw [wrapCode, if_neg (by omega), wrapTest_eq_false (by omega)]
  rfl

/-- Settles O47: the two resets field by field, the two steps of start-up, and the wrapper's instruction by its code. -/
theorem resetsAndStartUp : Obligations.ResetsAndStartUp := by
  refine ⟨fun s k => ⟨⟨_, exec_powerOnReset k s, rfl, rfl, rfl, rfl, rfl, rfl, rfl, rfl, rfl, rfl⟩,
    ⟨_, exec_fullReset s, rfl, rfl, rfl, rfl, rfl, rfl, rfl, rfl, rfl, rfl, rfl, rfl⟩⟩, fun s => ⟨?_, ?_, fun code => ?_⟩⟩
  · exact fun boot free => aoReady_releases boot (wrapTest_eq_false free)
  · exact fun boot fresh empty => ⟨_, hubReady_starts boot empty, rfl, rfl, hubStarted_mgmt fresh⟩
  · refine ⟨_, exec_wrapperInstructionLoad code s, rfl, rfl, ?_, fun lo hi low => ?_, fun lo hi high => ?_, fun bypass => ?_⟩
    · rintro rfl
      rfl
    · exact (wrapCode_test ⟨lo, hi⟩ _).trans (by rw [low]; rfl)
    · exact (wrapCode_test ⟨lo, hi⟩ _).trans (by rw [high]; rfl)
    · exact wrapCode_bypass (bypass.imp_left (fun zero => by rw [zero]; rfl)) _

end Sys2Proof.Machine
end

section
/-! SUPPORT. Torvyo's answers to messages, updates and their commit, and the copy of the log to its area (R377, R378, R382,
R384 to R386). -/
namespace Sys2Proof.Machine

/-! ## Messages (R377, R378) -/

/-- Torvyo, while it runs, does with the message taken what the message's row says. -/
theorem serve_running {b : Block} {m : Msg} {code : Nat} (running : b.mgmt.st = .running) (taken : b.mgmt.taken = some m)
    (row : m.code = code) (torvyo : Bool) (f : Block → Msg → Block) : serve b code torvyo f = f b m := by
  simp [serve, taken, row, mgmtServes, running]

/-- The message that stands in H2M. -/
def h2mMsg (b : Block) : Msg :=
  { code := rbits b (mboxB + 0x70) 7 0, seq := rbits b (mboxB + 0x70) 15 8, result := 0,
    data := (List.range (rbits b (mboxB + 0x70) 19 16)).map (fun (i : Nat) => BitVec.ofNat 32 (rget b (mboxB + 0x40 + 4 * i))) }

theorem mailboxTake_running {b : Block} (running : b.mgmt.st = .running) (full : b.mgmt.h2mFull = true)
    (free : b.mgmt.taken = none) (low : 1 ≤ rbits b (mboxB + 0x70) 7 0) (high : rbits b (mboxB + 0x70) 7 0 ≤ 13) :
    mailboxTake b = setCause (modMgmt b (fun x => { x with h2mFull := false, taken := some (h2mMsg b) })) 1558 4 := by
  simp [mailboxTake, running, full, free, mgmtServes, h2mMsg, low, high]

theorem modMgmt_congr {b : Block} {f g : Mgmt → Mgmt} (h : f b.mgmt = g b.mgmt) : modMgmt b f = modMgmt b g := by
  simp only [modMgmt, h]

theorem length_powerWords (b : Block) (seed : Nat) : (powerWords b seed).length = 8 := by simp [powerWords]

theorem updateVault_usable {p : Params} {b : Block} (usable : vaultUsable p b = true) : updateVault p b = true := by
  simp [updateVault, usable]

section
variable {s : State} {m : Msg} (running : s.b.mgmt.st = .running)
include running

theorem mailboxTake_takes (full : s.b.mgmt.h2mFull = true) (free : s.b.mgmt.taken = none) {c : Nat}
    (hc : c = rbits s.b (mboxB + 0x70) 7 0) (low : 1 ≤ c) (high : c ≤ 13) :
    ∃ t x, exec .mailboxTake s = .next t ∧ t.b.mgmt.h2mFull = false ∧ t.b.mgmt.taken = some x ∧ x.code = c ∧
      x.seq = rbits s.b (mboxB + 0x70) 15 8 ∧ x.data.length = rbits s.b (mboxB + 0x70) 19 16 := by
  subst hc
  have takes : exec .mailboxTake s = .next (s.put (mailboxTake s.b)) := rfl
  rw [mailboxTake_running running full free low high] at takes
  refine ⟨_, h2mMsg s.b, takes, ?_, ?_, rfl, rfl, by simp [h2mMsg]⟩ <;> rw [put_b, setCause_mgmt] <;> rfl

variable (taken : s.b.mgmt.taken = some m)
include taken

/-- A row that serves its message answers the state with what it does. -/
theorem serve_effect {code : Nat} {torvyo : Bool} {f : Params → Block → Msg → Block} {b : Block} (row : m.code = code)
    (does : f s.par s.b m = b) : effect (fun p b => serve b code torvyo (f p)) s = .next (s.put b) := by
  rw [effect_put, serve_running running taken row, does]

theorem ping_answers (row : m.code = 1) :
    exec .ping s = .next (s.put (reply s.b m 0 [s.b.mgmt.version, Config.romVersion])) :=
  serve_effect running taken (f := fun _ b m => reply b m 0 [if b.mgmt.st = .running then b.mgmt.version else 0, Config.romVersion])
    row (by rw [if_pos running])

theorem powerRead_answers (row : m.code = 3) : ∃ (b : Block) (l : List Word), l.length = 8 ∧ b.mgmt = s.b.mgmt ∧
    exec .powerRead s = .next (s.put (reply b m 0 l)) :=
  ⟨(draw s.b).2, _, length_powerWords (draw s.b).2 (draw s.b).1, rfl, serve_effect running taken
    (f := fun _ b m => reply (draw b).2 m 0 (powerWords (draw b).2 (draw b).1)) row rfl⟩

theorem logRead_answers {r : LogRec} (row : m.code = 4) (held : s.b.mgmt.log.find? (fun r => r.seq % 2 ^ 32 = arg m 0) = some r)
    (fault : Bool) : exec (.logRead fault) s = .next (s.put (reply s.b m 0 (logWords r ++
      [BitVec.ofNat 32 (oldestSeq s.b.mgmt s.b.vault), BitVec.ofNat 32 (s.b.mgmt.logSeq - 1)]))) :=
  serve_effect running taken (f := fun p b m => logRead p b m fault) row (by simp only [logRead, held])

theorem setBudget_answers (row : m.code = 6) (enough : arg m 0 = 0 ∨ Config.idlePower ≤ arg m 0) :
    exec .setBudget s = .next (s.put (reply (modMgmt s.b (fun x => { x with budget := arg m 0 })) m 0 [])) :=
  serve_effect running taken (f := fun _ b m => if arg m 0 ≠ 0 ∧ arg m 0 < Config.idlePower then reply b m 2 []
    else reply (modMgmt b (fun x => { x with budget := arg m 0 })) m 0 []) row (if_neg (by omega))

/-! ## Restarts, updates and the copy of the log (R382, R384 to R386) -/

theorem resetMgmt_answers (row : m.code = 10) : exec .resetMgmt s = .next (s.put (modMgmt (mgmtReset (reply s.b m 0 []) 3 true)
    (fun x => { x with recover := bit (arg m 0) 0 }))) :=
  serve_effect running taken (f := fun _ b m =>
    modMgmt (mgmtReset (reply b m 0 []) 3 true) (fun x => { x with recover := bit (arg m 0) 0 })) row rfl

variable (usable : vaultUsable s.par s.b = true)
include usable

theorem updateBegin_answers (row : m.code = 7) (fits : imgLenOk (arg m 0) = true) : exec .updateBegin s =
    .next (s.put (reply (modMgmt s.b (fun x => { x with update := some (arg m 0), imgArea := [] })) m 0 [])) := by
  refine serve_effect running taken row (?_ : (if !updateVault s.par s.b then _ else if !imgLenOk (arg m 0) then _ else _) = _)
  rw [updateVault_usable usable, fits]
  exact congrArg (reply · m 0 []) (modMgmt_congr (if_neg (by simp [running])))

theorem updateData_answers {len : Nat} (row : m.code = 8) (begun : s.b.mgmt.update = some len) (some : m.data ≠ [])
    (fits : arg m 0 + (wordBytes (m.data.drop 1)).length ≤ len) : exec .updateData s =
    .next (s.put (reply (modMgmt s.b (fun x =>
      { x with imgArea := putBytes x.imgArea (arg m 0) (wordBytes (m.data.drop 1)) })) m 0 [])) := by
  refine serve_effect running taken row ?_
  have short : ¬ (m.data = [] ∨ len < arg m 0 + (wordBytes (m.data.drop 1)).length) :=
    not_or.2 ⟨some, Nat.not_lt.2 fits⟩
  simp only [updateVault_usable usable, begun, Bool.not_true, Bool.false_eq_true, if_false, short]
  exact congrArg (reply · m 0 []) (modMgmt_congr (if_neg (by simp [running])))

theorem updateCommit_answers {len : Nat} {ok : Bool} {ver : Word} (row : m.code = 9) (begun : s.b.mgmt.update = some len)
    (hver : ver = BitVec.ofNat 32 (imgWord s.b.mgmt.imgArea 4)) (hok : ok = imgVerifies s.b s.b.mgmt.imgArea len) :
    exec .updateCommit s = .next (s.put (if ok then mgmtReset (updateEnd s.b m true ver) 4 true
      else updateEnd s.b m false ver)) := by
  subst hver hok
  refine serve_effect running taken row ?_
  simp only [updateCommit, updateVault_usable usable, begun, running]
  cases verifies : imgVerifies s.b s.b.mgmt.imgArea len <;> simp [verifies]

theorem logFlush_answers (row : m.code = 11) : exec .logFlush s =
    .next (s.put (reply (logCopyAll s.b) m 0 [BitVec.ofNat 32 (uncopied s.b.mgmt)])) :=
  serve_effect running taken (f := fun p b m => if vaultUsable p b then
    reply (logCopyAll b) m 0 [BitVec.ofNat 32 (uncopied b.mgmt)] else reply b m 6 []) row (if_pos usable)
end

theorem logCopy_copies {s : State} (running : s.b.mgmt.st = .running) (usable : vaultUsable s.par s.b = true)
    (due : 512 ≤ uncopied s.b.mgmt) : exec .logCopy s = .next (s.put (logCopyAll s.b)) := by
  show effect _ s = _
  rw [effect_put, if_pos ⟨running, usable, due⟩]

/-! ## The copied records in the log's area (R381, R382) -/

theorem length_wordBytes (ws : List Word) : (wordBytes ws).length = 4 * ws.length := by
  simp [wordBytes, List.length_flatMap, Nat.mul_comm]

/-- Byte c of word q stands at 4 q + c. -/
theorem wordBytes_getD (ws : List Word) (q : Nat) {c : Nat} (hc : c < 4) : (wordBytes ws).getD (4 * q + c) 0 =
    BitVec.ofNat 8 ((ws.getD q 0).toNat / 2 ^ (8 * c)) := by
  induction ws generalizing q with
  | nil => simp [wordBytes]
  | cons w ws ih =>
    have split : wordBytes (w :: ws) =
        (List.range 4).map (fun (i : Nat) => BitVec.ofNat 8 (w.toNat / 2 ^ (8 * i))) ++ wordBytes ws := rfl
    rw [split]
    cases q with
    | zero =>
      rw [List.getD_append _ _ _ _ (by simpa using hc)]
      simp [hc]
    | succ q =>
      rw [List.getD_append_right _ _ _ _ (by simp; omega), List.getD_cons_succ, ← ih]
      congr 1
      simp
      omega

section
variable (t : Tab Byte) (off : Nat) (l : List Byte)

theorem tgetD_putBytes_outside {k : Nat} (out : k < off ∨ off + l.length ≤ k) :
    tgetD (putBytes t off l) k 0 = tgetD t k 0 := by
  induction l generalizing t off with
  | nil => rfl
  | cons x l ih =>
    rw [List.length_cons] at out
    rw [putBytes, ih _ _ (by omega), tgetD_tput_ne _ _ _ (by omega)]

theorem tgetD_putBytes {i : Nat} (inside : i < l.length) : tgetD (putBytes t off l) (off + i) 0 = l.getD i 0 := by
  induction l generalizing t off i with
  | nil => simp at inside
  | cons x l ih =>
    rw [putBytes]
    cases i with
    | zero =>
      rw [Nat.add_zero, tgetD_putBytes_outside _ _ _ (by omega)]
      exact tgetD_tput _ _ _ _
    | succ i =>
      rw [show off + (i + 1) = off + 1 + i by omega, ih _ _ (by simpa using inside)]
      rfl
end

/-- The log's area after a record has been copied to its place. -/
def putRec (t : Tab Byte) (r : LogRec) : Tab Byte := putBytes t (logPlace r.seq) (wordBytes (logWords r))

theorem length_recBytes (r : LogRec) : (wordBytes (logWords r)).length = 32 := length_wordBytes _

/-- A byte of a record's place, once the record has been copied there. -/
theorem tgetD_putRec (t : Tab Byte) (r : LogRec) {i : Nat} (hi : i < 32) :
    tgetD (putRec t r) (logPlace r.seq + i) 0 = (wordBytes (logWords r)).getD i 0 :=
  tgetD_putBytes _ _ _ (by rwa [length_recBytes])

/-- Records of other places leave it. -/
theorem tgetD_foldl_putRec (l : List LogRec) (t : Tab Byte) {seq i : Nat} (hi : i < 32)
    (other : ∀ x ∈ l, x.seq % 16777216 ≠ seq % 16777216) :
    tgetD (l.foldl putRec t) (logPlace seq + i) 0 = tgetD t (logPlace seq + i) 0 := by
  induction l generalizing t with
  | nil => rfl
  | cons x l ih =>
    have away := other x List.mem_cons_self
    rw [List.foldl_cons, ih _ fun y hy => other y (List.mem_cons_of_mem _ hy)]
    refine tgetD_putBytes_outside _ _ _ ?_
    rw [length_recBytes]
    unfold logPlace
    omega

/-- The list around its entry at place i. -/
theorem split_at_index {α : Type} {l : List α} {i : Nat} {x : α} (h : l[i]? = some x) :
    ∃ l1 l2, l = l1 ++ x :: l2 ∧ l1.length = i := by
  obtain ⟨hi, rfl⟩ := List.getElem?_eq_some_iff.1 h
  exact ⟨l.take i, l.drop (i + 1), by simp, by simp; omega⟩

/-- A record that the copy takes stands in its place of the area, where no other record has that place. -/
theorem tgetD_logCopyAll {b : Block} {i : Nat} {r : LogRec} (held : b.mgmt.log[i]? = some r)
    (due : b.mgmt.logCopied ≤ r.seq)
    (alone : ∀ j x, b.mgmt.log[j]? = some x → j ≠ i → x.seq % 16777216 ≠ r.seq % 16777216) {k : Nat} (hk : k < 32) :
    tgetD (logCopyAll b).mgmt.logArea (logPlace r.seq + k) 0 = (wordBytes (logWords r)).getD k 0 := by
  obtain ⟨l1, l2, log, rfl⟩ := split_at_index held
  have area : (logCopyAll b).mgmt.logArea =
      (b.mgmt.log.filter (fun x => decide (b.mgmt.logCopied ≤ x.seq))).foldl putRec b.mgmt.logArea := rfl
  have later : ∀ x ∈ l2, x.seq % 16777216 ≠ r.seq % 16777216 := by
    intro x hx
    obtain ⟨j, hj⟩ := List.mem_iff_getElem?.1 hx
    refine alone (l1.length + 1 + j) x ?_ (by omega)
    rw [log, List.getElem?_append_right (by omega), show l1.length + 1 + j - l1.length = j + 1 by omega, List.getElem?_cons_succ, hj]
  rw [area, log, List.filter_append, List.filter_cons_of_pos (by simpa using due), List.foldl_append, List.foldl_cons,
    tgetD_foldl_putRec _ _ hk (fun x hx => later x (List.mem_of_mem_filter hx)), tgetD_putRec _ _ hk]

/-- Four bytes of a word make the word. -/
theorem word_of_bytes (w : Word) : BitVec.ofNat 32 ((BitVec.ofNat 8 (w.toNat / 2 ^ (8 * 0))).toNat +
    (BitVec.ofNat 8 (w.toNat / 2 ^ (8 * 1))).toNat * 2 ^ 8 + (BitVec.ofNat 8 (w.toNat / 2 ^ (8 * 2))).toNat * 2 ^ 16 +
    (BitVec.ofNat 8 (w.toNat / 2 ^ (8 * 3))).toNat * 2 ^ 24) = w := by
  refine BitVec.eq_of_toNat_eq ?_
  have := w.isLt
  simp only [BitVec.toNat_ofNat]
  omega

/-- The area gives the record's words again. -/
theorem imgWord_logCopyAll {b : Block} {i : Nat} {r : LogRec} (held : b.mgmt.log[i]? = some r)
    (due : b.mgmt.logCopied ≤ r.seq)
    (alone : ∀ j x, b.mgmt.log[j]? = some x → j ≠ i → x.seq % 16777216 ≠ r.seq % 16777216) {q : Nat} (hq : q < 8) :
    BitVec.ofNat 32 (imgWord (logCopyAll b).mgmt.logArea (logPlace r.seq + 4 * q)) = (logWords r).getD q 0 := by
  have byte (c : Nat) (hc : c < 4) :=
    (tgetD_logCopyAll held due alone (k := 4 * q + c) (by omega)).trans (wordBytes_getD _ q hc)
  have word := word_of_bytes ((logWords r).getD q 0)
  rw [← byte 0 (by decide), ← byte 1 (by decide), ← byte 2 (by decide), ← byte 3 (by decide)] at word
  exact word

/-- Settles O44: messages by their row, updates and restarts by what the vault and the image allow, the copy by its bytes. -/
theorem torvyoAnswers : Obligations.TorvyoAnswers := by
  refine ⟨fun s m running => ⟨fun full free c hc low high => mailboxTake_takes running full free hc low high, fun taken => ?_⟩,
    fun s m running taken usable => ?_, fun b i r held due alone q hq => ?_⟩
  · exact ⟨ping_answers running taken, fun row => serve_effect running taken row rfl, powerRead_answers running taken,
      fun r row held fault => logRead_answers running taken row held fault, fun row => serve_effect running taken row rfl,
      setBudget_answers running taken, fun row => serve_effect running taken row rfl,
      fun row => serve_effect running taken row rfl⟩
  · exact ⟨updateBegin_answers running taken usable, fun len => updateData_answers running taken usable,
      fun len ok ver row begun hver hok => updateCommit_answers running taken usable row begun hver hok,
      resetMgmt_answers running taken, logFlush_answers running taken usable, logCopy_copies running usable⟩
  · exact imgWord_logCopyAll held due alone hq

end Sys2Proof.Machine
end

section
/-! SUPPORT. The commands of VT_CMD and MOUNT: how they begin, complete and fail (R320, R324, R332, R339). -/
namespace Sys2Proof.Machine

/-! ## Commands by their condition -/

theorem exec_closeComplete {s : State} (ready : vaultReady s.b = true) (striped : s.b.vault.ch ≠ 0) :
    exec .closeComplete s = .next (s.put (closeEnd s.par s.b)) :=
  effect_when (c := fun _ b => vaultReady b && b.vault.ch ≠ 0) (by simp [ready, striped])

theorem exec_deleteDrained {s : State} (ready : vaultReady s.b = true) :
    exec .deleteDrained s = .next (s.put (deleteEnd s.b)) :=
  effect_when (c := fun _ b => vaultReady b) ready

theorem exec_mount {s : State} (runs : vaultRuns s.b = true) (mounting : s.b.vault.st = .mounting) (g : Bool)
    (copy : Option MetaCopy) : exec (.mount g copy) s = .next (s.put (vaultSettle (mountEnd s.par s.b g copy))) :=
  effect_when (c := fun _ b => vaultRuns b && b.vault.st = .mounting) (f := fun p b => vaultSettle (mountEnd p b g copy))
    (by simp [runs, mounting])

/-! ## Commands that begin (R324, R332) -/

@[simp] theorem cmdDone_vault (b : Block) (r : Nat) : (cmdDone b r).vault = { b.vault with busy := 0, result := r } :=
  setCause_vault _ _ _

theorem getObj_cmdDone (b : Block) (r obj : Nat) : getObj (cmdDone b r) obj = getObj b obj := by
  rw [getObj, cmdDone_vault]
  rfl

section
variable {p : Params} {b : Block} {obj : Nat}

theorem cmdCreate_notReady (off : b.vault.st ≠ .ready) : cmdCreate p b obj = cmdDone b 3 := if_pos off

theorem cmdDelete_notReady (off : b.vault.st ≠ .ready) : cmdDelete b obj = cmdDone b 3 := if_pos (.inl off)

theorem cmdClose_notReady (off : b.vault.st ≠ .ready) (l : List DWord) : cmdClose b obj l = cmdDone b 3 := if_pos (.inl off)

variable (ready : b.vault.st = .ready)
include ready

/-- CREATE of a free object whose segments are there reserves them for an OPEN object. -/
theorem cmdCreate_reserves {segs : List Nat} (free : (getObj b obj).st = .free) (some : 0 < rget64 b (vaultB + 0x4C))
    (fits : rget64 b (vaultB + 0x4C) ≤ 2 ^ 44)
    (taken : takeSegs p b.vault (ceilDiv (rget64 b (vaultB + 0x4C)) (segBytes b.vault.ch)) [] = .some segs) :
    cmdCreate p b obj = cmdDone (setObj b obj { Obj.reset with
      st := .open, packed := bit (rget b (vaultB + 0x54)) 16, parts := BitVec.ofNat 16 (rget b (vaultB + 0x54)),
      gen := ((getObj b obj).gen + 1) % 2 ^ 32, len := rget64 b (vaultB + 0x4C),
      blocks := if bit (rget b (vaultB + 0x54)) 16 then rget b (vaultB + 0x58) else 0, segs := segs,
      birth := segs.map (fun _ => b.vault.poweredS) }) 0 := by
  have length : ¬ (rget64 b (vaultB + 0x4C) = 0 ∨ 2 ^ 44 < rget64 b (vaultB + 0x4C)) := by omega
  simp only [cmdCreate, createNew, ready, free, ne_eq, not_true_eq_false, if_false, length, taken]

theorem cmdClose_begins (opened : (getObj b obj).st = .open) (l : List DWord) : (cmdClose b obj l).vault.busy = 2 ∧
    (cmdClose b obj l).vault.cmdObj = obj ∧ (getObj (cmdClose b obj l) obj).closing = true := by
  have allowed : ¬ (b.vault.st ≠ .ready ∨ (getObj b obj).st ≠ .open) := by simp [ready, opened]
  rw [cmdClose, if_neg allowed]
  exact ⟨rfl, rfl, congrArg (·.closing) (get_setObj b obj _)⟩

theorem cmdDelete_begins (held : (getObj b obj).st = .open ∨ (getObj b obj).st = .ready) :
    (cmdDelete b obj).vault.busy = 3 ∧ (getObj (cmdDelete b obj) obj).st = .deleting := by
  have allowed : ¬ (b.vault.st ≠ .ready ∨ ((getObj b obj).st ≠ .open ∧ (getObj b obj).st ≠ .ready)) := by
    rw [ready]
    rintro (no | ⟨notOpen, notReady⟩)
    · exact no rfl
    · exact held.elim notOpen notReady
  rw [cmdDelete, if_neg allowed]
  exact ⟨rfl, congrArg (·.st) (get_setObj b obj _)⟩
end

/-! ## CLOSE and DELETE complete (R324, R332) -/

theorem length_placeIndex (x : Obj) : (placeIndex x).length = ceilDiv x.blocks 256 := by simp [placeIndex]

theorem placeIndex_getElem? (x : Obj) {i : Nat} (hi : i < ceilDiv x.blocks 256) :
    (placeIndex x)[i]? = some (roundUp (8 * x.blocks) 16 +
      ((x.headers.take (256 * i)).map (fun h => hClen h.toNat)).foldl (· + ·) 0) := by
  simp [placeIndex, hi]

/-- An object all of whose lines have been programmed, as CLOSE leaves it but for its state. -/
def closedObj (x : Obj) : Obj := { x with closing := false, frontier := ceilDiv x.len cwBytes, written := [] }

/-- CLOSE, once every accepted line has been programmed. -/
theorem closeEnd_ends {p : Params} {b : Block} {x : Obj} (hx : x = getObj b b.vault.cmdObj) (busy : b.vault.busy = 2)
    (clean : x.dirty = []) : closeEnd p b = vaultSettle (
      if !x.packed then cmdDone (setObj b b.vault.cmdObj { closedObj x with st := .ready }) 0
      else if formOk x then closePacked p b b.vault.cmdObj (closedObj x)
      else cmdDone (setObj b b.vault.cmdObj { closedObj x with headers := [] }) 4) := by
  subst hx
  have ends : ¬ (b.vault.busy ≠ 2 ∨ (getObj b b.vault.cmdObj).dirty ≠ []) := by simp [busy, clean]
  rw [closeEnd, if_neg ends]
  rfl

/-- CLOSE of a PACKED object that checks takes the segments that its place index needs, or answers NOSPACE. -/
theorem closePacked_takes {p : Params} {b : Block} {obj more : Nat} {x : Obj}
    (hmore : more = ceilDiv (x.len + 8 * ceilDiv x.blocks 256) (segBytes b.vault.ch) - x.segs.length) :
    (takeSegs p b.vault more [] = none →
      closePacked p b obj (closedObj x) = cmdDone (setObj b obj { closedObj x with headers := [] }) 1) ∧
    ∀ l, takeSegs p b.vault more [] = some l → closePacked p b obj (closedObj x) = cmdDone (setObj b obj { closedObj x with
      st := .ready, index := placeIndex x, segs := x.segs ++ l,
      birth := x.birth ++ l.map (fun _ => b.vault.poweredS) }) 0 := by
  have needs : indexSegs b (closedObj x) = more := by
    rw [hmore, indexSegs, length_placeIndex]
    rfl
  rw [closePacked, needs]
  refine ⟨fun none => by rw [none], fun l some => by rw [some]; rfl⟩

theorem deleteEnd_ends {b : Block} (busy : b.vault.busy = 3) (free : objHeld b b.vault.cmdObj = false) : deleteEnd b =
    vaultSettle (cmdDone (setObj b b.vault.cmdObj { Obj.reset with gen := (getObj b b.vault.cmdObj).gen }) 0) := by
  have ends : ¬ (b.vault.busy ≠ 3 ∨ objHeld b b.vault.cmdObj = true) := by simp [busy, free]
  rw [deleteEnd, if_neg ends]
  rfl

/-! ## MOUNT (R320, R324, R339) -/

/-- A write that fails leaves the vault as it is. -/
theorem vaultWritesFail_vault (b : Block) (keep : Nat → WrReq → Bool) : (vaultWritesFail b keep).vault = b.vault :=
  (keep_vaultWritesFail (keeps_agree 18907577 b) (by decide) (agree_refl _ _) keep).vault rfl

/-- MOUNT with a copy that checks serves the objects of the copy. -/
theorem mountEnd_serves (p : Params) (b : Block) (m : MetaCopy) : (mountEnd p b true (some m)).vault.st = .ready ∧
    (mountEnd p b true (some m)).vault.ch = p.vaultCh ∧ (mountEnd p b true (some m)).vault.retired = m.retired ∧
    (mountEnd p b true (some m)).vault.busy = 0 ∧ (mountEnd p b true (some m)).vault.result = 0 ∧
    (mountEnd p b true (some m)).vault.cws = [] ∧ (mountEnd p b true (some m)).vault.objs =
      m.objs.foldl (fun l o => tput l o.obj (mountObj (tgetD b.vault.objs o.obj Obj.reset) o)) [] := by
  simp only [mountEnd, Bool.not_true, Bool.false_eq_true, if_false, cmdDone_vault, modVault, vaultWritesFail_vault, and_self]

/-- Settles O32: each command as it begins, as it completes and as MOUNT ends, then the place index. -/
theorem vaultCommands : Obligations.VaultCommands := by
  refine ⟨?_, ?_, fun x => ⟨length_placeIndex x, fun i hi => placeIndex_getElem? x hi⟩⟩
  · rintro p b obj x rfl
    refine ⟨fun off => ⟨cmdCreate_notReady off, cmdDelete_notReady off, cmdClose_notReady off⟩, ?_,
      fun ready opened l => cmdClose_begins ready opened l, fun ready held => cmdDelete_begins ready held⟩
    rintro ready free len arg segs rfl rfl some fits taken
    rw [cmdCreate_reserves ready free some fits taken, getObj_cmdDone, get_setObj, cmdDone_vault]
    exact ⟨_, rfl, rfl, rfl, rfl, rfl, rfl, rfl, rfl, rfl, rfl⟩
  · rintro s v x rfl rfl runs
    refine ⟨?_, fun busy st free => ?_, fun mounting => ⟨fun copy => ?_, ?_, fun m => ?_⟩⟩
    · rintro busy striped st clean y rfl
      have ends := exec_closeComplete ((vaultReady_iff _).2 ⟨runs, st⟩) striped
      rw [closeEnd_ends rfl busy clean] at ends
      refine ⟨fun plain => ?_, fun packed bad => ?_, fun packed good more hmore => ?_⟩
      · rw [plain] at ends
        exact ends
      · rw [packed, bad] at ends
        exact ends
      · obtain ⟨noSpace, appends⟩ := closePacked_takes (p := s.par) (obj := s.b.vault.cmdObj) hmore
        rw [packed, good] at ends
        refine ⟨fun none => ?_, fun l some => ?_⟩
        · exact ends.trans (congrArg (fun b => Host.Outcome.next (s.put (vaultSettle b))) (noSpace none))
        · exact ends.trans (congrArg (fun b => Host.Outcome.next (s.put (vaultSettle b))) (appends l some))
    · rw [exec_deleteDrained ((vaultReady_iff _).2 ⟨runs, st⟩), deleteEnd_ends busy free]
    · exact exec_mount runs mounting false copy
    · exact exec_mount runs mounting true none
    · exact ⟨_, exec_mount runs mounting true (some m), mountEnd_serves s.par s.b m⟩

end Sys2Proof.Machine
end

section
/-! SUPPORT. Codewords: first decodes, the rally, late reads (R326 to R328). -/
namespace Sys2Proof.Machine

/-! ## Commands by their condition -/

section
variable {s : State} (ready : vaultReady s.b = true) (striped : s.b.vault.ch ≠ 0) (n k cw : Nat) (ok : Bool) (data : List Line)
include ready striped

theorem exec_codewordDecoded : exec (.codewordDecoded n k cw ok data) s = .next (s.put (firstDecode s.b n k cw ok data)) :=
  effect_when (c := fun _ b => vaultReady b && b.vault.ch ≠ 0) (f := fun _ b => firstDecode b n k cw ok data)
    (by simp [ready, striped])

theorem exec_rallyStep : exec (.rallyStep n k cw ok data) s = .next (s.put (rally s.b n k cw ok data)) :=
  effect_when (c := fun _ b => vaultReady b && b.vault.ch ≠ 0) (f := fun _ b => rally b n k cw ok data)
    (by simp [ready, striped])
end

/-! ## The codewords of an operation (R326, R328) -/

/-- The next codeword of an operation with room in the read buffer is decoded with the offsets kept for its block. -/
theorem firstDecode_next {b : Block} {n k obj cw : Nat} {o : Op} (ok : Bool) (data : List Line)
    (reads : (getStrand (vaultTidy b) n k).ops.find? (fun o => (nextCw (vaultTidy b) n k o).map (·.2) = some cw) = some o)
    (next : nextCw (vaultTidy b) n k o = some (obj, cw)) (room : aheadRoom (vaultTidy b) n k o.id = true)
    (free : chHeld (vaultTidy b) (cw % (vaultTidy b).vault.ch) = false) :
    firstDecode b n k cw ok data = decodeEnd (count (vaultTidy b) .vault 0x02 1 none)
      { stn := n, strand := k, op := o.id, obj := obj, cw := cw, step := 0, offs := keptOffs (vaultTidy b) obj cw,
        done := false, poison := false, data := [] } ok data := by
  simp only [firstDecode, reads, next, room, free, Bool.not_true, Bool.or_self, Bool.false_eq_true, if_false]

theorem rally_step {b : Block} {n k : Nat} {c : Cw} (ok : Bool) (data : List Line)
    (failing : b.vault.cws.find? (fun d => d.stn = n && d.strand = k && d.cw = c.cw && !d.done && 0 < d.step) = some c)
    (free : chHeld b (c.cw % b.vault.ch) = false) : rally b n k c.cw ok data = decodeEnd b c ok data := by
  simp only [rally, failing, free, Bool.false_eq_true, if_false]

/-- The codewords that a burst of an operation waits for: neither listed as poisoned nor decoded. -/
def lateCws (b : Block) (n k id : Nat) (o : Op) (rq : RdReq) : List Nat :=
  (burstCws o rq.va rq.mask).filter (fun c => !poisoned b (rq.va / 2 ^ 44) c &&
    (match findCw b.vault n k id (rq.va / 2 ^ 44) c with
      | some x => !x.done
      | none => true))

theorem lateCws_waits {b : Block} {n k id : Nat} {o : Op} {rq : RdReq} {c : Nat} (h : c ∈ lateCws b n k id o rq) :
    poisoned b (rq.va / 2 ^ 44) c = false ∧ c ∈ burstCws o rq.va rq.mask := by
  obtain ⟨mem, waits⟩ := List.mem_filter.1 h
  rw [Bool.and_eq_true, Bool.not_eq_true'] at waits
  exact ⟨waits.1, mem⟩

/-- A read that is late makes the codewords that it waits for uncorrectable. -/
theorem vaultRdTmo_late {b : Block} {n tag k id opd : Nat} {rq : RdReq} {o : Op} (out : tget (getStn b n).vRdTags tag = some rq)
    (agent : rq.agent = .op k id opd) (op : findOp b n k id = some o) : vaultRdTmo b n tag =
      vaultServeAll (forEach (lateCws b n k id o rq) b (fun b c => ueCw b (rq.va / 2 ^ 44) c 3)) := by
  simp only [vaultRdTmo, out, agent, op]
  rfl

/-! ## How a decode ends (R327, R328) -/

theorem keepOffs_first (b : Block) {c : Cw} (first : c.step = 0) : keepOffs b c = b := by
  unfold keepOffs
  dsimp only
  split
  · rfl
  · exact if_pos (by simp [first])

theorem keepOffs_step {b : Block} {c : Cw} {ch blk : Nat} (low : 1 ≤ c.step) (high : c.step ≤ 3)
    (block : blkOfCw b c.obj c.cw = some (ch, blk)) :
    keepOffs b c = modVCh b ch (fun x => { x with offs := tput x.offs blk c.step }) := by
  simp [keepOffs, block, high, Nat.ne_of_gt low]

/-- A rally step from the one that VT_RALLY names on marks the segment for refresh (R335). -/
def rallyMark (b : Block) (c : Cw) : Block :=
  if 0 < c.step && decide (rbits b (vaultB + 0x70) 6 4 ≤ c.step) then markSeg b c.obj (c.cw / segCws b.vault.ch) else b

theorem decodeEnd_ok (b : Block) (c : Cw) (data : List Line) : decodeEnd b c true data =
    vaultServe (putCw (keepOffs (rallyMark (countRead b c.obj c.cw) c) c) { c with done := true, data := data }) c.stn := rfl

section
variable {b b' : Block} {c : Cw} (hb : b' = countRead b c.obj c.cw) (data : List Line)
include hb

theorem decodeEnd_uncorrectable (last : rbits b' (vaultB + 0x70) 2 0 ≤ c.step) : decodeEnd b c false data =
    vaultServeAll (putCw (ueCw b' c.obj c.cw 2) { c with done := true, poison := true }) := by
  subst hb
  simp only [decodeEnd, Bool.false_eq_true, if_false, last, if_true]

theorem decodeEnd_climbs (more : c.step < rbits b' (vaultB + 0x70) 2 0) (rallying : 0 < c.step) :
    decodeEnd b c false data = putCw b' { c with step := c.step + 1 } := by
  subst hb
  simp only [decodeEnd, Bool.false_eq_true, if_false, Nat.not_le.2 more, Nat.ne_of_gt rallying]

theorem decodeEnd_delivers (first : c.step = 0) : decodeEnd b c true data =
    vaultServe (putCw b' { c with done := true, data := data }) c.stn := by
  have unmarked : rallyMark b' c = b' := if_neg (by simp [first])
  rw [decodeEnd_ok, ← hb, keepOffs_first _ first, unmarked]

/-- A rally step that succeeds keeps its offsets. -/
theorem decodeEnd_rallies {b'' : Block} {ch blk : Nat} (low : 1 ≤ c.step) (high : c.step ≤ 3)
    (marked : b'' = if rbits b' (vaultB + 0x70) 6 4 ≤ c.step then markSeg b' c.obj (c.cw / segCws b'.vault.ch) else b')
    (block : blkOfCw b'' c.obj c.cw = some (ch, blk)) : decodeEnd b c true data =
      vaultServe (putCw (modVCh b'' ch (fun x => { x with offs := tput x.offs blk c.step }))
        { c with done := true, data := data }) c.stn := by
  have refresh : rallyMark b' c = b'' := by
    rw [marked]
    simp [rallyMark, Nat.lt_of_lt_of_le Nat.zero_lt_one low]
  rw [decodeEnd_ok, ← hb, refresh, keepOffs_step low high block]
end

/-- Settles O33: decodes and late reads by what they find, then the end of a decode by the step and its outcome. -/
theorem vaultReads : Obligations.VaultReads := by
  refine ⟨fun s n k data => ⟨?_, ?_, ?_⟩, ?_⟩
  · rintro ok b o obj cw ready rfl reads next room striped free
    rw [exec_codewordDecoded ready striped, firstDecode_next ok data reads next room free]
  · rintro ok c ready striped free failing
    rw [exec_rallyStep ready striped, rally_step ok data failing free]
  · rintro tag rq id opd o powered striped alive out agent op
    refine ⟨lateCws s.b n k id o rq, fun c => lateCws_waits, ?_⟩
    rw [← vaultRdTmo_late out agent op]
    exact effect_when (c := fun _ b => b.vault.powered && b.vault.ch ≠ 0 && !isDead b) (by simp [powered, striped, alive])
  · rintro b c data b' _ hb rfl
    exact ⟨decodeEnd_uncorrectable hb data, decodeEnd_climbs hb data, decodeEnd_delivers hb data,
      fun ch blk b'' low high => decodeEnd_rallies hb data low high⟩

end Sys2Proof.Machine
end

section
/-! SUPPORT. Lines that reach the vault's controller, the pages that it programs, and padding (R320, R329 to R331, R342, R429). -/
namespace Sys2Proof.Machine

/-! ## Commands by their condition -/

theorem exec_vaultWriteLine {s : State} (powered : s.b.vault.powered = true) (striped : s.b.vault.ch ≠ 0)
    (alive : isDead s.b = false) (n tag : Nat) : exec (.vaultWriteLine n tag) s = .next (s.put (vaultLine s.b n tag)) :=
  effect_when (c := fun _ b => b.vault.powered && b.vault.ch ≠ 0 && !isDead b) (f := fun _ b => vaultLine b n tag)
    (by simp [powered, striped, alive])

theorem exec_pageProgrammed {s : State} {obj page : Nat} (goes : pageGoes s.b obj page = true) :
    exec (.pageProgrammed obj page) s = .next (s.put (pageProg s.par s.b obj page)) :=
  effect_when (c := fun _ b => pageGoes b obj page) (f := fun p b => pageProg p b obj page) goes

theorem exec_vaultPadTimeout {s : State} {obj : Nat} (ready : vaultReady s.b = true) (striped : s.b.vault.ch ≠ 0)
    (written : (getObj s.b obj).st = .open ∨ (getObj s.b obj).st = .deleting) :
    exec (.vaultPadTimeout obj) s = .next (s.put (modObj s.b obj (padObj s.b.vault.ch))) :=
  effect_when (c := fun _ b => vaultReady b && b.vault.ch ≠ 0 && ((getObj b obj).st = .open || (getObj b obj).st = .deleting))
    (f := fun _ b => modObj b obj (padObj b.vault.ch)) (by simpa [ready, striped] using written)

/-! ## Lines (R320, R329, R331, R429) -/

/-- A station whose write has left the table of the writes on their way to the vault. -/
def lineTaken (b : Block) (n tag : Nat) : Block := setStn b n { getStn b n with vWrTags := tdel (getStn b n).vWrTags tag }

theorem lineRefused_rewrite {x : Obj} {off mask : Nat} (rewrites : lineDone x (off / 128) &&& mask ≠ 0) :
    lineRefused x off mask = some true := if_pos rewrites

section
variable {x : Obj} {off mask : Nat} (fresh : lineDone x (off / 128) &&& mask = 0)
include fresh

theorem lineRefused_beyond (beyond : x.closing = true ∨ x.frontier + 2048 ≤ off / 4096) :
    lineRefused x off mask = some false := by
  have refused : (x.closing || decide (x.frontier + 2048 ≤ off / cwBytes)) = true := by
    rwa [Bool.or_eq_true, decide_eq_true_eq]
  rw [lineRefused, if_neg (not_not.mpr fresh), if_pos refused]

theorem lineRefused_inside (opened : x.closing = false) (inside : off / 4096 < x.frontier + 2048) :
    lineRefused x off mask = none := by
  have accepted : ¬(x.closing || decide (x.frontier + 2048 ≤ off / cwBytes)) = true := by
    rw [opened, Bool.false_or, decide_eq_true_eq]
    exact Nat.not_le.mpr inside
  rw [lineRefused, if_neg (not_not.mpr fresh), if_neg accepted]
end

/-- An object that holds the bytes of a line that it has accepted. -/
def lineStored (ch : Nat) (x : Obj) (off : Nat) (w : WrReq) : Obj :=
  { x with
    written := tput x.written (off / 128) (lineDone x (off / 128) ||| w.mask)
    poison := if w.poison = 0 ∨ x.poison.contains (off / 4096) then x.poison else x.poison ++ [off / 4096]
    dirty := if x.dirty.contains (pageOfCw ch (off / 4096)) then x.dirty else x.dirty ++ [pageOfCw ch (off / 4096)] }

/-- The block once the controller has accepted a line: its write waits for the page's program. -/
def lineAccepted (b : Block) (n tag : Nat) (w : WrReq) : Block :=
  count (setObj (setStn b n { getStn b n with vWrTags := tput (tdel (getStn b n).vWrTags tag) (256 + w.wid) w })
    (w.va / 2 ^ 44) (front (lineStored b.vault.ch (getObj b (w.va / 2 ^ 44)) (w.va % 2 ^ 44) w))) .vault 0x05
    (popCount 128 w.mask) none

section
variable {b : Block} {n tag : Nat} {w : WrReq} (out : tag < 256) (sent : tget (getStn b n).vWrTags tag = some w)
include out sent

theorem vaultLine_mounting (mounting : b.vault.st = .mounting) : vaultLine b n tag = b := by
  simp only [vaultLine, out, if_true, sent, mounting]

theorem vaultLine_unserved (mounted : b.vault.st ≠ .mounting) (unserved : b.vault.fenced = true ∨ b.vault.st ≠ .ready) :
    vaultLine b n tag = vaultWrFail (vaultEv (lineTaken b n tag) 0x4F 0) n w := by
  have fails : (b.vault.fenced || decide (b.vault.st ≠ .ready)) = true := by simpa using unserved
  simp only [vaultLine, out, if_true, sent, mounted, if_false, fails]
  rfl

variable (works : b.vault.fenced = false) (ready : b.vault.st = .ready)
include works ready

theorem vaultLine_refused {r : Bool} (refused : lineRefused (getObj b (w.va / 2 ^ 44)) (w.va % 2 ^ 44) w.mask = some r) :
    vaultLine b n tag = vaultOrder (lineTaken b n tag) n w r := by
  simp only [vaultLine, out, if_true, sent, works, ready, refused]
  rfl

theorem vaultLine_accepted (free : lineRefused (getObj b (w.va / 2 ^ 44)) (w.va % 2 ^ 44) w.mask = none) :
    vaultLine b n tag = lineAccepted b n tag w := by
  simp only [vaultLine, out, if_true, sent, works, ready, free]
  rfl
end

theorem lineAccepted_obj (b : Block) (n tag : Nat) (w : WrReq) : getObj (lineAccepted b n tag w) (w.va / 2 ^ 44) =
    front (lineStored b.vault.ch (getObj b (w.va / 2 ^ 44)) (w.va % 2 ^ 44) w) := by
  rw [lineAccepted, getObj_count, get_setObj]

theorem lineAccepted_writes (b : Block) (n tag : Nat) (w : WrReq) : (getStn (lineAccepted b n tag w) n).vWrTags =
    tput (tdel (getStn b n).vWrTags tag) (256 + w.wid) w := by
  rw [lineAccepted, getStn_count]
  exact congrArg (·.vWrTags) (get_setStn b n _)

/-! ## Pages (R330, R331, R342) -/

section
variable {b : Block} {obj page : Nat} {x : Obj} (hx : x = getObj b obj)
include hx

/-- A page that is complete, or one that a CLOSE fills. -/
theorem pageProg_programs (p : Params) (due : (x.dirty.contains page = true ∧ pageFull b.vault.ch x page = true) ∨
      (x.closing = true ∧ (x.dirty.contains page = true ∨ page < x.segs.length * b.vault.ch * 1024))) :
    pageProg p b obj page = vaultSettle (pageLand p (count (setObj b obj
      { x with dirty := x.dirty.filter (· ≠ page), susp := tdel x.susp page }) .vault 0x06 1 none) obj page true) := by
  subst hx
  have goes : ((getObj b obj).dirty.contains page && ((getObj b obj).closing || pageFull b.vault.ch (getObj b obj) page) ||
      (getObj b obj).closing && decide (page < (getObj b obj).segs.length * b.vault.ch * 1024)) = true := by
    obtain ⟨dirty, full⟩ | ⟨closing, dirty | zeros⟩ := due
    · simp only [dirty, full, Bool.or_true, Bool.and_true, Bool.true_or]
    · simp only [closing, dirty, Bool.true_or, Bool.and_true]
    · simp only [closing, zeros, decide_true, Bool.and_true, Bool.or_true]
  exact if_pos goes

theorem pageGoes_true (powered : b.vault.powered = true) (striped : b.vault.ch ≠ 0) (works : b.vault.fenced = false)
    (ready : b.vault.st = .ready) (free : chHeld b (page / 1024 % b.vault.ch) = false)
    (runs : isDead b = false ∨ (x.dirty.contains page = true ∧ pageFull b.vault.ch x page = true)) :
    pageGoes b obj page = true := by
  subst hx
  obtain alive | ⟨dirty, full⟩ := runs
  · simp [pageGoes, powered, striped, works, ready, free, alive]
  · simp only [pageGoes, dirty, full, Bool.and_true, Bool.or_true]
    simp [powered, striped, works, ready, free]
end

/-- Settles O34: a line by what the controller serves and by its window, a page by what makes it due, padding by its object. -/
theorem vaultWrites : Obligations.VaultWrites := by
  intro s powered striped
  refine ⟨fun n tag w alive out sent => ⟨fun mounting => ?_, fun mounted unserved => ?_⟩, ?_, ?_,
    fun obj ready => exec_vaultPadTimeout ready striped⟩
  · rw [exec_vaultWriteLine powered striped alive, vaultLine_mounting out sent mounting]
  · rw [exec_vaultWriteLine powered striped alive, vaultLine_unserved out sent mounted unserved]
    rfl
  · rintro n tag obj off w x b alive works ready out sent rfl rfl rfl rfl
    have line := exec_vaultWriteLine powered striped alive n tag
    refine ⟨fun rewrites => ?_, fun fresh beyond => ?_, fun fresh opened inside => ?_⟩
    · rw [line, vaultLine_refused out sent works ready (lineRefused_rewrite rewrites)]
      rfl
    · rw [line, vaultLine_refused out sent works ready (lineRefused_beyond fresh beyond)]
      rfl
    · rw [vaultLine_accepted out sent works ready (lineRefused_inside fresh opened inside)] at line
      exact ⟨_, _, rfl, line, lineAccepted_obj _ _ _ _, lineAccepted_writes _ _ _ _⟩
  · rintro obj page x hx works ready free due
    have runs := due.symm.imp (·.1) id
    have programs := pageProg_programs hx s.par (due.imp_right (·.2))
    rw [exec_pageProgrammed (pageGoes_true hx powered striped works ready free runs), programs]

end Sys2Proof.Machine
end
